-- ==== Sys2Proof/Word.lean ====
section
/-! DEFINITION. The words of the VS-316 and the names the spec gives to fixed sets of things:
states, roles, limits, channels, notice severities, frame kinds. -/

namespace Sys2Proof

/-- One byte of a data field or of the serial memory. -/
abbrev Byte := BitVec 8

/-- A value of the millisecond time base, 32 bits and wrapping (00_scope 0.7). -/
abbrev Ms := BitVec 32

/-- A set of the six valve channels, bit n for channel n (R95, R186). -/
abbrev Mask := BitVec 6

/-- The 27-bit zone key (R65). -/
abbrev Key := BitVec 27

/-- Node states (R188). -/
inductive NodeState where
  | startRead | configFault | recordRead | join | run | store | quiet
  deriving DecidableEq, Repr

/-- Fault codes of a refused image, in the order of the checks (R189). -/
inductive FaultCode where
  | crc | version | geometry | subscription | thresholds | rule | channel | economy | service
  deriving DecidableEq, Repr

/-- The check that a lost service record failed (R191, R192). -/
inductive RecordCheck where
  | noAnswerOrCrc | engineSeconds | weightedBand | remainder
  deriving DecidableEq, Repr

/-- CAN bit rates of the image (R174, 11.2). -/
inductive BitRate where
  | kbit250 | kbit500
  deriving DecidableEq, Repr

/-- Roles of a subscription entry (R24). -/
inductive Role where
  | boomAngle | armAngle | bucketAngle | slewAngle | engineState | engineGrant
  | hydraulicState | display | spare
  deriving DecidableEq, Repr

/-- States of a subscription entry (R28). -/
inductive StreamState where
  | neverSeen | fresh | late | stale | recovering
  deriving DecidableEq, Repr

/-- Node status a sensor reports about itself (R33). -/
inductive NodeReport where
  | ok | degraded | failed
  deriving DecidableEq, Repr

/-- Cause in the detail of a stream-fault notice (R35). -/
inductive FaultCause where
  | absent | lost | failed
  deriving DecidableEq, Repr

/-- Quality of the pose record (R13). -/
inductive Quality where
  | good | held | degraded | invalid
  deriving DecidableEq, Repr

/-- The five limits, in the order of their numbers (3.1). -/
inductive Limit where
  | floor | ceiling | reach | slewLeft | slewRight
  deriving DecidableEq, Repr

/-- Limit states (3.4). -/
inductive LimitState where
  | off | fault | clear | approach | stop
  deriving DecidableEq, Repr

/-- The six valve channels, in the order of their numbers (R95). -/
inductive Channel where
  | boomUp | boomDown | armIn | armOut | slewLeft | slewRight
  deriving DecidableEq, Repr

/-- Channel states (R105). -/
inductive ChannelState where
  | unused | pass | cutting | releasing | full
  deriving DecidableEq, Repr

/-- Work modes, in the order of their codes (R115). -/
inductive WorkMode where
  | heavy | standard | economy | lift
  deriving DecidableEq, Repr

/-- Economy states (R122). -/
inductive EcoState where
  | off | work | neutralWait | idleLow | recover | yielded
  deriving DecidableEq, Repr

/-- The limit that governs a request (R128). -/
inductive Governor where
  | mode | ruleCap | derate | idle
  deriving DecidableEq, Repr, Inhabited

/-- The engine grant as ECO reads it (R120). -/
inductive Grant where
  | own | none | foreign
  deriving DecidableEq, Repr

/-- Basis of a service item (R143). -/
inductive Basis where
  | engineHours | weightedHours | cycles
  deriving DecidableEq, Repr

/-- States of a service item, in rising order (R144). -/
inductive ItemState where
  | ok | dueSoon | due | overdue
  deriving DecidableEq, Repr

/-- States of the dig cycle detector (R140). -/
inductive DetectorState where
  | ready | dig | lifted
  deriving DecidableEq, Repr

/-- Notice severities, lowest first (R155). -/
inductive Severity where
  | info | caution | warning | stop
  deriving DecidableEq, Repr

/-- Notice routes (R155). -/
inductive Route where
  | display | locally
  deriving DecidableEq, Repr

/-- Fixed sounder patterns (R168); the approach cadence stands apart, with its period. -/
inductive Pattern where
  | oneShotShort | oneShotLong | cadence500 | continuous
  deriving DecidableEq, Repr

/-- Link states (10.5). -/
inductive LinkState where
  | active | suspect | silent
  deriving DecidableEq, Repr

/-- Transmit classes, highest rank first (R178). -/
inductive TxClass where
  | urgent | normal | background
  deriving DecidableEq, Repr

/-- Kinds of frame the part sends (10.7). -/
inductive TxKind where
  | pose | guidance | limitStatus | speedRequest | pumpLimit | settingResponse | holdResponse
  | notice | noticeCleared | noticeSummary | economyReport | cycleReport | serviceSummary
  | statsReply | nodeStatus
  deriving DecidableEq, Repr

/-- The blocks that send a reply of several frames (R38, R76, R152). -/
inductive ReplyOwner where
  | stm | rule | svc
  deriving DecidableEq, Repr

/-- One value for each of the five limits. -/
structure PerLimit (α : Type) where
  floor : α
  ceiling : α
  reach : α
  slewLeft : α
  slewRight : α
  deriving DecidableEq, Repr

/-- One value for each of the six channels. -/
structure PerChannel (α : Type) where
  boomUp : α
  boomDown : α
  armIn : α
  armOut : α
  slewLeft : α
  slewRight : α
  deriving DecidableEq, Repr

/-- One value for each of the four work modes. -/
structure PerMode (α : Type) where
  heavy : α
  standard : α
  economy : α
  lift : α
  deriving DecidableEq, Repr

/-- What a notice's detail field says, as its raiser gives it. -/
inductive Detail where
  /-- Service item: name code, state, reading and due point (R145). -/
  | service (name : Byte) (state : ItemState) (reading due : Nat)
  /-- Stream fault: its cause (R35). -/
  | stream (cause : FaultCause)
  /-- Limit STOP: the margin at entry (R58). -/
  | margin (m : Int)
  /-- HOLD_ACTIVE: requester, reason, entries in use, overflow in use (R93). -/
  | hold (requester : Byte) (reason : Nat) (inUse : Nat) (overflow : Bool)
  /-- Rule notice: the height, reach and slew zones at the lookup (R73). -/
  | zones (height reach slew : Nat)
  /-- RECORD_LOST: the check that failed (R192). -/
  | record (check : RecordCheck)
  /-- ADDRESS_CLASH: kind, destination and clash count (R175). -/
  | clash (kind : BitVec 10) (destination : Byte) (count : Nat)
  /-- LINK_SUSPECT: the spec gives it no content (R183). -/
  | linkSuspect
  /-- RECOVERY_SLOW: Nt and the engine speed at the expiry (R126). -/
  | recovery (target speed : Nat)
  deriving DecidableEq, Repr

namespace Limit
/-- The limits in the order of their numbers (3.1). -/
def all : List Limit := [floor, ceiling, reach, slewLeft, slewRight]
/-- Limit number (3.1). -/
def num : Limit → Nat
  | floor => 0 | ceiling => 1 | reach => 2 | slewLeft => 3 | slewRight => 4
end Limit

namespace Channel
/-- The channels in the order of their numbers (R95). -/
def all : List Channel := [boomUp, boomDown, armIn, armOut, slewLeft, slewRight]
/-- Channel number (R95). -/
def num : Channel → Nat
  | boomUp => 0 | boomDown => 1 | armIn => 2 | armOut => 3 | slewLeft => 4 | slewRight => 5
end Channel

namespace PerLimit
/-- The value of one limit. -/
def get {α : Type} (p : PerLimit α) : Limit → α
  | .floor => p.floor | .ceiling => p.ceiling | .reach => p.reach
  | .slewLeft => p.slewLeft | .slewRight => p.slewRight
/-- The same table with one limit's value replaced. -/
def set {α : Type} (p : PerLimit α) (l : Limit) (v : α) : PerLimit α :=
  match l with
  | .floor => { p with floor := v } | .ceiling => { p with ceiling := v }
  | .reach => { p with reach := v } | .slewLeft => { p with slewLeft := v }
  | .slewRight => { p with slewRight := v }
/-- The table whose value at each limit is `f` of it. -/
def tabulate {α : Type} (f : Limit → α) : PerLimit α :=
  ⟨f .floor, f .ceiling, f .reach, f .slewLeft, f .slewRight⟩
end PerLimit

namespace PerChannel
/-- The value of one channel. -/
def get {α : Type} (p : PerChannel α) : Channel → α
  | .boomUp => p.boomUp | .boomDown => p.boomDown | .armIn => p.armIn
  | .armOut => p.armOut | .slewLeft => p.slewLeft | .slewRight => p.slewRight
/-- The same table with one channel's value replaced. -/
def set {α : Type} (p : PerChannel α) (c : Channel) (v : α) : PerChannel α :=
  match c with
  | .boomUp => { p with boomUp := v } | .boomDown => { p with boomDown := v }
  | .armIn => { p with armIn := v } | .armOut => { p with armOut := v }
  | .slewLeft => { p with slewLeft := v } | .slewRight => { p with slewRight := v }
/-- The table whose value at each channel is `f` of it. -/
def tabulate {α : Type} (f : Channel → α) : PerChannel α :=
  ⟨f .boomUp, f .boomDown, f .armIn, f .armOut, f .slewLeft, f .slewRight⟩
end PerChannel

namespace PerMode
/-- The value of one work mode. -/
def get {α : Type} (p : PerMode α) : WorkMode → α
  | .heavy => p.heavy | .standard => p.standard | .economy => p.economy | .lift => p.lift
/-- The table whose value at each mode is `f` of it. -/
def tabulate {α : Type} (f : WorkMode → α) : PerMode α :=
  ⟨f .heavy, f .standard, f .economy, f .lift⟩
/-- The four values in the order of the mode codes. -/
def toList {α : Type} (p : PerMode α) : List α := [p.heavy, p.standard, p.economy, p.lift]
end PerMode

end Sys2Proof
end

