-- ==== Sys2Proof/Config.lean ====
section
/-! DEFINITION. The free values: constants with no body, of which no proof can know anything.
Each is named in a log entry (notes/assumptions). -/

namespace Sys2Proof.Config

/-- The n-th free choice of an order. Where the spec says that either of several events inside one
command may be taken first, the next one is chosen by this value (log 6, log 31). -/
opaque freeOrder : Nat → Nat

/-- Bytes 2..7 of a NOTICE frame, most significant first: the spec leaves the layout of a detail field
to its raiser and states none (R186; log 9). -/
opaque detailBytes : Detail → BitVec 48

/-- The role code in a stream-entry reply: the spec names the field and gives no codes (10.7; log 10). -/
opaque roleCode : Role → Byte

/-- The basis code in a service-item reply: the spec names the field and gives no codes (10.7; log 10). -/
opaque basisCode : Basis → Byte

/-- The operator profile that a settings block with a profile byte above 3 gives; the spec gives the
profile 0..3 and no rule for such a byte (R75; log 11). -/
opaque profileOutside : Nat → BitVec 2

/-- The auto-idle enable that a settings block with a byte other than 0 and 1 gives (R115; log 11). -/
opaque autoIdleOutside : Nat → Bool

/-- The limit said to govern the requested speed while it is absent (OFF, YIELDED): the spec gives a
governing limit in the requesting states only, and carries the field in every ECONOMY REPORT (R129, R135;
log 26). -/
opaque absentSpeedGovernor : WorkMode → Nat → Governor

/-- Which of MODE, RULE_CAP and DERATE is said to govern the pump limit while it is absent (OFF) (R128, R131, R135;
log 26). -/
opaque absentPumpGovernor : WorkMode → Nat → Fin 3

/-- Whether the granted source that an ECONOMY REPORT carries is 0xFF, else 0xFE, at an instant, where the image assigns no
entry the role ENGINE_GRANT: the grant names no station, and the spec gives no source (R36, R135; log 42). -/
opaque absentGrantSource : Ms → Bool

/-- The granted speed that an ECONOMY REPORT carries then; the spec gives none (R36, R135; log 42). -/
opaque absentGrantSpeed : Ms → BitVec 16

/-- The state byte of the nearest item that a SERVICE SUMMARY carries at an instant, where the image configures no item: the
spec gives the item number alone, 0 (R153; log 50). -/
opaque absentItemState : Ms → Byte

/-- The remaining share that a SERVICE SUMMARY carries then; the spec gives none (R153; log 50). -/
opaque absentItemShare : Ms → BitVec 16

/-- The four bytes of an applied value that a signed four-byte field cannot hold: the spec states no saturation there
(R148, 10.7; log 48). -/
opaque wideValue : Int → BitVec 32

end Sys2Proof.Config
end

