-- ==== Sys2Proof/Syntax.lean ====
section
/-! DEFINITION. The commands of the VS-316, one constructor per row of spec/opcode_table.json, and the
data that a command carries: a bus frame, a configuration image, a record block. -/

namespace Sys2Proof

/-- A frame on the bus (R174). `extended` is a 29-bit identifier; frames with an 11-bit identifier and
remote frames are ignored. -/
structure BusFrame where
  extended : Bool
  remote : Bool
  ident : BitVec 29
  data : List Byte
  deriving DecidableEq, Repr

/-- The floor limit: F0 (mm), grade slope s (per-mille), reference reach R0 (mm) (3.1). -/
structure Floor where
  f0 : Int
  s : Int
  r0 : Int
  deriving DecidableEq, Repr

/-- LIM's limit set, each limit present or absent (R41). -/
structure LimitSet where
  floor : Option Floor
  ceiling : Option Int
  reach : Option Int
  slewLeft : Option Int
  slewRight : Option Int
  deriving DecidableEq, Repr

/-- The operator settings block as stored in the record or the image, before any check (11.2, 11.3). -/
structure SettingsBlock where
  limits : LimitSet
  mode : Nat
  autoIdle : Nat
  delay : Int
  profile : Nat
  deriving DecidableEq, Repr

/-- Geometry parameters (R1). -/
structure Geometry where
  l1 : Int
  l2 : Int
  l3 : Int
  xf : Int
  zf : Int
  offset1 : Int
  offset2 : Int
  offset3 : Int
  slewOffset : Int
  deriving DecidableEq, Repr

/-- One assigned entry of the image's subscription section (R23). The role is one of the nine: the spec gives neither a refusal
nor a result for a role code that names none of them, and no read carries such an entry (log 49). -/
structure Subscription where
  number : Nat
  role : Role
  source : Byte
  kind : BitVec 10
  period : Nat
  staleMult : Nat
  deriving DecidableEq, Repr

/-- Band B and stop allowance A_stop of a limit type (R42). -/
structure Band where
  b : Int
  aStop : Int
  deriving DecidableEq, Repr

/-- LIM's section of the image (R42). Every image gives the five motion masks and both ends of the slope range: the spec
gives no form in which an image leaves one at its default (log 45). -/
structure LimitConfig where
  floor : Band
  ceiling : Band
  reach : Band
  slew : Band
  masks : PerLimit Mask
  slopeMin : Int
  slopeMax : Int
  deriving DecidableEq, Repr

/-- HOLD's section of the image (R81). -/
structure HoldConfig where
  mask : Mask
  tmax : Nat
  deriving DecidableEq, Repr

/-- One channel's configuration (R96). -/
structure ChannelConfig where
  used : Bool
  modulus : Nat
  countTime : Nat
  release : Nat
  fail : Nat
  deriving DecidableEq, Repr

/-- The three threshold lists, used thresholds only (R63). -/
structure Zones where
  height : List Int
  reach : List Int
  slew : List Int
  deriving DecidableEq, Repr

/-- Action fields of a rule (R68). The sounder field is absent, a pattern, or present with a code
outside the four patterns (`some none`). -/
structure RuleActions where
  cuts : PerChannel (Option Nat)
  speedCap : Option Nat
  pumpCap : Option Nat
  idleInhibit : Bool
  sound : Option (Option Pattern)
  notice : Bool
  deriving DecidableEq, Repr

/-- A rule slot that holds a rule (R68). -/
structure RuleSlot where
  index : Nat
  key : Key
  care : Key
  actions : RuleActions
  deriving DecidableEq, Repr

/-- ECO's parameters (R114). Every image gives each of them (log 45). -/
structure EcoConfig where
  idleSpeed : Nat
  modeSpeed : PerMode Nat
  modePump : PerMode Int
  warmUp : Int
  tolerance : Int
  recoveryTimeout : Int
  yieldConfirm : Int
  runThreshold : Int
  engineAddress : Byte
  deriving DecidableEq, Repr

/-- The image fields of a service item (R143). A basis code that is none of the three is `none`. -/
structure ItemConfig where
  number : Nat
  name : Byte
  basis : Option Basis
  interval : Nat
  lead : Nat
  grace : Nat
  derate : Bool
  deriving DecidableEq, Repr

/-- SVC's section of the image (R140, R143, R146). Every image gives the re-remind interval (log 45). -/
structure ServiceConfig where
  digLevel : Int
  liftLevel : Int
  minSwing : Nat
  items : List ItemConfig
  remind : Int
  deriving DecidableEq, Repr

/-- NTC's section of the image (R155, R158). A code outside its list is `none`. `serviceRoutes` are those
of 0x01..0x10 in order, `ruleNotices` those of 0x40..0x5F in order. Every image gives the escalation time (log 45). -/
structure NoticeConfig where
  serviceRoutes : List (Option Route)
  ruleNotices : List (Option Severity × Option Route)
  busyFlag : Bool
  escalationMinutes : Int
  deriving DecidableEq, Repr

/-- The configuration image's sections 2 to 13 (11.2). A bit rate code that names neither rate is `none`. -/
structure Image where
  nodeAddress : Nat
  bitRate : Option BitRate
  geometry : Geometry
  subscriptions : List Subscription
  limits : LimitConfig
  holds : HoldConfig
  channels : PerChannel ChannelConfig
  zones : Zones
  rules : List RuleSlot
  defaultRule : RuleActions
  economy : EcoConfig
  service : ServiceConfig
  notices : NoticeConfig
  defaults : SettingsBlock
  deriving DecidableEq, Repr

/-- What a read of the configuration image gives CFG when the memory answers (R189). The spec gives the
order of the sections and not their byte layout, so the read carries the bytes, for the CRC, beside the
values they hold: format version, image length, the length that sections 1 to 14 need, and the
sections (log 8). -/
structure ImageRead where
  version : Nat
  length : Nat
  needed : Nat
  bytes : List Byte
  image : Image
  deriving DecidableEq, Repr

/-- The commands: one constructor per row of spec/opcode_table.json, in the table's order. -/
inductive Instr where
  /-- POWER_ON_START (R187). -/
  | powerOnStart
  /-- KEY_DEBOUNCE_EXPIRY (R187). -/
  | keyDebounceExpiry
  /-- IMAGE_READ_DONE (R189): what the read gave, or none when the memory does not answer. -/
  | imageReadDone (r : Option ImageRead)
  /-- RECORD_READ_DONE (R191): the 128-byte block read, or none when the memory does not answer. -/
  | recordReadDone (block : Option (List Byte))
  /-- JOIN_TIMER_EXPIRY (R188). -/
  | joinTimerExpiry
  /-- NODE_STATUS_TIMER_EXPIRY (R193). -/
  | nodeStatusTimerExpiry
  /-- POSE_PERIOD_EXPIRY (R11). -/
  | posePeriodExpiry
  /-- FRAME_RECEIVED (R175): the frame on the bus. -/
  | frameReceived (f : BusFrame)
  /-- STREAM_FRAME_ARRIVAL (R25): STM takes the frame at the head of the receive queue. -/
  | streamFrameArrival
  /-- LATE_TIMER_EXPIRY (R30) of a subscription entry. -/
  | lateTimerExpiry (entry : Nat)
  /-- STALE_TIMER_EXPIRY (R30) of a subscription entry. -/
  | staleTimerExpiry (entry : Nat)
  /-- RECOVERY_WINDOW_EXPIRY (R32) of a subscription entry. -/
  | recoveryWindowExpiry (entry : Nat)
  /-- ABSENCE_WATCH_EXPIRY (R29) of a subscription entry. -/
  | absenceWatchExpiry (entry : Nat)
  /-- SET_FLOOR (R44): LIM takes the next item of the OPERATOR SETTING frame at the head. -/
  | setFloor
  /-- SET_FLOOR_AT_TIP (R44). -/
  | setFloorAtTip
  /-- SET_GRADE_SLOPE (R45). -/
  | setGradeSlope
  /-- CLEAR_FLOOR (R45). -/
  | clearFloor
  /-- SET_CEILING (R46). -/
  | setCeiling
  /-- CLEAR_CEILING (R46). -/
  | clearCeiling
  /-- SET_REACH (R46). -/
  | setReach
  /-- CLEAR_REACH (R46). -/
  | clearReach
  /-- SET_SLEW_LEFT (R47). -/
  | setSlewLeft
  /-- SET_SLEW_RIGHT (R47). -/
  | setSlewRight
  /-- SET_SLEW_LEFT_HERE (R47). -/
  | setSlewLeftHere
  /-- SET_SLEW_RIGHT_HERE (R47). -/
  | setSlewRightHere
  /-- CLEAR_SLEW (R47). -/
  | clearSlew
  /-- WORK_MODE (R116). -/
  | workMode
  /-- AUTO_IDLE_ENABLE (R117). -/
  | autoIdleEnable
  /-- AUTO_IDLE_DELAY (R117). -/
  | autoIdleDelay
  /-- SET_PROFILE (R75). -/
  | setProfile
  /-- SERVICE_DONE (R148). -/
  | serviceDone
  /-- NOTICE_INHIBIT (R157). -/
  | noticeInhibit
  /-- NOTICE_ACK (R164). -/
  | noticeAck
  /-- SILENCE (R172). -/
  | silence
  /-- SETTING_ITEM_UNKNOWN (R177). -/
  | settingItemUnknown
  /-- HOLD_REQUEST (R83): HOLD takes the frame at the head of the receive queue. -/
  | holdRequest
  /-- STREAM_STATS (R38). -/
  | streamStats
  /-- RULE_STATS (R76). -/
  | ruleStats
  /-- RULE_STATS_CLEAR (R77). -/
  | ruleStatsClear
  /-- ITEM_TABLE (R152). -/
  | itemTable
  /-- LIMIT_STATUS_TIMER_EXPIRY (R61). -/
  | limitStatusTimerExpiry
  /-- QUANTUM_TIMER_EXPIRY (R91). -/
  | quantumTimerExpiry
  /-- HOLD_ENTRY_EXPIRY (R91) of the entry of a requester, or of the overflow entry (`none`) (log 14). -/
  | holdEntryExpiry (who : Option Byte)
  /-- PERIOD_START (R102) of a channel. -/
  | periodStart (c : Channel)
  /-- DUTY_END (R103) of a channel. -/
  | dutyEnd (c : Channel)
  /-- IDLE_DELAY_EXPIRY (R124). -/
  | idleDelayExpiry
  /-- RECOVERY_TIMER_EXPIRY (R126). -/
  | recoveryTimerExpiry
  /-- YIELD_TIMER_EXPIRY (R127). -/
  | yieldTimerExpiry
  /-- REQUEST_TIMER_EXPIRY (R130). -/
  | requestTimerExpiry
  /-- ECO_SECOND_EXPIRY (R135). -/
  | ecoSecondExpiry
  /-- ECONOMY_REPORT_TIMER_EXPIRY (R135). -/
  | economyReportTimerExpiry
  /-- SVC_SECOND_EXPIRY (R138). -/
  | svcSecondExpiry
  /-- REREMIND_EXPIRY (R146) of a service item (log 15). -/
  | reremindExpiry (item : Nat)
  /-- SERVICE_SUMMARY_TIMER_EXPIRY (R153). -/
  | serviceSummaryTimerExpiry
  /-- RECORD_WRITE_DONE (R150): the port's report; `answered` is false when the memory does not answer (log 24). -/
  | recordWriteDone (answered : Bool)
  /-- RECORD_WRITE_TIMEOUT (R150). -/
  | recordWriteTimeout
  /-- SETTLE_TIMER_EXPIRY (R158). -/
  | settleTimerExpiry
  /-- ESCALATION_TIMER_EXPIRY (R163) of a pending notice id. -/
  | escalationTimerExpiry (id : Nat)
  /-- NOTICE_SUMMARY_TIMER_EXPIRY (R166). -/
  | noticeSummaryTimerExpiry
  /-- ONE_SHOT_END (R171). -/
  | oneShotEnd
  /-- CADENCE_PHASE_EXPIRY (R168). -/
  | cadencePhaseExpiry
  /-- SILENCE_TIMER_EXPIRY (R172). -/
  | silenceTimerExpiry
  /-- TRANSMIT_ATTEMPT_START (R182): the bus is free. -/
  | transmitAttemptStart
  /-- TRANSMIT_SUCCESS (R182). -/
  | transmitSuccess
  /-- ARBITRATION_LOST (R182). -/
  | arbitrationLost
  /-- TRANSMIT_FAILURE (R183). -/
  | transmitFailure
  /-- SILENT_HOLD_EXPIRY (R184). -/
  | silentHoldExpiry
  /-- KEY_INPUT_CHANGE (R187): the new level of the KEY pin, true for high, which is key on (log 52). -/
  | keyInputChange (level : Bool)
  deriving DecidableEq, Repr

end Sys2Proof
end

