-- ==== Sys2Proof/WellFormed.lean ====
section
/-! DEFINITION. Which commands can be sent: the operands the spec allows. -/

namespace Sys2Proof

/-- A data field of the bus: at most 64 bytes, and one of the lengths that a classic or a
flexible-data-rate frame carries is not asked here, since the spec judges lengths by its layouts (R174). -/
def BusFrame.wellFormed (f : BusFrame) : Bool := f.data.length ≤ 64

/-- A signed 16-bit value. -/
def signed16 (v : Int) : Bool := -32768 ≤ v && v ≤ 32767

/-- An image read: CFG reads as many bytes as the image length gives, unless the length is refused (R189);
the sections hold 12 subscription entries, 32 slots, 7 thresholds a list, 16 service routes and
32 rule notices (11.2), the index of a subscription or slot names one place at most, and a threshold and a level of the
cycle detector lie within −32768..32767 (R63, R140). -/
def ImageRead.wellFormed (r : ImageRead) : Bool :=
  (4096 < r.length || r.bytes.length == r.length)
    && r.image.subscriptions.all (fun e => e.number < 12)
    && (r.image.subscriptions.map (·.number)).Nodup
    && r.image.rules.all (fun x => x.index < 32)
    && (r.image.rules.map (·.index)).Pairwise (· < ·)
    && r.image.zones.height.length ≤ 7
    && r.image.zones.reach.length ≤ 7
    && r.image.zones.slew.length ≤ 7
    && (r.image.zones.height ++ r.image.zones.reach ++ r.image.zones.slew).all signed16
    && signed16 r.image.service.digLevel
    && signed16 r.image.service.liftLevel
    && r.image.notices.serviceRoutes.length == 16
    && r.image.notices.ruleNotices.length == 32

/-- The well-formed commands. -/
def Instr.wellFormed : Instr → Bool
  | .imageReadDone (some r) => r.wellFormed
  | .recordReadDone (some b) => b.length == 128
  | .frameReceived f => f.wellFormed
  | .lateTimerExpiry e => e < 12
  | .staleTimerExpiry e => e < 12
  | .recoveryWindowExpiry e => e < 12
  | .absenceWatchExpiry e => e < 12
  | .reremindExpiry n => 1 ≤ n && n ≤ 16
  | .escalationTimerExpiry id => id < 256
  | _ => true

end Sys2Proof
end

