-- ==== Sys2Proof/Decode.lean ====
section
/-! DEFINITION. The decoder of command words. No row of spec/opcode_table.json gives bits: the commands of
this block are events and no word spells one. -/

namespace Sys2Proof

/-- The command that a word of `nbits` bits spells by the table's bits: none, for every word. -/
def decodeTableWord (_nbits _w : Nat) : Option Instr := none

end Sys2Proof
end

