-- ==== Sys2Proof/Machine/State.lean ====
section
/-! DEFINITION. The state of the VS-316 as plain data, block by block, and the state right after reset.
A timer is `none` when it is stopped and otherwise the value of the time base at which it expires. -/

namespace Sys2Proof.Machine

/-- What stops the machine with a fault: nothing. The spec gives every command an effect, if only none, in
every node state, so no meaning raises a fault. -/
inductive Fault
  deriving DecidableEq, Repr

/-- What the model refuses. -/
inductive Refusal where
  /-- Raised by no arm of exec in this model: every command has its meaning. Safe. -/
  | notModelled (mnemonic : String)
  deriving DecidableEq, Repr

/-- CFG's state (R187, R188, R190 to R193). -/
structure Cfg where
  node : NodeState
  fault : Option FaultCode
  keyPin : Bool
  key : Bool
  debounce : Option Ms
  joinTimer : Option Ms
  statusTimer : Option Ms
  recordLost : Option RecordCheck
  deriving DecidableEq, Repr

/-- The pose record (R10). -/
structure PoseRecord where
  p1Reach : Int
  p1Height : Int
  p2Reach : Int
  p2Height : Int
  p3Reach : Int
  p3Height : Int
  sequence : BitVec 8
  quality : Quality
  time : Ms
  slew : Int
  slewValid : Bool
  deriving DecidableEq, Repr

/-- POSE: the record and the pose period timer (R10, R11). -/
structure PoseUnit where
  record : PoseRecord
  timer : Option Ms
  deriving DecidableEq, Repr

/-- A mailbox: the fields of every role; a role keeps its own and the others stay 0 (R23, R24). -/
structure Mailbox where
  angle : BitVec 16
  status : NodeReport
  speed : Nat
  load : Nat
  fuelRate : Nat
  grantSource : Byte
  grantSpeed : Nat
  levers : BitVec 4
  travel : Bool
  oil : Int
  deriving DecidableEq, Repr

/-- An empty mailbox reads as zero in every field, with status OK (R23). -/
def Mailbox.empty : Mailbox := ⟨0, .ok, 0, 0, 0, 0, 0, 0, false, 0⟩

/-- An assigned subscription entry (R23). `absence` is the absence watch of R29, `faultCause` the cause
of the fault condition of R35 while it holds, `frozen` that its timers stand stopped since the node left RUN (R39). -/
structure Stream where
  number : Nat
  role : Role
  source : Byte
  kind : BitVec 10
  period : Nat
  staleMult : Nat
  state : StreamState
  mailbox : Mailbox
  arrival : Ms
  lastSeq : Option (BitVec 4)
  recoveryStart : Ms
  absence : Option Ms
  faultCause : Option FaultCause
  frozen : Bool
  gaps : Nat
  duplicates : Nat
  staleEpisodes : Nat
  malformed : Nat
  deriving DecidableEq, Repr

/-- A reply of several frames in progress: whom it goes to and the entries or items still to come (R38, R152). -/
structure ListReply where
  destination : Byte
  todo : List Nat
  deriving DecidableEq, Repr

/-- A limit record (3.4). -/
structure LimitRecord where
  state : LimitState
  margin : Option Int
  deriving DecidableEq, Repr

/-- LIM's state (R41, R53, R61). -/
structure LimitUnit where
  set : LimitSet
  records : PerLimit LimitRecord
  statusTimer : Option Ms
  deriving DecidableEq, Repr

/-- RULE's state (R65, R70, R74, R75, R76). -/
structure RuleUnit where
  key : Option Key
  winner : Option Nat
  hits : List Nat
  profile : Nat
  reply : Option ListReply
  deriving DecidableEq, Repr

/-- A requester entry in use (R82). -/
structure HoldEntry where
  requester : Byte
  mask : Mask
  level : Nat
  remaining : Nat
  accept : Ms
  deriving DecidableEq, Repr

/-- The overflow entry in use (R82). -/
structure Overflow where
  mask : Mask
  level : Nat
  remaining : Nat
  deriving DecidableEq, Repr

/-- HOLD's table and timer (R82, R91). -/
structure HoldTable where
  entries : List HoldEntry
  overflow : Option Overflow
  quantumTimer : Option Ms
  deriving DecidableEq, Repr

/-- A channel record with its counter and pin (R98, R100, R103). `subCount` counts the microseconds of the
count in progress (log 25). -/
structure ChannelRecord where
  limit : Option Nat
  rule : Option Nat
  hold : Option Nat
  fail : Option Nat
  target : Nat
  targetDuty : Nat
  duty : Nat
  counter : Nat
  subCount : Nat
  state : ChannelState
  pin : Bool
  deriving DecidableEq, Repr

/-- The fuel mark: arrival time and fuel rate (R132). -/
structure FuelMark where
  time : Ms
  rate : Nat
  deriving DecidableEq, Repr

/-- ECO's state (R115, R118 to R135). -/
structure Eco where
  mode : WorkMode
  autoIdle : Bool
  delay : Nat
  state : EcoState
  running : Bool
  neutralSince : Option Ms
  grant : Grant
  speedCap : Option Nat
  pumpCap : Option Nat
  idleInhibit : Bool
  delayTimer : Option Ms
  delayStart : Ms
  recoveryTimer : Option Ms
  yieldTimer : Option Ms
  requestTimer : Option Ms
  secondTimer : Option Ms
  reportTimer : Option Ms
  target : Nat
  requested : Option Nat
  speedGov : Governor
  pumpLimit : Option Nat
  pumpGov : Governor
  fuelTotal : BitVec 32
  fuelRem : Nat
  gapRem : Nat
  cycleMark : BitVec 32
  fuelMark : Option FuelMark
  idleSeconds : BitVec 32
  workSeconds : BitVec 32
  deriving DecidableEq, Repr

/-- A service item: its definition from the image, its last-done value, state and re-remind time (R143). -/
structure ServiceItem where
  config : ItemConfig
  lastDone : Nat
  state : ItemState
  remind : Option Nat
  deriving DecidableEq, Repr

/-- A record write in flight: the block handed to the memory port and the end of its 50 ms (R149, R150). -/
structure RecordWrite where
  block : List Byte
  deadline : Ms
  deriving DecidableEq, Repr

/-- SVC's state (R137, R140, R143, R147, R150, R152). -/
structure Svc where
  engineSeconds : Nat
  weighted : Nat
  cycles : Nat
  unaccounted : Nat
  items : List ServiceItem
  derate : Bool
  detector : DetectorState
  psi0 : Option Int
  secondTimer : Option Ms
  summaryTimer : Option Ms
  write : Option RecordWrite
  again : Bool
  writeFails : Nat
  lastFailed : Bool
  reply : Option ListReply
  deriving DecidableEq, Repr

/-- A notice record (R156). Its place is the collection it stands in. -/
structure NoticeRecord where
  id : Nat
  severity : Severity
  route : Route
  detail : Detail
  raised : Ms
  escalated : Bool
  escalationStart : Option Ms
  sound : Option Pattern
  deriving DecidableEq, Repr

/-- NTC's state (R156 to R158, R166). The two unordered sets are kept in the order of their ids. -/
structure Ntc where
  pending : List NoticeRecord
  queue : List NoticeRecord
  locals : List NoticeRecord
  operatorInhibit : Bool
  busyInhibit : Bool
  settleTimer : Option Ms
  displayAvailable : Bool
  summaryTimer : Option Ms
  logCount : Nat
  ignoredAcks : Nat
  deriving DecidableEq, Repr

/-- A one-shot request: its class (2, 4 or 5), whether it is long, and for class 4 the notice id (R169). -/
structure OneShot where
  cls : Nat
  long : Bool
  id : Nat
  deriving DecidableEq, Repr

/-- A sustained pattern (R168); the approach cadence carries its period T. -/
inductive Sustained where
  | continuous | cadence500 | approach (t : Nat)
  deriving DecidableEq, Repr

/-- What the sounder plays: nothing, a one-shot until `till`, or a sustained request of a class with the
pattern of the cycle in progress, its phase, and the phase's end (none for CONTINUOUS). -/
inductive Playing where
  | nothing
  | oneShot (o : OneShot) (till : Ms)
  | sustained (cls : Nat) (p : Sustained) (on : Bool) (till : Option Ms)
  deriving DecidableEq, Repr

/-- SND's state (R169 to R172). -/
structure Snd where
  class1 : Bool
  class2 : Option Sustained
  class3 : Option Nat
  class4 : List (Nat × Sustained)
  playing : Playing
  waiting : Option OneShot
  silence : Option Ms
  dropped : Nat
  deriving DecidableEq, Repr

/-- A received frame in the receive queue (R174, R176). -/
structure RxFrame where
  kind : BitVec 10
  destination : Byte
  source : Byte
  data : List Byte
  deriving DecidableEq, Repr

/-- A frame in a transmit class (R179). `reply` marks a frame of a reply in progress. -/
structure TxFrame where
  kind : TxKind
  destination : Byte
  data : List Byte
  queued : Ms
  current : Bool
  reply : Option ReplyOwner
  deriving DecidableEq, Repr

/-- LINK's state (R175 to R185). -/
structure LinkUnit where
  address : Byte
  bitRate : Option BitRate
  rx : List RxFrame
  itemsTaken : Nat
  urgent : List TxFrame
  normal : List TxFrame
  background : List TxFrame
  onWire : Bool
  beside : Option TxFrame
  state : LinkState
  failures : Nat
  silentHold : Option Ms
  probe : Bool
  thinning : Bool
  clashMark : Option (BitVec 10 × Byte)
  overruns : Nat
  malformed : Nat
  clashes : Nat
  ageDiscards : Nat
  overflows : Nat
  thinned : Nat
  failedAttempts : Nat
  deriving DecidableEq, Repr

/-- The whole machine: the twelve blocks, the time base, and the queue of commands that wait. `micros` and
`freeCount` are the model's own (logs 25 and 6). -/
structure State where
  pending : List Instr
  freeCount : Nat
  now : Ms
  micros : Nat
  cfg : Cfg
  image : Option Image
  pose : PoseUnit
  streams : List Stream
  stmReply : Option ListReply
  lim : LimitUnit
  rule : RuleUnit
  hold : HoldTable
  vch : PerChannel ChannelRecord
  eco : Eco
  svc : Svc
  ntc : Ntc
  snd : Snd
  link : LinkUnit
  deriving DecidableEq, Repr

/-- The pose record at power-on (R10). -/
def PoseRecord.reset : PoseRecord := ⟨0, 0, 0, 0, 0, 0, 0, .invalid, 0, 0, false⟩

/-- A channel record at power-on, in a channel whose state is `st` (R98). -/
def ChannelRecord.reset (st : ChannelState) : ChannelRecord :=
  ⟨none, none, none, none, 0, 0, 0, 0, 0, st, false⟩

/-- The empty limit set (R41). -/
def LimitSet.empty : LimitSet := ⟨none, none, none, none, none⟩

/-- ECO at power-on (R128, R136). Before the record is read the settings (R115), the fuel total, the fuel remainder (R132) and the
per-cycle mark (R134) have no value in the spec: HEAVY, off, 4 s and the zeros here are the model's choice (log 13). -/
def Eco.reset : Eco where
  mode := .heavy
  autoIdle := false
  delay := 4
  state := .off
  running := false
  neutralSince := none
  grant := .none
  speedCap := none
  pumpCap := none
  idleInhibit := false
  delayTimer := none
  delayStart := 0
  recoveryTimer := none
  yieldTimer := none
  requestTimer := none
  secondTimer := none
  reportTimer := none
  target := 0
  requested := none
  speedGov := .mode
  pumpLimit := none
  pumpGov := .mode
  fuelTotal := 0
  fuelRem := 0
  gapRem := 0
  cycleMark := 0
  fuelMark := none
  idleSeconds := 0
  workSeconds := 0

/-- SVC at power-on (R137, R150, R154). -/
def Svc.reset : Svc where
  engineSeconds := 0
  weighted := 0
  cycles := 0
  unaccounted := 0
  items := []
  derate := false
  detector := .ready
  psi0 := none
  secondTimer := none
  summaryTimer := none
  write := none
  again := false
  writeFails := 0
  lastFailed := false
  reply := none

/-- NTC at power-on (R156, R157, R166, R167). -/
def Ntc.reset : Ntc := ⟨[], [], [], false, false, none, false, none, 0, 0⟩

/-- SND at power-on (R173). -/
def Snd.reset : Snd := ⟨false, none, none, [], .nothing, none, none, 0⟩

/-- LINK at power-on, off the bus (R185; its address before an image is read: log 13). -/
def LinkUnit.reset : LinkUnit where
  address := 0xFD
  bitRate := none
  rx := []
  itemsTaken := 0
  urgent := []
  normal := []
  background := []
  onWire := false
  beside := none
  state := .active
  failures := 0
  silentHold := none
  probe := false
  thinning := false
  clashMark := none
  overruns := 0
  malformed := 0
  clashes := 0
  ageDiscards := 0
  overflows := 0
  thinned := 0
  failedAttempts := 0

/-- The machine right after reset: START_READ with every block at its power-on values (R187). The KEY pin is
taken as low and the debounced key as off (log 12). -/
def State.reset : State where
  pending := []
  freeCount := 0
  now := 0
  micros := 0
  cfg := ⟨.startRead, none, false, false, none, none, none, none⟩
  image := none
  pose := ⟨PoseRecord.reset, none⟩
  streams := []
  stmReply := none
  lim := ⟨LimitSet.empty, PerLimit.tabulate fun _ => ⟨.off, none⟩, none⟩
  rule := ⟨none, none, List.replicate 33 0, 0, none⟩
  hold := ⟨[], none, none⟩
  vch := PerChannel.tabulate fun _ => ChannelRecord.reset .unused
  eco := Eco.reset
  svc := Svc.reset
  ntc := Ntc.reset
  snd := Snd.reset
  link := LinkUnit.reset

end Sys2Proof.Machine
end

