-- ==== Sys2Proof/Machine/Ops.lean ====
section
/-! DEFINITION. Operations shared by the blocks: bytes and saturation, the time base and its timers, the
updates of one block of State, the image as the blocks read it, and the order of events that the spec
leaves free. -/

namespace Sys2Proof.Machine

/-! ## Numbers and bytes -/

/-- A counter that saturates at `limit` (00_scope 0.7). -/
def satAdd (limit n k : Nat) : Nat := min limit (n + k)

/-- A 16-bit saturating counter advanced by 1. -/
def sat16 (n : Nat) : Nat := satAdd 65535 n 1

/-- A value brought to the nearer end of a range. -/
def clampInt (lo hi v : Int) : Int := if v < lo then lo else if hi < v then hi else v

/-- One byte of a number. -/
def byteOf (v : Int) : Byte := BitVec.ofInt 8 v

/-- A two-byte field, high byte first, two's complement for a signed value (R186). -/
def be2 (v : Int) : List Byte :=
  let w := BitVec.ofInt 16 v
  [(w >>> 8).setWidth 8, w.setWidth 8]

/-- A four-byte field, high byte first (R186). -/
def be4 (v : Int) : List Byte :=
  let w := BitVec.ofInt 32 v
  [(w >>> 24).setWidth 8, (w >>> 16).setWidth 8, (w >>> 8).setWidth 8, w.setWidth 8]

/-- A six-byte field, high byte first. -/
def be6 (w : BitVec 48) : List Byte :=
  [(w >>> 40).setWidth 8, (w >>> 32).setWidth 8, (w >>> 24).setWidth 8,
    (w >>> 16).setWidth 8, (w >>> 8).setWidth 8, w.setWidth 8]

/-- The byte at a place of a data field; 0 beyond its end. -/
def byteAt (data : List Byte) (n : Nat) : Byte := data.getD n 0

/-- The unsigned two-byte field at a place (R186). -/
def u16At (data : List Byte) (n : Nat) : Nat := (byteAt data n).toNat * 256 + (byteAt data (n + 1)).toNat

/-- The signed two-byte field at a place (R186). -/
def s16At (data : List Byte) (n : Nat) : Int := (BitVec.ofNat 16 (u16At data n)).toInt

/-- The unsigned four-byte field at a place (11.3). -/
def u32At (data : List Byte) (n : Nat) : Nat := u16At data n * 65536 + u16At data (n + 2)

/-- 1 for a true condition, 0 otherwise. -/
def bit (b : Bool) : Nat := if b then 1 else 0

/-- A value of −32768..32767 saturated to a range (R60, R153). -/
def saturate (lo hi v : Int) : Int := clampInt lo hi v

/-- A signed difference of two angles: modulo 65536, read as −32768..32767 (00_scope 0.7). -/
def wrapAngle (v : Int) : Int :=
  let w := v % 65536
  if 32768 ≤ w then w - 65536 else w

/-! ## Time -/

/-- The time base value less an earlier one, modulo 2^32. -/
def elapsed (now earlier : Ms) : Nat := (now - earlier).toNat

/-- The time base value `n` ms after `t`. -/
def after (t : Ms) (n : Nat) : Ms := t + BitVec.ofNat 32 n

/-- The time base has reached `d`. -/
def reached (now d : Ms) : Bool := elapsed now d < 2147483648

/-- The instant at which a timer expires: the time base stands at least at the timer's end (log 2). -/
def State.arriveAt (s : State) (d : Ms) : State :=
  if reached s.now d then s else { s with now := d, micros := 0 }

/-! ## Updates of one block -/

def State.onCfg (s : State) (f : Cfg → Cfg) : State := { s with cfg := f s.cfg }
def State.onPose (s : State) (f : PoseUnit → PoseUnit) : State := { s with pose := f s.pose }
def State.onStreams (s : State) (f : List Stream → List Stream) : State := { s with streams := f s.streams }
def State.onLim (s : State) (f : LimitUnit → LimitUnit) : State := { s with lim := f s.lim }
def State.onRule (s : State) (f : RuleUnit → RuleUnit) : State := { s with rule := f s.rule }
def State.onHold (s : State) (f : HoldTable → HoldTable) : State := { s with hold := f s.hold }
def State.onVch (s : State) (f : PerChannel ChannelRecord → PerChannel ChannelRecord) : State :=
  { s with vch := f s.vch }
def State.onEco (s : State) (f : Eco → Eco) : State := { s with eco := f s.eco }
def State.onSvc (s : State) (f : Svc → Svc) : State := { s with svc := f s.svc }
def State.onNtc (s : State) (f : Ntc → Ntc) : State := { s with ntc := f s.ntc }
def State.onSnd (s : State) (f : Snd → Snd) : State := { s with snd := f s.snd }
def State.onLink (s : State) (f : LinkUnit → LinkUnit) : State := { s with link := f s.link }

/-- The node is in RUN. -/
def State.inRun (s : State) : Bool := s.cfg.node == .run

/-! ## The image as the blocks read it -/

/-- A band as a blank image has it. -/
def Band.blank : Band := ⟨0, 0⟩

/-- Action fields, all absent (R69). -/
def RuleActions.none : RuleActions := ⟨PerChannel.tabulate fun _ => .none, .none, .none, false, .none, false⟩

/-- What a read of a parameter gives while no image is held; no command that reads a parameter acts then. -/
def Image.blank : Image where
  nodeAddress := 0xFD
  bitRate := some .kbit250
  geometry := ⟨0, 0, 0, 0, 0, 0, 0, 0, 0⟩
  subscriptions := []
  limits := ⟨Band.blank, Band.blank, Band.blank, Band.blank, PerLimit.tabulate fun _ => 0, 0, 0⟩
  holds := ⟨0, 0⟩
  channels := PerChannel.tabulate fun _ => ⟨false, 0, 0, 0, 0⟩
  zones := ⟨[], [], []⟩
  rules := []
  defaultRule := RuleActions.none
  economy := ⟨0, PerMode.tabulate fun _ => 0, PerMode.tabulate fun _ => 0, 0, 0, 0, 0, 0, 0⟩
  service := ⟨0, 0, 0, [], 0⟩
  notices := ⟨[], [], false, 0⟩
  defaults := ⟨LimitSet.empty, 0, 0, 0, 0⟩

/-- The image's values as the blocks hold them. -/
def State.img (s : State) : Image := s.image.getD Image.blank

/-! ## Orders that the spec leaves free -/

/-- A free choice of one of `n` things (log 6). No free value is used where there is one thing only. -/
def State.pick (s : State) (n : Nat) : Nat × State :=
  if n ≤ 1 then (0, s) else (Config.freeOrder s.freeCount % n, { s with freeCount := s.freeCount + 1 })

/-- Run threads of events in a free order: each thread's events in their own order, the threads in any
interleaving. `fuel` is the number of events (log 6). -/
def interleave : Nat → List (List (State → State)) → State → State
  | 0, _, s => s
  | fuel + 1, threads, s =>
    let live := threads.filter fun t => !t.isEmpty
    let choice := s.pick live.length
    match live[choice.1]? with
    | some (event :: rest) => interleave fuel (live.set choice.1 rest) (event choice.2)
    | _ => s

/-- Run threads of events in a free order (log 6). -/
def anyOrder (threads : List (List (State → State))) (s : State) : State :=
  interleave (threads.map List.length).sum threads s

end Sys2Proof.Machine
end

