-- ==== Sys2Proof/Machine/Sounder.lean ====
section
/-! DEFINITION. SND, the sounder: request slots, arbitration, one-shots and silence (9.9 to 9.11). -/

namespace Sys2Proof.Machine

/-! ## What is live -/

/-- Class 3, 4 and 5 are muted while the silence timer runs (R172). -/
def sndMuted (d : Snd) (cls : Nat) : Bool := d.silence.isSome && 3 ≤ cls

/-- The one sustained request of class 4: CONTINUOUS when any id asks for it, else CADENCE_500 (R169). -/
def sndClass4 (d : Snd) : Option Sustained :=
  if d.class4.isEmpty then none
  else if d.class4.any (fun e => e.2 == .continuous) then some .continuous
  else some .cadence500

/-- The live sustained requests that take part in the arbitration, in rank order (R170, R172). -/
def sndLive (d : Snd) : List (Nat × Sustained) :=
  (if d.class1 then [(1, Sustained.continuous)] else [])
    ++ (d.class2.map fun p => (2, p)).toList
    ++ (if sndMuted d 3 then [] else (d.class3.map fun t => (3, Sustained.approach t)).toList)
    ++ (if sndMuted d 4 then [] else ((sndClass4 d).map fun p => (4, p)).toList)

/-- A live sustained request outranks a one-shot of class `cls` (R170). -/
def sndOutranked (d : Snd) (cls : Nat) : Bool := (sndLive d).any fun r => r.1 < cls

/-- The tone of a class in Hz (R168). -/
def classTone : Nat → Nat
  | 1 => 2400
  | 2 => 2000
  | 3 => 1600
  | _ => 1200

/-- The tone on the SNDR pin, none while the pin is low (R168). -/
def sndTone (d : Snd) : Option Nat :=
  match d.playing with
  | .nothing => none
  | .oneShot o _ => some (classTone o.cls)
  | .sustained cls _ on _ => if on then some (classTone cls) else none

/-! ## Playing -/

/-- The length of a phase of a sustained pattern; none for CONTINUOUS (R168). -/
def phaseLength (p : Sustained) (on : Bool) : Option Nat :=
  match p with
  | .continuous => none
  | .cadence500 => some 250
  | .approach t => some (if on then t / 2 else t - t / 2)

/-- A sustained request starts to play, beginning with its on-phase (R168). -/
def sndStart (now : Ms) (r : Nat × Sustained) (d : Snd) : Snd :=
  { d with playing := .sustained r.1 r.2 true ((phaseLength r.2 true).map (after now)) }

/-- The highest-ranked live sustained request plays, or the pin stays low (R170). -/
def sndPlayTop (now : Ms) (d : Snd) : Snd :=
  match (sndLive d).head? with
  | some r => sndStart now r d
  | none => { d with playing := .nothing }

/-- A one-shot plays: 80 ms short, 300 ms long (R168). -/
def sndPlayOneShot (now : Ms) (o : OneShot) (d : Snd) : Snd :=
  { d with playing := .oneShot o (after now (if o.long then 300 else 80)) }

/-- A drop is counted (R171). -/
def sndDrop (d : Snd) : Snd := { d with dropped := sat16 d.dropped }

/-- What played has ended: the waiting one-shot has its turn, and otherwise the highest-ranked live
sustained request plays (R170, R171). -/
def sndTurn (now : Ms) (d : Snd) : Snd :=
  match d.waiting with
  | none => sndPlayTop now d
  | some o =>
    let d := { d with waiting := none }
    if sndOutranked d o.cls then sndPlayTop now (sndDrop d) else sndPlayOneShot now o d

/-- Two requests of one class whose change does not restart the pattern: a new approach period takes
effect at the next on-phase (R168). -/
def samePattern : Sustained → Sustained → Bool
  | .continuous, .continuous => true
  | .cadence500, .cadence500 => true
  | .approach _, .approach _ => true
  | _, _ => false

/-- Arbitration after a change of the sustained requests (R170). -/
def sndSettle (now : Ms) (d : Snd) : Snd :=
  match d.playing with
  | .nothing => sndTurn now d
  | .oneShot o _ => if sndOutranked d o.cls then sndTurn now { d with playing := .nothing } else d
  | .sustained cls p _ _ =>
    match (sndLive d).head? with
    | none => sndTurn now { d with playing := .nothing }
    | some r =>
      if r.1 = cls ∧ samePattern p r.2 then d
      else if r.1 ≤ cls then sndStart now r d
      else sndTurn now { d with playing := .nothing }

/-! ## Requests -/

/-- LIM places or withdraws the class 1 request (R58). -/
def sndClass1 (now : Ms) (on : Bool) (d : Snd) : Snd := sndSettle now { d with class1 := on }

/-- LIM places, re-times or withdraws the class 3 request (R59). -/
def sndClass3 (now : Ms) (t : Option Nat) (d : Snd) : Snd := sndSettle now { d with class3 := t }

/-- A one-shot is placed (R171); a muted one is dropped and counted (R172). -/
def sndPlaceOneShot (now : Ms) (o : OneShot) (d : Snd) : Snd :=
  if sndMuted d o.cls || sndOutranked d o.cls then sndDrop d
  else
    match d.playing, d.waiting with
    | .oneShot _ _, none => { d with waiting := some o }
    | .oneShot _ _, some _ => sndDrop d
    | _, _ => sndPlayOneShot now o d

/-- What plays is of class 2. -/
def playsClass2 : Playing → Bool
  | .nothing => false
  | .oneShot o _ => o.cls == 2
  | .sustained cls _ _ _ => cls == 2

/-- RULE replaces its class 2 request; withdrawal and placing act as one (R72, R169; log 19). -/
def sndClass2 (now : Ms) (p : Option Pattern) (d : Snd) : Snd :=
  let d := { d with
    class2 := none
    waiting := d.waiting.filter fun o => o.cls != 2
    playing := if playsClass2 d.playing then .nothing else d.playing }
  match p with
  | none => sndSettle now d
  | some .oneShotShort => sndSettle now (sndPlaceOneShot now ⟨2, false, 0⟩ d)
  | some .oneShotLong => sndSettle now (sndPlaceOneShot now ⟨2, true, 0⟩ d)
  | some .cadence500 => sndSettle now { d with class2 := some .cadence500 }
  | some .continuous => sndSettle now { d with class2 := some .continuous }

/-- HOLD places its chirp (R93). -/
def sndChirp (now : Ms) (d : Snd) : Snd := sndPlaceOneShot now ⟨5, false, 0⟩ d

/-- The class 4 set with one id's request, in the order of the ids (R169). -/
def class4Insert (id : Nat) (p : Sustained) : List (Nat × Sustained) → List (Nat × Sustained)
  | [] => [(id, p)]
  | e :: es => if e.1 < id then e :: class4Insert id p es
    else if e.1 = id then (id, p) :: es else (id, p) :: e :: es

/-- A one-shot is that of a notice. -/
def ofNotice (id : Nat) (o : OneShot) : Bool := o.cls == 4 && o.id == id

/-- NTC places the sound of a notice (R169). -/
def sndNotice (now : Ms) (id : Nat) (p : Pattern) (d : Snd) : Snd :=
  match p with
  | .oneShotShort => sndPlaceOneShot now ⟨4, false, id⟩ d
  | .oneShotLong => sndPlaceOneShot now ⟨4, true, id⟩ d
  | .cadence500 => sndSettle now { d with class4 := class4Insert id .cadence500 d.class4 }
  | .continuous => sndSettle now { d with class4 := class4Insert id .continuous d.class4 }

/-- NTC withdraws the sound of a notice, if it is still live (R169). -/
def sndNoticeWithdraw (now : Ms) (id : Nat) (d : Snd) : Snd :=
  let d := { d with
    class4 := d.class4.filter fun e => e.1 != id
    waiting := d.waiting.filter fun o => !ofNotice id o }
  match d.playing with
  | .oneShot o _ => if ofNotice id o then sndTurn now { d with playing := .nothing } else sndSettle now d
  | _ => sndSettle now d

/-- A playing one-shot reaches the end of its on-time (R171). -/
def sndOneShotEnd (now : Ms) (d : Snd) : Snd :=
  match d.playing with
  | .oneShot _ _ => sndTurn now { d with playing := .nothing }
  | _ => d

/-- A phase of the playing pattern ends; an approach cadence takes the newest period at the start of an
on-phase (R168). -/
def sndPhase (now : Ms) (d : Snd) : Snd :=
  match d.playing with
  | .sustained cls p on (some _) =>
    if on then { d with playing := .sustained cls p false ((phaseLength p false).map (after now)) }
    else
      let p' := match p, d.class3 with
        | .approach _, some t => .approach t
        | _, _ => p
      sndStart now (cls, p') d
  | _ => d

/-- SILENCE: the timer starts or restarts for 30 s and classes 3, 4 and 5 are muted (R172). -/
def sndSilence (now : Ms) (d : Snd) : Snd :=
  let d := { d with silence := some (after now 30000) }
  let d := match d.waiting with
    | some o => if 3 ≤ o.cls then sndDrop { d with waiting := none } else d
    | none => d
  match d.playing with
  | .oneShot o _ => if 3 ≤ o.cls then sndTurn now { d with playing := .nothing } else d
  | _ => sndSettle now d

/-- The silence ends (R172). -/
def sndSilenceEnd (now : Ms) (d : Snd) : Snd := sndSettle now { d with silence := none }

/-- On leaving RUN every slot is emptied and the dropped count is kept (R173). -/
def sndClear (d : Snd) : Snd := { Snd.reset with dropped := d.dropped }

/-- A request handed to SND in RUN; outside RUN it is discarded (R169, R173). -/
def State.sound (s : State) (f : Ms → Snd → Snd) : State :=
  if s.inRun then s.onSnd (f s.now) else s

end Sys2Proof.Machine
end

