-- ==== Sys2Proof/Machine/Link.lean ====
section
/-! DEFINITION. LINK, transmit side: classes, offers, replacement, overflow, thinning, withdrawal, the
transmitter's current frame and link health (10.3 to 10.6). The commands that use it stand in Bus.lean. -/

namespace Sys2Proof.Machine

/-! ## Identifiers and classes -/

/-- Kind numbers of the kinds the part sends (10.7). -/
def kindNumber : TxKind → BitVec 10
  | .pose => 0x200 | .guidance => 0x201 | .limitStatus => 0x202 | .speedRequest => 0x210
  | .pumpLimit => 0x211 | .settingResponse => 0x230 | .holdResponse => 0x240 | .notice => 0x250
  | .noticeCleared => 0x251 | .noticeSummary => 0x252 | .economyReport => 0x260
  | .cycleReport => 0x261 | .serviceSummary => 0x270 | .statsReply => 0x271 | .nodeStatus => 0x2F0

/-- The priority of a transmit class (R174). -/
def classPriority : TxClass → BitVec 3
  | .urgent => 1 | .normal => 3 | .background => 6

/-- The 29-bit identifier of a frame that the part sends (R174). -/
def identifier (address : Byte) (cls : TxClass) (f : TxFrame) : BitVec 29 :=
  ((classPriority cls).setWidth 29 <<< 26) ||| ((kindNumber f.kind).setWidth 29 <<< 16)
    ||| (f.destination.setWidth 29 <<< 8) ||| address.setWidth 29

/-- A frame goes in the classic format when its data field is 8 bytes or fewer (R174). -/
def classicFormat (f : TxFrame) : Bool := f.data.length ≤ 8

/-- Capacity of a class (R178). -/
def capacity : TxClass → Nat
  | .urgent => 4 | .normal => 8 | .background => 8

/-- Age limit of a class in ms (R178). -/
def ageLimit : TxClass → Nat
  | .urgent => 50 | .normal => 200 | .background => 2000

/-- The periodic kinds; a LIMIT STATUS of class URGENT is not periodic (R178). -/
def periodic (cls : TxClass) : TxKind → Bool
  | .pose | .guidance | .speedRequest | .pumpLimit | .noticeSummary | .economyReport
  | .cycleReport | .serviceSummary | .nodeStatus => true
  | .limitStatus => cls == .normal
  | .settingResponse | .holdResponse | .notice | .noticeCleared | .statsReply => false

/-- The frames of a class. -/
def classOf (l : LinkUnit) : TxClass → List TxFrame
  | .urgent => l.urgent | .normal => l.normal | .background => l.background

/-- A class with other frames; thinning follows the number of frames that NORMAL holds (R181). -/
def setClass (l : LinkUnit) (cls : TxClass) (fs : List TxFrame) : LinkUnit :=
  match cls with
  | .urgent => { l with urgent := fs }
  | .background => { l with background := fs }
  | .normal => { l with
      normal := fs
      thinning := if 6 ≤ fs.length then true else if fs.length ≤ 3 then false else l.thinning }

/-! ## Offers -/

/-- The node state takes offers of the kind (R185). -/
def takesOffer (node : NodeState) (k : TxKind) : Bool :=
  match node with
  | .join | .run | .store => true
  | .configFault | .quiet => k == .nodeStatus
  | .startRead | .recordRead => false

/-- The first frame in a list with no attempt on the wire leaves it (R180). The last frame leaves where all
before it have an attempt on the wire, which no reachable list shows. -/
def dropFirst (onWire : Bool) : List TxFrame → Option TxFrame × List TxFrame
  | [] => (none, [])
  | [f] => (some f, [])
  | f :: fs =>
    if f.current && onWire then
      let r := dropFirst onWire fs
      (r.1, f :: r.2)
    else (some f, fs)

/-- Replace the data and queue time of the unsent frame of a kind, in place (R179). -/
def replaceKind (f : TxFrame) : List TxFrame → List TxFrame
  | [] => []
  | g :: gs => if g.kind = f.kind then { f with current := g.current } :: gs else g :: replaceKind f gs

/-- A frame joins the end of its class; a full class first makes room (R179, R180). The second component
is the block that a discarded frame of a reply is reported to. -/
def joinClass (cls : TxClass) (f : TxFrame) (l : LinkUnit) : LinkUnit × Option ReplyOwner :=
  let fs := classOf l cls
  if fs.length < capacity cls then (setClass l cls (fs ++ [f]), none)
  else
    let r := dropFirst l.onWire fs
    let l := setClass { l with overflows := sat16 l.overflows } cls r.2
    (setClass l cls (r.2 ++ [f]), r.1.bind (·.reply))

/-- POSE and GUIDANCE of an odd pose sequence, byte 0 of both (R181, R186). -/
def oddSequence (f : TxFrame) : Bool :=
  (f.kind == .pose || f.kind == .guidance) && (byteAt f.data 0).toNat % 2 == 1

/-- LINK takes an offered frame: thinned, replaced in place, held beside an attempt, or joined
(R179, R181). -/
def offerFrame (node : NodeState) (cls : TxClass) (f : TxFrame) (l : LinkUnit) :
    LinkUnit × Option ReplyOwner :=
  if !takesOffer node f.kind then (l, none)
  else if l.thinning && oddSequence f then ({ l with thinned := sat16 l.thinned }, none)
  else if periodic cls f.kind then
    match (classOf l cls).find? (fun g => g.kind == f.kind) with
    | some g =>
      if g.current && l.onWire then ({ l with beside := some f }, none)
      else (setClass l cls (replaceKind f (classOf l cls)), none)
    | none => joinClass cls f l
  else joinClass cls f l

/-- A frame as its block hands it to LINK. -/
def State.frame (s : State) (k : TxKind) (destination : Byte) (data : List Byte) : TxFrame :=
  ⟨k, destination, data, s.now, false, none⟩

/-- Offer a frame of class URGENT or NORMAL. These classes hold no frame of a reply, so no discard in them is
reported to a block that acts on it (R180). -/
def State.offer (s : State) (cls : TxClass) (k : TxKind) (destination : Byte) (data : List Byte) : State :=
  s.onLink fun l => (offerFrame s.cfg.node cls (s.frame k destination data) l).1

/-! ## Withdrawal -/

/-- Withdraw a block's unsent frames of one kind, without report; an attempt of one is abandoned, and in
SILENT the same probe is still to be made (R180, R184). -/
def withdrawKind (k : TxKind) (l : LinkUnit) : LinkUnit :=
  let hit := l.onWire && (l.urgent ++ l.normal ++ l.background).any (fun f => f.current && f.kind == k)
  let l := { l with
    onWire := l.onWire && !hit
    beside := l.beside.filter fun f => f.kind != k
    probe := l.probe || (hit && l.state == .silent) }
  let l := setClass l .urgent (l.urgent.filter fun f => f.kind != k)
  let l := setClass l .normal (l.normal.filter fun f => f.kind != k)
  setClass l .background (l.background.filter fun f => f.kind != k)

/-! ## The transmitter -/

/-- The current frame and its class (R182). -/
def currentFrame (l : LinkUnit) : Option (TxClass × TxFrame) :=
  match l.urgent.find? (·.current), l.normal.find? (·.current), l.background.find? (·.current) with
  | some f, _, _ => some (.urgent, f)
  | none, some f, _ => some (.normal, f)
  | none, none, some f => some (.background, f)
  | none, none, none => none

/-- The first current frame of a list gives its place to `r`, or leaves the list. -/
def settleCurrent (r : Option TxFrame) : List TxFrame → List TxFrame
  | [] => []
  | f :: fs => if f.current then r.toList ++ fs else f :: settleCurrent r fs

/-- Attempts are made in the node state (R185). -/
def attemptsIn : NodeState → Bool
  | .configFault | .run | .store | .quiet => true
  | .startRead | .recordRead | .join => false

/-- A class is selectable: BACKGROUND is not, in RUN, while the link state is SUSPECT or SILENT (R182). -/
def selectable (node : NodeState) (l : LinkUnit) : TxClass → Bool
  | .urgent => !l.urgent.isEmpty
  | .normal => !l.normal.isEmpty
  | .background => !l.background.isEmpty && !(node == .run && l.state != .active)

/-- Some frame is selectable. -/
def anySelectable (node : NodeState) (l : LinkUnit) : Bool :=
  selectable node l .urgent || selectable node l .normal || selectable node l .background

/-- A frame is past its class's age limit (R182). -/
def tooOld (now : Ms) (cls : TxClass) (f : TxFrame) : Bool := ageLimit cls < elapsed now f.queued

/-- Discard the aged frames of a class, the current frame excepted; with the blocks to report to (R182). -/
def ageClass (now : Ms) (cls : TxClass) (l : LinkUnit) : LinkUnit × List ReplyOwner :=
  let fs := classOf l cls
  let old := fs.filter fun f => !f.current && tooOld now cls f
  let l := { l with ageDiscards := satAdd 65535 l.ageDiscards old.length }
  (setClass l cls (fs.filter fun f => f.current || !tooOld now cls f), old.filterMap (·.reply))

/-- Discard the aged frames of every class (R182 step 1). The blocks to report to stand in the order of the classes' ranks, and in
each of the list, the model's choice (log 57). -/
def ageAll (now : Ms) (l : LinkUnit) : LinkUnit × List ReplyOwner :=
  let a := ageClass now .urgent l
  let b := ageClass now .normal a.1
  let c := ageClass now .background b.1
  (c.1, a.2 ++ b.2 ++ c.2)

/-- The head of a list becomes the current frame. -/
def markHead : List TxFrame → List TxFrame
  | [] => []
  | f :: fs => { f with current := true } :: fs

/-- The first frame of the highest-ranked selectable class becomes current (R182 step 2). -/
def chooseFrame (node : NodeState) (l : LinkUnit) : LinkUnit :=
  if selectable node l .urgent then setClass l .urgent (markHead l.urgent)
  else if selectable node l .normal then setClass l .normal (markHead l.normal)
  else if selectable node l .background then setClass l .background (markHead l.background)
  else l

/-- An attempt of the current frame starts, if there is one; it is the probe where one is due (R182, R184). -/
def startAttempt (l : LinkUnit) : LinkUnit :=
  if (currentFrame l).isSome then { l with onWire := true, probe := false } else l

/-- The current frame, past its age limit after a lost arbitration, a failure or a silent hold, is discarded
(R182, R184); with the block to report to. -/
def ageCurrent (now : Ms) (l : LinkUnit) : LinkUnit × Option ReplyOwner :=
  match currentFrame l with
  | some (cls, f) =>
    if tooOld now cls f then
      (setClass { l with ageDiscards := sat16 l.ageDiscards } cls (settleCurrent none (classOf l cls)), f.reply)
    else (l, none)
  | none => (l, none)

/-- The attempt has ended without success: a held frame becomes the current frame in place of the old (R179), before the age of
the current frame is judged, the model's choice (log 59). -/
def attemptOver (l : LinkUnit) : LinkUnit :=
  let l' := { l with onWire := false, beside := none }
  match l.beside, currentFrame l with
  | some b, some (cls, _) => setClass l' cls (settleCurrent (some { b with current := true }) (classOf l cls))
  | _, _ => l'

/-- The attempt has succeeded: the frame leaves its class, a held frame takes its position, the count and
the state are reset (R179, R182, R183); with the block to report to. Where a held frame takes the position the number of frames
has not changed, so thinning stays, the model's choice (R181; log 58). -/
def attemptSucceeded (l : LinkUnit) : LinkUnit × Option ReplyOwner :=
  let l' := { l with onWire := false, beside := none, failures := 0, state := .active, silentHold := none, probe := false }
  match currentFrame l with
  | some (cls, f) =>
    (setClass l' cls (settleCurrent (l.beside.map fun b => { b with current := false }) (classOf l cls)), f.reply)
  | none => (l', none)

/-- A failed attempt is counted and the link state follows the count (R183, R184). -/
def countFailure (now : Ms) (l : LinkUnit) : LinkUnit :=
  let l := { l with failures := sat16 l.failures, failedAttempts := sat16 l.failedAttempts }
  if l.state == .silent || 64 ≤ l.failures then
    { l with state := .silent, silentHold := some (after now 1000), probe := false }
  else if 16 ≤ l.failures then { l with state := .suspect }
  else l

/-- All three classes are emptied and an attempt on the wire is abandoned (R185); an abandoned probe is still
to be made (R184). -/
def emptyClasses (l : LinkUnit) : LinkUnit :=
  { setClass l .normal [] with
    urgent := [], background := [], onWire := false, beside := none
    probe := l.probe || (l.onWire && l.state == .silent) }

end Sys2Proof.Machine
end

