-- ==== Sys2Proof/Machine/Operands.lean ====
section
/-! DEFINITION. What a command reads as its operands: the head of the receive queue and the next item of an
OPERATOR SETTING frame, payloads of the subscribed roles, and the responses that answer them (10.2, 10.7). -/

namespace Sys2Proof.Machine

/-! ## Ownership of received frames -/

/-- A received frame of the bus as the receive queue holds it (R174). -/
def rxOfBus (f : BusFrame) : RxFrame :=
  ⟨(f.ident >>> 16).setWidth 10, (f.ident >>> 8).setWidth 8, f.ident.setWidth 8, f.data⟩

/-- The entry whose source and kind both equal the frame's (R25). -/
def matchingEntry (streams : List Stream) (f : RxFrame) : Option Stream :=
  streams.find? fun e => e.source == f.source && e.kind == f.kind

/-- Who takes a frame from the receive queue (R177). -/
inductive RxOwner where
  | stm | setting | hold | streamStats | ruleStats | ruleStatsClear | itemTable
  /-- LINK itself: no block owns the kind, or the request code names no request. -/
  | nobody
  /-- LINK itself: a frame of a kind that LINK hands on directly, shorter than its layout. -/
  | tooShort
  deriving DecidableEq, Repr

/-- The owner of a SERVICE QUERY by its request code (10.7). -/
def queryOwner (f : RxFrame) : RxOwner :=
  match (byteAt f.data 0).toNat with
  | 1 => .streamStats
  | 2 => .ruleStats
  | 3 => .ruleStatsClear
  | 4 => .itemTable
  | _ => .nobody

/-- The owner of an arrived frame (R25, R177). The least layout of an OPERATOR SETTING is that of one item,
four bytes (log 5). -/
def rxOwner (streams : List Stream) (f : RxFrame) : RxOwner :=
  if (matchingEntry streams f).isSome then .stm
  else if f.kind = 0x130 then (if f.data.length < 4 then .tooShort else .setting)
  else if f.kind = 0x140 then (if f.data.length < 6 then .tooShort else .hold)
  else if f.kind = 0x150 then (if f.data.length < 1 then .tooShort else queryOwner f)
  else if streams.any (fun e => e.kind == f.kind) then .stm
  else .nobody

/-- The items that an OPERATOR SETTING frame holds: as many as the count, four, and the length allow (R177). -/
def itemCount (f : RxFrame) : Nat := min (min (byteAt f.data 0).toNat 4) ((f.data.length - 1) / 3)

/-- LINK's own handling of the frames at the head: those that no block takes leave the queue, too short ones
counted; an OPERATOR SETTING frame leaves when its items are taken. The results are the queue, the items
taken of its head and the number of malformed frames (R176, R177; log 4). -/
def settleRx (streams : List Stream) : List RxFrame → Nat → List RxFrame × Nat × Nat
  | [], _ => ([], 0, 0)
  | f :: fs, taken =>
    match rxOwner streams f with
    | .nobody => settleRx streams fs 0
    | .tooShort =>
      let r := settleRx streams fs 0
      (r.1, r.2.1, r.2.2 + 1)
    | .setting => if taken < itemCount f then (f :: fs, taken, 0) else settleRx streams fs 0
    | _ => (f :: fs, 0, 0)

/-- The receive queue after LINK's own handling of its head (R176, R177). -/
def State.settled (s : State) : State :=
  let r := settleRx s.streams s.link.rx s.link.itemsTaken
  s.onLink fun l => { l with rx := r.1, itemsTaken := r.2.1, malformed := satAdd 65535 l.malformed r.2.2 }

/-- The frame at the head, if `o` owns it. -/
def State.headFor (s : State) (o : RxOwner) : Option RxFrame :=
  match s.link.rx with
  | f :: _ => if rxOwner s.streams f = o then some f else none
  | [] => none

/-- The head frame leaves the queue and the next is handed on (R176). -/
def State.takeFrame (s : State) : State :=
  (s.onLink fun l => { l with rx := l.rx.tail, itemsTaken := 0 }).settled

/-! ## OPERATOR SETTING items -/

/-- One item of an OPERATOR SETTING frame: the frame's source, the item code and the signed value (10.7). -/
structure SettingItem where
  source : Byte
  code : Nat
  value : Int
  deriving DecidableEq, Repr

/-- The item at a place of an OPERATOR SETTING frame (10.7). -/
def itemAt (f : RxFrame) (n : Nat) : SettingItem :=
  ⟨f.source, (byteAt f.data (1 + 3 * n)).toNat, s16At f.data (2 + 3 * n)⟩

/-- The next item that LINK hands to its owner (R177). -/
def State.nextItem (s : State) : Option SettingItem :=
  match s.headFor .setting with
  | some f => if s.link.itemsTaken < itemCount f then some (itemAt f s.link.itemsTaken) else none
  | none => none

/-- The next item, if its code is `code`. -/
def State.itemFor (s : State) (code : Nat) : Option SettingItem :=
  s.nextItem.filter fun i => i.code == code

/-- The item is taken; with its last item the frame leaves the queue (R176, R177; log 4). -/
def State.takeItem (s : State) : State :=
  (s.onLink fun l => { l with itemsTaken := l.itemsTaken + 1 }).settled

/-- The item codes that name a setting (10.7). -/
def settingCodes : List Nat :=
  [0x01, 0x02, 0x03, 0x04, 0x05, 0x06, 0x07, 0x08, 0x09, 0x0A, 0x0B, 0x0C, 0x0D,
    0x10, 0x11, 0x12, 0x18, 0x20, 0x28, 0x29, 0x2A]

/-- Reasons in a SETTING RESPONSE (10.7). -/
inductive Reason where
  | state | absent | noPose | noSlew | conflict | range | engineRunning | derate
  deriving DecidableEq, Repr

/-- Results of an item: CLAMPED may carry a reason (R116), REFUSED carries one (R43). -/
inductive SettingResult where
  | accepted
  | clamped (r : Option Reason)
  | refused (r : Reason)
  deriving DecidableEq, Repr

/-- Reason codes (10.7). -/
def reasonCode : Reason → Nat
  | .state => 1 | .absent => 2 | .noPose => 3 | .noSlew => 4 | .conflict => 5 | .range => 6
  | .engineRunning => 7 | .derate => 8

/-- The result and reason bytes of a SETTING RESPONSE (10.7). -/
def resultBytes : SettingResult → List Byte
  | .accepted => [0, 0]
  | .clamped r => [1, byteOf ((r.map reasonCode).getD 0)]
  | .refused r => [2, byteOf (reasonCode r)]

/-- An applied value in its signed four-byte field; the bytes of a value that does not fit are free (10.7; log 48). -/
def appliedBytes (v : Int) : List Byte :=
  be4 (if -2147483648 ≤ v ∧ v ≤ 2147483647 then v else (Config.wideValue v).toInt)

/-- The data field of a SETTING RESPONSE: an absent value has its presence bit clear and reads 0 (10.7). -/
def settingData (code : Nat) (r : SettingResult) (v0 v1 v2 : Option Int) : List Byte :=
  [byteOf code] ++ resultBytes r ++ [byteOf (bit v0.isSome + 2 * bit v1.isSome + 4 * bit v2.isSome)]
    ++ appliedBytes (v0.getD 0) ++ appliedBytes (v1.getD 0) ++ appliedBytes (v2.getD 0)

/-- One SETTING RESPONSE of class URGENT to the source of the item (R43, R174). -/
def State.respond (s : State) (i : SettingItem) (r : SettingResult) (v0 v1 v2 : Option Int) : State :=
  s.offer .urgent .settingResponse i.source (settingData i.code r v0 v1 v2)

/-! ## Payloads of the subscribed roles -/

/-- The least data field of a role's format (10.7, R25); a SPARE entry keeps the sequence alone (R24). -/
def roleLength : Role → Nat
  | .boomAngle | .armAngle | .bucketAngle | .slewAngle => 3
  | .engineState => 6
  | .engineGrant | .hydraulicState => 4
  | .display | .spare => 1

/-- The sequence value of a payload, byte 0 bits 0 to 3 (10.7). -/
def payloadSeq (data : List Byte) : BitVec 4 := (byteAt data 0).setWidth 4

/-- The node status of an angle payload, byte 0 bits 4 to 5; any other code is FAILED (R27, 10.7). -/
def payloadStatus (data : List Byte) : NodeReport :=
  match (byteAt data 0).toNat / 16 % 4 with
  | 0 => .ok
  | 1 => .degraded
  | _ => .failed

/-- The mailbox that an accepted payload of a role writes, after clamping (R24, R27, 10.7). -/
def readPayload (r : Role) (data : List Byte) : Mailbox :=
  match r with
  | .boomAngle | .armAngle | .bucketAngle | .slewAngle =>
    { Mailbox.empty with status := payloadStatus data, angle := BitVec.ofNat 16 (u16At data 1) }
  | .engineState =>
    { Mailbox.empty with
      speed := u16At data 1
      load := min 100 (byteAt data 3).toNat
      fuelRate := min 20000 (u16At data 4) }
  | .engineGrant => { Mailbox.empty with grantSource := byteAt data 1, grantSpeed := u16At data 2 }
  | .hydraulicState =>
    { Mailbox.empty with
      levers := (byteAt data 1).setWidth 4
      travel := (byteAt data 2).getLsbD 0
      oil := (byteAt data 3).toInt }
  | .display | .spare => Mailbox.empty

/-! ## HOLD REQUEST -/

/-- The fields of a HOLD REQUEST (5.3, 10.7). -/
structure HoldRequest where
  requester : Byte
  mask : Mask
  level : Nat
  time : Nat
  reason : Nat
  deriving DecidableEq, Repr

/-- Read a HOLD REQUEST frame (10.7). -/
def readHoldRequest (f : RxFrame) : HoldRequest :=
  ⟨f.source, (byteAt f.data 0).setWidth 6, u16At f.data 1, u16At f.data 3, (byteAt f.data 5).toNat % 16⟩

end Sys2Proof.Machine
end

