-- ==== Sys2Proof/Machine/Flags.lean ====
section
/-! DEFINITION. The conditions that the blocks form from State: usability of a stream, slew validity, engine
running, neutral levers, the grant, the idle permit, inhibits, zones and the zone key. -/

namespace Sys2Proof

/-! ## The names of the spec -/

/-- Angle roles carry a node status (R33). -/
def Role.isAngle : Role → Bool
  | .boomAngle | .armAngle | .bucketAngle | .slewAngle => true
  | .engineState | .engineGrant | .hydraulicState | .display | .spare => false

/-- FRESH or LATE. -/
def StreamState.heard : StreamState → Bool
  | .fresh | .late => true
  | .neverSeen | .stale | .recovering => false

/-- The greatest reach Rmax (R1). -/
def Geometry.maxReach (g : Geometry) : Int := g.xf.natAbs + g.l1 + g.l2 + g.l3

/-- A requesting state (7.4). -/
def EcoState.requesting : EcoState → Bool
  | .work | .neutralWait | .idleLow | .recover => true
  | .off | .yielded => false

/-- Severity rank, INFO lowest (R155). -/
def Severity.rank : Severity → Nat
  | .info => 0 | .caution => 1 | .warning => 2 | .stop => 3

/-- A present limit of a set. -/
def LimitSet.has (u : LimitSet) : Limit → Bool
  | .floor => u.floor.isSome | .ceiling => u.ceiling.isSome | .reach => u.reach.isSome
  | .slewLeft => u.slewLeft.isSome | .slewRight => u.slewRight.isSome

/-- Mode codes (R65, R186). -/
def WorkMode.code : WorkMode → Nat
  | .heavy => 0 | .standard => 1 | .economy => 2 | .lift => 3

/-- The mode of a code (R116). -/
def WorkMode.ofCode (n : Int) : Option WorkMode :=
  if n = 0 then some .heavy else if n = 1 then some .standard
  else if n = 2 then some .economy else if n = 3 then some .lift else none

end Sys2Proof

namespace Sys2Proof.Machine

/-! ## Streams -/

/-- The entry of a role (R23: no two entries hold the same role). -/
def State.stream (s : State) (r : Role) : Option Stream := s.streams.find? fun e => e.role == r

/-- A value is usable when the entry is FRESH or LATE and an angle role does not report FAILED (R34). -/
def Stream.usable (e : Stream) : Bool :=
  e.state.heard && !(e.role.isAngle && e.mailbox.status == .failed)

/-- The mailbox of a role's entry; empty where no entry has the role (what an ECONOMY REPORT then carries of the grant:
`State.grantReport`, log 42). -/
def State.mailbox (s : State) (r : Role) : Mailbox := ((s.stream r).map (·.mailbox)).getD Mailbox.empty

/-- The value of a role is usable (R34). -/
def State.usable (s : State) (r : Role) : Bool := ((s.stream r).map Stream.usable).getD false

/-- The state of a role's entry. -/
def State.streamState (s : State) (r : Role) : StreamState := ((s.stream r).map (·.state)).getD .neverSeen

/-! ## Pose and slew -/

/-- The slew angle ψ as read now (R3). -/
def State.psi (s : State) : Int :=
  wrapAngle ((s.mailbox .slewAngle).angle.toNat + s.img.geometry.slewOffset)

/-- The slew validity as read now (R3). -/
def State.slewValid (s : State) : Bool := s.usable .slewAngle

/-- The pose is usable when its quality is GOOD, HELD or DEGRADED (R10). -/
def State.poseUsable (s : State) : Bool := s.pose.record.quality != .invalid

/-- The largest of the reaches of P1, P2 and P3 (R15). -/
def PoseRecord.maxReach (p : PoseRecord) : Int := max p.p1Reach (max p.p2Reach p.p3Reach)

/-- The lower of the heights of P2 and P3 (R15). -/
def PoseRecord.lowest (p : PoseRecord) : Int := min p.p2Height p.p3Height

/-- The highest of the heights of P1, P2 and P3 (R15). -/
def PoseRecord.highest (p : PoseRecord) : Int := max p.p1Height (max p.p2Height p.p3Height)

/-! ## Engine, levers, grant -/

/-- The engine is running: ENGINE_STATE usable and its speed at least the threshold (R118, R65, R148). -/
def State.engineRunning (s : State) : Bool :=
  s.usable .engineState && s.img.economy.runThreshold ≤ (s.mailbox .engineState).speed

/-- The hydraulic state is neutral (R119). -/
def State.neutral (s : State) : Bool :=
  s.usable .hydraulicState && (s.mailbox .hydraulicState).levers == 0 && !(s.mailbox .hydraulicState).travel

/-- The grant as ECO reads it; an unusable or missing stream reads as none (R36, R120). -/
def State.readGrant (s : State) : Grant :=
  if !s.usable .engineGrant then .none
  else
    let src := (s.mailbox .engineGrant).grantSource
    if src = s.link.address then .own
    else if src = 0xFE ∨ src = 0xFF then .none
    else .foreign

/-- The idle permit (R122). -/
def State.idlePermit (s : State) : Bool :=
  s.eco.neutralSince.isSome && s.eco.autoIdle
    && (s.usable .hydraulicState && s.img.economy.warmUp ≤ (s.mailbox .hydraulicState).oil)
    && !s.eco.idleInhibit

/-! ## Notices -/

/-- The combined inhibit (R158). -/
def Ntc.inhibited (n : Ntc) : Bool := n.operatorInhibit || n.busyInhibit

/-- The display is available while the DISPLAY entry is FRESH or LATE (R158). -/
def State.displayHeard (s : State) : Bool := (s.streamState .display).heard

/-! ## The hold table -/

/-- The table is active when an entry or the overflow entry is in use (R82). -/
def HoldTable.active (h : HoldTable) : Bool := !h.entries.isEmpty || h.overflow.isSome

/-! ## Zones and the zone key -/

/-- The number of used thresholds at or below a value (R64). -/
def zoneOf (thresholds : List Int) (v : Int) : Nat := (thresholds.filter fun t => t ≤ v).length

/-- The height zone: P3 height, 0 when the pose is INVALID (R64). -/
def State.heightZone (s : State) : Nat :=
  if s.poseUsable then zoneOf s.img.zones.height s.pose.record.p3Height else 0

/-- The reach zone: Pmax reach, 0 when the pose is INVALID (R64). -/
def State.reachZone (s : State) : Nat :=
  if s.poseUsable then zoneOf s.img.zones.reach s.pose.record.maxReach else 0

/-- The slew zone: ψ, 0 when the slew is invalid (R64). -/
def State.slewZone (s : State) : Nat := if s.slewValid then zoneOf s.img.zones.slew s.psi else 0

/-- A limit is near: APPROACH or STOP (R65). -/
def LimitUnit.near (u : LimitUnit) (l : Limit) : Bool :=
  (u.records.get l).state == .approach || (u.records.get l).state == .stop

/-- A lever bit of the key: 0 when the hydraulic value is unusable (R65). -/
def State.lever (s : State) (n : Nat) : Bool :=
  s.usable .hydraulicState && (s.mailbox .hydraulicState).levers.getLsbD n

/-- The zone key, every field read from its owner now (R65). -/
def State.zoneKey (s : State) : Key :=
  BitVec.ofNat 27 (
    s.heightZone % 8 + 2 ^ 3 * (s.reachZone % 8) + 2 ^ 6 * (s.slewZone % 8)
    + 2 ^ 9 * bit s.poseUsable + 2 ^ 10 * bit s.slewValid + 2 ^ 11 * s.eco.mode.code
    + 2 ^ 13 * bit (s.usable .hydraulicState && (s.mailbox .hydraulicState).travel)
    + 2 ^ 14 * bit s.engineRunning
    + 2 ^ 15 * bit (s.lever 0) + 2 ^ 16 * bit (s.lever 1)
    + 2 ^ 17 * bit (s.lever 2) + 2 ^ 18 * bit (s.lever 3)
    + 2 ^ 19 * bit s.hold.active
    + 2 ^ 20 * bit (s.lim.near .floor) + 2 ^ 21 * bit (s.lim.near .ceiling)
    + 2 ^ 22 * bit (s.lim.near .reach) + 2 ^ 23 * bit (s.lim.near .slewLeft)
    + 2 ^ 24 * bit (s.lim.near .slewRight) + 2 ^ 25 * (s.rule.profile % 4))

/-- The three zones of a key, for a rule notice (R73). -/
def keyZones (k : Key) : Nat × Nat × Nat := (k.toNat % 8, k.toNat / 8 % 8, k.toNat / 64 % 8)

/-- The engine-running field of a key (R65, R77). -/
def keyEngineRunning (k : Key) : Bool := k.getLsbD 14

end Sys2Proof.Machine
end

