-- ==== Sys2Proof/Machine/Reply.lean ====
section
/-! DEFINITION. Replies of several frames (R38, R76, R152): their frames, the report of a frame sent or
discarded, and offers of class BACKGROUND, whose discards may be reported to a reply. -/

namespace Sys2Proof.Machine

/-! ## Codes -/

/-- Stream state codes (R193). -/
def streamStateCode : StreamState → Nat
  | .neverSeen => 0 | .fresh => 1 | .late => 2 | .stale => 3 | .recovering => 4

/-- Item state codes (10.7, SERVICE SUMMARY). -/
def itemStateCode : ItemState → Nat
  | .ok => 0 | .dueSoon => 1 | .due => 2 | .overdue => 3

/-! ## Service item points -/

/-- Base units in one basis unit (R143). -/
def basisMultiplier : Basis → Nat
  | .engineHours => 3600 | .weightedHours => 28800 | .cycles => 1

/-- Base units in the unit of reports: a tenth of an hour, or a cycle (R145). -/
def reportDivisor : Basis → Nat
  | .engineHours => 360 | .weightedHours => 2880 | .cycles => 1

/-- The basis of an item; an accepted image's items have one of the three (R143). -/
def ServiceItem.basis (i : ServiceItem) : Basis := i.config.basis.getD .engineHours

/-- The reading of an item: its basis counter (R143). -/
def Svc.reading (v : Svc) (i : ServiceItem) : Nat :=
  match i.basis with
  | .engineHours => v.engineSeconds
  | .weightedHours => v.weighted
  | .cycles => v.cycles

/-- The due point (R144). -/
def ServiceItem.duePoint (i : ServiceItem) : Nat := i.lastDone + i.config.interval * basisMultiplier i.basis

/-- A base value in the unit of reports (R145). -/
def ServiceItem.inReport (i : ServiceItem) (n : Nat) : Nat := n / reportDivisor i.basis

/-! ## Frames -/

/-- A reply's data field: 16 bytes, unused ones 0 (10.7). -/
def replyData (form : Nat) (body : List Byte) : List Byte := (byteOf form :: body ++ List.replicate 15 0).take 16

/-- Stream entry, form 1 (R38, 10.7). -/
def streamFrame (e : Stream) : List Byte :=
  replyData 1 ([byteOf e.number, Config.roleCode e.role, byteOf (streamStateCode e.state)]
    ++ be2 e.gaps ++ be2 e.duplicates ++ be2 e.staleEpisodes ++ be2 e.malformed)

/-- Rule header, form 2 (R76, 10.7). -/
def ruleHeader (s : State) : List Byte :=
  replyData 2 (be4 ((s.rule.key.getD 0).toNat : Int)
    ++ [byteOf (s.rule.winner.getD 32), byteOf (s.img.rules.length + 1)])

/-- Rule frame, form 3 (R76, 10.7). The spec gives the winner flag no codes: 1 for the winner and 0 for any other is the model's
choice (log 61). -/
def ruleFrame (s : State) (index : Nat) : List Byte :=
  replyData 3 ([byteOf index] ++ be2 (s.rule.hits.getD index 0) ++ [byteOf (bit (s.rule.winner == some index))])

/-- Service item, form 5 (R152, 10.7); reading and due point saturated. The spec gives the derate field and re-remind present no
codes: 1 for yes and present and 0 for no and absent is the model's choice (log 61). -/
def itemFrame (v : Svc) (i : ServiceItem) : List Byte :=
  replyData 5 ([byteOf i.config.number, i.config.name, Config.basisCode i.basis, byteOf (bit i.config.derate),
      byteOf (itemStateCode i.state), byteOf (bit i.remind.isSome)]
    ++ be4 (min 4294967295 (i.inReport (v.reading i))) ++ be4 (min 4294967295 (i.inReport i.duePoint)))

/-! ## The next frame of a reply -/

/-- The reply of a block in progress. -/
def State.replyOf (s : State) : ReplyOwner → Option ListReply
  | .stm => s.stmReply | .rule => s.rule.reply | .svc => s.svc.reply

/-- Set the reply of a block. -/
def State.setReply (s : State) (o : ReplyOwner) (r : Option ListReply) : State :=
  match o with
  | .stm => { s with stmReply := r }
  | .rule => s.onRule fun u => { u with reply := r }
  | .svc => s.onSvc fun v => { v with reply := r }

/-- The data field of the reply frame for one entry, slot or item, formed now. -/
def State.replyFrame (s : State) (o : ReplyOwner) (n : Nat) : List Byte :=
  match o with
  | .stm => ((s.streams.find? fun e => e.number == n).map streamFrame).getD (replyData 1 [])
  | .rule => ruleFrame s n
  | .svc => ((s.svc.items.find? fun i => i.config.number == n).map (itemFrame s.svc)).getD (replyData 5 [])

/-- LINK has reported the previous frame of a reply sent or discarded: the block offers the next, formed now, and a
reply with none left ends (R38, R76, R152). An offer that makes room by discarding a frame of another reply
reports that discard in turn, when the new frame has joined (log 57); `fuel` exceeds the frames of all replies. -/
def deliver : Nat → ReplyOwner → State → State
  | 0, _, s => s
  | fuel + 1, o, s =>
    match s.replyOf o with
    | none => s
    | some ⟨_, []⟩ => s.setReply o none
    | some ⟨dst, n :: rest⟩ =>
      let f := { s.frame .statsReply dst (s.replyFrame o n) with reply := some o }
      let r := offerFrame s.cfg.node .background f s.link
      let s := { s.setReply o (some ⟨dst, rest⟩) with link := r.1 }
      match r.2 with
      | none => s
      | some o' => deliver fuel o' s

/-- More than the frames of all replies in progress: 12 entries, 33 rules, 16 items. -/
def replyFuel : Nat := 64

/-- LINK's report to the block of a reply (R180). -/
def State.report (s : State) (o : Option ReplyOwner) : State :=
  match o with
  | none => s
  | some o => deliver replyFuel o s

/-- LINK's reports of several discards, in the order of the list (R182; log 57). -/
def State.reports (s : State) (os : List ReplyOwner) : State := os.foldl (fun s o => s.report (some o)) s

/-- Offer a frame of class BACKGROUND; a frame of a reply that is discarded to make room is reported (R180). The report, with the
reply's next frame, comes when the new frame has joined, the model's choice (log 57). -/
def State.offerBackground (s : State) (f : TxFrame) : State :=
  let r := offerFrame s.cfg.node .background f s.link
  { s with link := r.1 }.report r.2

/-- A reply in progress is abandoned: a frame already offered is left to LINK, its report acts on nothing. -/
def State.abandonReply (s : State) (o : ReplyOwner) : State :=
  (s.setReply o none).onLink fun l =>
    { l with background := l.background.map fun f => if f.reply = some o then { f with reply := none } else f }

/-- A reply begins with its first frame, formed now (R38, R76, R152). -/
def State.beginReply (s : State) (o : ReplyOwner) (dst : Byte) (first : Option (List Byte)) (todo : List Nat) : State :=
  let s := s.abandonReply o
  match first, todo with
  | some data, _ =>
    (s.setReply o (some ⟨dst, todo⟩)).offerBackground { s.frame .statsReply dst data with reply := some o }
  | none, [] => s
  | none, n :: rest =>
    (s.setReply o (some ⟨dst, rest⟩)).offerBackground { s.frame .statsReply dst (s.replyFrame o n) with reply := some o }

end Sys2Proof.Machine
end

