-- ==== Sys2Proof/Machine/Notice.lean ====
section
/-! DEFINITION. NTC, the notice controller: catalogue, method, queue, presentation pass, raise, clear and
acknowledgement, inhibits and escalation (9.1 to 9.7). The commands of NTC and SND stand in Operator.lean. -/

namespace Sys2Proof.Machine

/-! ## The catalogue and the method -/

/-- Severity and route of a stream-fault notice by the entry's role (R35). -/
def streamNotice : Role → Severity × Route
  | .boomAngle | .armAngle | .bucketAngle | .slewAngle | .engineState | .engineGrant => (.warning, .display)
  | .hydraulicState | .spare => (.caution, .display)
  | .display => (.caution, .locally)

/-- The catalogue's severity and route of an id; none for an id outside the table, or while no image is
held. A code outside its list is CAUTION or DISPLAY (R155). A service id's severity comes with its raise. -/
def State.catalogue (s : State) (id : Nat) : Option (Severity × Route) :=
  if s.image.isNone then none
  else if 0x01 ≤ id ∧ id ≤ 0x10 then
    some (.info, ((s.img.notices.serviceRoutes.getD (id - 1) none).getD .display))
  else if 0x20 ≤ id ∧ id ≤ 0x2B then
    (s.streams.find? fun e => e.number == id - 0x20).map fun e => streamNotice e.role
  else if 0x30 ≤ id ∧ id ≤ 0x34 then some (.caution, .display)
  else if id = 0x38 then some (.info, .display)
  else if 0x40 ≤ id ∧ id ≤ 0x5F then
    let r := s.img.notices.ruleNotices.getD (id - 0x40) (none, none)
    some (r.1.getD .caution, r.2.getD .display)
  else if id = 0x70 ∨ id = 0x71 then some (.warning, .display)
  else if id = 0x72 then some (.caution, .locally)
  else if id = 0x73 then some (.caution, .display)
  else none

/-- A method: whether the id is presented, and its sound (R159). -/
abbrev Method := Bool × Option Pattern

/-- The method of a notice (R159); an escalated CAUTION is taken on the line "inhibit off". -/
def methodFor (r : Route) (available inhibited escalated : Bool) (v : Severity) : Method :=
  match r with
  | .locally =>
    match v with
    | .info => (false, none)
    | .caution => (false, some .oneShotShort)
    | .warning => (false, some .cadence500)
    | .stop => (false, some .continuous)
  | .display =>
    if available then
      match v with
      | .info => (!inhibited, none)
      | .caution => (!inhibited || escalated, none)
      | .warning => (true, some .oneShotShort)
      | .stop => (true, some .oneShotLong)
    else
      match v with
      | .info => (false, none)
      | .caution => (false, none)
      | .warning => (false, some .cadence500)
      | .stop => (false, some .continuous)

/-- The method of a record under the conditions of the moment. -/
def Ntc.method (n : Ntc) (r : NoticeRecord) : Method :=
  methodFor r.route n.displayAvailable n.inhibited r.escalated r.severity

/-- A DISPLAY-route id whose method contains PRESENT (R159). -/
def Ntc.presentable (n : Ntc) (r : NoticeRecord) : Bool := (n.method r).1

/-- The sustained sound of a pending id: that of the DEFER line that applies, none on a line that contains
PRESENT (R159, R162). -/
def Ntc.pendingSound (n : Ntc) (r : NoticeRecord) : Option Pattern :=
  if (n.method r).1 then none else (n.method r).2

/-! ## The collections -/

/-- An unordered set kept in the order of the ids. -/
def insertById (r : NoticeRecord) : List NoticeRecord → List NoticeRecord
  | [] => [r]
  | x :: xs => if x.id < r.id then x :: insertById r xs
    else if x.id = r.id then r :: xs else r :: x :: xs

/-- The collection without an id. -/
def withoutId (id : Nat) (rs : List NoticeRecord) : List NoticeRecord := rs.filter fun r => r.id != id

/-- The record of an id in a collection. -/
def findId (id : Nat) (rs : List NoticeRecord) : Option NoticeRecord := rs.find? fun r => r.id == id

/-- The order of the queue: severity, highest first, then the earlier raise time, then the lower id (R161).
Raise times are compared as unsigned values (log 17). -/
def queueBefore (a b : NoticeRecord) : Bool :=
  b.severity.rank < a.severity.rank
    || (a.severity.rank == b.severity.rank
      && (a.raised.toNat < b.raised.toNat || (a.raised == b.raised && a.id < b.id)))

/-- The queue with a record at its place (R161). -/
def insertQueue (r : NoticeRecord) : List NoticeRecord → List NoticeRecord
  | [] => [r]
  | x :: xs => if queueBefore r x then r :: x :: xs else x :: insertQueue r xs

/-- A CAUTION that is not escalated runs its escalation timer in the pending set (R163). -/
def escalates (r : NoticeRecord) : Bool := r.severity == .caution && !r.escalated

/-- The record as it enters the pending set now, its escalation timer started afresh (R161, R163). -/
def asPending (now : Ms) (r : NoticeRecord) : NoticeRecord :=
  { r with escalationStart := if escalates r then some now else none }

/-! ## Frames -/

/-- Severity codes (10.7, NOTICE). -/
def severityCode (v : Severity) : Nat := v.rank

/-- NTC offers a NOTICE frame of a record (R160, R161). -/
def State.offerNotice (s : State) (r : NoticeRecord) : State :=
  s.offer .normal .notice 0xFF ([byteOf r.id, byteOf (severityCode r.severity)] ++ be6 (Config.detailBytes r.detail))

/-- NTC offers a NOTICE CLEARED frame; cause 0 CONDITION, 1 DISPLACED (R161, R165). -/
def State.offerCleared (s : State) (id cause : Nat) : State :=
  s.offer .normal .noticeCleared 0xFF [byteOf id, byteOf cause]

/-! ## Sounds -/

/-- Place a notice's sound with SND, if it has one. -/
def State.placeSound (s : State) (id : Nat) (p : Option Pattern) : State :=
  match p with
  | none => s
  | some p => s.sound fun now d => sndNotice now id p d

/-- Withdraw a notice's sound, if it had one and it is still live. -/
def State.withdrawSound (s : State) (r : NoticeRecord) : State :=
  match r.sound with
  | none => s
  | some _ => s.sound fun now d => sndNoticeWithdraw now r.id d

/-! ## The queue -/

/-- A record joins the queue: its escalation timer stops, a NOTICE is offered and the one-shot of its method
is placed (R161, R162). -/
def State.joinQueue (s : State) (r : NoticeRecord) : State :=
  let r := { r with escalationStart := none, sound := (s.ntc.method r).2 }
  let s := s.onNtc fun n => { n with queue := insertQueue r n.queue }
  (s.offerNotice r).placeSound r.id r.sound

/-- A record enters the pending set. -/
def State.pend (s : State) (r : NoticeRecord) : State :=
  s.onNtc fun n => { n with pending := insertById r n.pending }

/-- A record is offered to the queue (R161). At a displacement the displaced id's sound is withdrawn and its NOTICE CLEARED offered
before the new id's NOTICE and one-shot (log 7). -/
def State.offerQueue (s : State) (r : NoticeRecord) : State :=
  if s.ntc.queue.length < 8 then s.joinQueue r
  else
    match s.ntc.queue.getLast? with
    | none => s.joinQueue r
    | some last =>
      if last.severity.rank < r.severity.rank then
        let s := s.onNtc fun n => { n with queue := n.queue.dropLast }
        let s := (s.withdrawSound last).offerCleared last.id 1
        (s.pend { asPending s.now last with sound := none }).joinQueue r
      else s.pend { asPending s.now r with sound := none }

/-- A record would join the queue if offered now (R161, R162). -/
def Ntc.takes (n : Ntc) (r : NoticeRecord) : Bool :=
  n.queue.length < 8 ||
    match n.queue.getLast? with
    | none => true
    | some last => last.severity.rank < r.severity.rank

/-- The first of two in the order of a presentation pass: severity, highest first, then the lower id (R162). -/
def passBefore (a b : NoticeRecord) : Bool :=
  b.severity.rank < a.severity.rank || (a.severity.rank == b.severity.rank && a.id < b.id)

/-- The presentable pending record that comes first in the order of a pass (R162). -/
def Ntc.passNext (n : Ntc) : Option NoticeRecord :=
  (n.pending.filter n.presentable).foldl
    (fun best r => match best with
      | none => some r
      | some b => if passBefore r b then some r else some b) none

/-- A presentation pass (R162). A record joins once at most in a pass, so `fuel` above the number of pending
records is enough. -/
def presentationPass : Nat → State → State
  | 0, s => s
  | fuel + 1, s =>
    match s.ntc.passNext with
    | none => s
    | some r =>
      if s.ntc.takes r then
        presentationPass fuel ((s.onNtc fun n => { n with pending := withoutId r.id n.pending }).offerQueue r)
      else s

/-- NTC makes a presentation pass (R162). -/
def State.pass (s : State) : State := presentationPass (s.ntc.pending.length + 1) s

/-- The method is re-applied to one pending record: its sound becomes that of the line that now applies
(R162). The old sound is withdrawn before the new one is placed, the model's choice (log 56). -/
def State.reapply (s : State) (r : NoticeRecord) : State :=
  let p := s.ntc.pendingSound r
  if p = r.sound then s
  else
    let s := (s.withdrawSound r).placeSound r.id p
    s.onNtc fun n => { n with pending := n.pending.map fun x => if x.id = r.id then { x with sound := p } else x }

/-- A change of the combined inhibit or of the display availability: the method is re-applied to every pending
id, by ascending id, the model's choice (log 53), and a pass is made (R162). -/
def State.conditionsChanged (s : State) : State := (s.ntc.pending.foldl State.reapply s).pass

/-- A change of NTC's conditions; one that changes the combined inhibit or the availability is handed to R162
(R157, R158). -/
def State.setConditions (s : State) (f : Ntc → Ntc) : State :=
  let s' := s.onNtc f
  if s'.ntc.inhibited = s.ntc.inhibited ∧ s'.ntc.displayAvailable = s.ntc.displayAvailable then s'
  else s'.conditionsChanged

/-! ## Raise and clear -/

/-- A raise of an id that NTC does not hold (R160). -/
def State.raiseNew (s : State) (r : NoticeRecord) : State :=
  let m := s.ntc.method r
  match r.route with
  | .locally =>
    let s := s.onNtc fun n => { n with
      locals := insertById { r with sound := m.2 } n.locals
      logCount := if r.severity = .info then sat16 n.logCount else n.logCount }
    s.placeSound r.id m.2
  | .display =>
    if m.1 then s.offerQueue r
    else (s.pend { asPending s.now r with sound := m.2 }).placeSound r.id m.2

/-- A raise of a queued id (R160). -/
def State.raiseQueued (s : State) (r : NoticeRecord) (v : Severity) (d : Detail) : State :=
  if v.rank ≤ r.severity.rank then
    let r := { r with detail := d }
    (s.onNtc fun n => { n with queue := n.queue.map fun x => if x.id = r.id then r else x }).offerNotice r
  else
    let r := { r with detail := d, severity := v }
    let m := s.ntc.method r
    let p := if m.1 then m.2 else none
    let r := { r with sound := if p.isSome then p else r.sound }
    let s := s.onNtc fun n => { n with queue := insertQueue r (withoutId r.id n.queue) }
    (s.offerNotice r).placeSound r.id p

/-- A raise of a pending id (R160). -/
def State.raisePending (s : State) (r : NoticeRecord) (v : Severity) (d : Detail) : State :=
  if v.rank ≤ r.severity.rank then s.pend { r with detail := d }
  else
    let r := asPending s.now { r with detail := d, severity := v }
    ((s.pend r).reapply r).pass

/-- A raise of a local id (R160). At a rise the old sound is withdrawn before the new one is placed, the model's choice
(log 56). -/
def State.raiseLocal (s : State) (r : NoticeRecord) (v : Severity) (d : Detail) : State :=
  if v.rank ≤ r.severity.rank then
    s.onNtc fun n => { n with locals := insertById { r with detail := d } n.locals }
  else
    let m := s.ntc.method { r with severity := v }
    let s := (s.withdrawSound r).placeSound r.id m.2
    s.onNtc fun n => { n with locals := insertById { r with detail := d, severity := v, sound := m.2 } n.locals }

/-- NTC takes a raise; outside RUN, or of an id outside the catalogue, it is discarded. A service raise
carries its severity (R155, R160). A severity below the held one does not lower it (log 18). -/
def State.raiseNotice (s : State) (id : Nat) (v : Option Severity) (d : Detail) : State :=
  if !s.inRun then s
  else
    match s.catalogue id with
    | none => s
    | some (cv, route) =>
      let v := v.getD cv
      match findId id s.ntc.queue, findId id s.ntc.pending, findId id s.ntc.locals with
      | some r, _, _ => s.raiseQueued r v d
      | none, some r, _ => s.raisePending r v d
      | none, none, some r => s.raiseLocal r v d
      | none, none, none => s.raiseNew ⟨id, v, route, d, s.now, false, none, none⟩

/-- NTC takes a clear; outside RUN, or of an id not held, it changes nothing (R165). -/
def State.clearNotice (s : State) (id : Nat) : State :=
  if !s.inRun then s
  else
    match findId id s.ntc.queue, findId id s.ntc.pending, findId id s.ntc.locals with
    | some r, _, _ =>
      let s := s.onNtc fun n => { n with queue := withoutId id n.queue }
      ((s.withdrawSound r).offerCleared id 0).pass
    | none, some r, _ => (s.onNtc fun n => { n with pending := withoutId id n.pending }).withdrawSound r
    | none, none, some r => (s.onNtc fun n => { n with locals := withoutId id n.locals }).withdrawSound r
    | none, none, none => s

/-! ## Inhibits, escalation, node states -/

/-- NTC takes the lever-neutral timestamp as it stands: the busy inhibit and the settle timer (R158). -/
def State.takeTimestamp (s : State) : State :=
  if !s.img.notices.busyFlag then s
  else
    match s.eco.neutralSince with
    | none => s.setConditions fun n => { n with settleTimer := none, busyInhibit := true }
    | some t =>
      let d := after t 2000
      if reached s.now d then s.setConditions fun n => { n with settleTimer := none, busyInhibit := false }
      else s.setConditions fun n => { n with settleTimer := some d, busyInhibit := true }

/-- NTC takes a state event of the DISPLAY entry (R158). -/
def State.takeDisplay (s : State) : State :=
  s.setConditions fun n => { n with displayAvailable := s.displayHeard }

/-- NTC forms the busy inhibit and the display availability at an entry to RUN (R167), in that order, the
model's choice (log 7). -/
def State.formNtc (s : State) : State := s.takeTimestamp.takeDisplay

/-- The escalation time in ms (R158). -/
def State.escalationMs (s : State) : Nat := (s.img.notices.escalationMinutes * 60000).toNat

/-- On leaving RUN the collections are emptied, the operator inhibit set off, the timers stopped; the counts are
kept (R166, R167). -/
def leaveNtc (busyFlag : Bool) (n : Ntc) : Ntc :=
  { Ntc.reset with busyInhibit := busyFlag, logCount := n.logCount, ignoredAcks := n.ignoredAcks }

/-- NOTICE SUMMARY data: the queue padded to eight, the pending count, the flags with the silence seconds left,
rounded up, and the three counts (R166, 10.7). -/
def noticeSummary (s : State) : List Byte :=
  let left := match s.snd.silence with
    | none => 0
    | some d => if reached s.now d then 0 else (elapsed d s.now + 999) / 1000
  ((s.ntc.queue.flatMap fun (r : NoticeRecord) => [byteOf r.id, byteOf (severityCode r.severity)]) ++ List.replicate 16 0).take 16
    ++ [byteOf s.ntc.pending.length,
      byteOf (bit s.ntc.operatorInhibit + 2 * bit s.ntc.busyInhibit + 4 * bit s.ntc.displayAvailable + 8 * left)]
    ++ be2 s.ntc.logCount ++ be2 s.ntc.ignoredAcks ++ be2 s.snd.dropped

end Sys2Proof.Machine
end

