-- ==== Sys2Proof/Machine/Economy.lean ====
section
/-! DEFINITION. ECO, the economy controller: the engine request record, the economy state, what ECO reads,
fuel accounting and its frames (7.3 to 7.7). The commands of ECO stand in EconomyCommands.lean. -/

namespace Sys2Proof.Machine

/-! ## The engine request record -/

/-- The least of a value of the mode, a cap of the winner and a value of the derate (R129, R131). -/
def leastOf (mode : Int) (cap : Option Int) (derate : Option Int) : Int :=
  let m := match cap with
    | some c => min mode c
    | none => mode
  match derate with
  | some d => min m d
  | none => m

/-- The first of MODE, RULE_CAP and DERATE whose value equals the least (R129, R131). -/
def firstGovernor (mode : Int) (cap : Option Int) (least : Int) : Governor :=
  if mode = least then .mode else if cap = some least then .ruleCap else .derate

/-- The speed cap or pump cap of the winner as a value to compare. -/
def capValue (c : Option Nat) : Option Int := c.map fun n => (n : Int)

/-- The target speed Nt (R129). -/
def Eco.formTarget (p : EcoConfig) (derate : Bool) (e : Eco) : Nat :=
  (leastOf (p.modeSpeed.get e.mode) (capValue e.speedCap)
    (if derate then some (p.modeSpeed.economy : Int) else none)).toNat

/-- The least of the three pump values (R131). -/
def Eco.formPump (p : EcoConfig) (derate : Bool) (e : Eco) : Nat :=
  (leastOf (p.modePump.get e.mode) (capValue e.pumpCap)
    (if derate then some p.modePump.economy else none)).toNat

/-- The three limits that may govern the pump limit (R128). -/
def pumpGovernor : Fin 3 → Governor
  | 0 => .mode | 1 => .ruleCap | 2 => .derate

/-- The engine request record formed afresh (R128, R129, R131); the governing limit of an absent value is
free (log 26). -/
def Eco.formRecord (p : EcoConfig) (derate : Bool) (e : Eco) : Eco :=
  let target := e.formTarget p derate
  let pump := e.formPump p derate
  { e with
    target := target
    requested := if e.state.requesting then some (if e.state = .idleLow then p.idleSpeed else target) else none
    speedGov :=
      if e.state = .idleLow then .idle
      else if e.state.requesting then firstGovernor (p.modeSpeed.get e.mode) (capValue e.speedCap) target
      else Config.absentSpeedGovernor e.mode target
    pumpLimit := if e.state = .off then none else some pump
    pumpGov :=
      if e.state = .off then pumpGovernor (Config.absentPumpGovernor e.mode pump)
      else firstGovernor (p.modePump.get e.mode) (capValue e.pumpCap) pump }

/-! ## Frames -/

/-- Governor codes (10.7). -/
def governorCode : Governor → Nat
  | .mode => 0 | .ruleCap => 1 | .derate => 2 | .idle => 3

/-- Economy state codes (10.7). -/
def ecoStateCode : EcoState → Nat
  | .off => 0 | .work => 1 | .neutralWait => 2 | .idleLow => 3 | .recover => 4 | .yielded => 5

/-- Grant codes (10.7). -/
def grantCode : Grant → Nat
  | .own => 0 | .none => 1 | .foreign => 2

/-- ENGINE SPEED REQUEST data (R130, 10.7). -/
def speedData (e : Eco) : List Byte :=
  be2 (e.requested.getD 0) ++ [byteOf (governorCode e.speedGov), byteOf (ecoStateCode e.state), byteOf e.mode.code]

/-- PUMP POWER LIMIT data (R131, 10.7). -/
def pumpData (e : Eco) : List Byte := [byteOf (e.pumpLimit.getD 0), byteOf (governorCode e.pumpGov)]

/-- CYCLE REPORT data (R134, 10.7). -/
def cycleData (cycles : Nat) (fuel : BitVec 32) : List Byte := be4 cycles ++ be4 fuel.toNat

/-- The granted source and speed that ECONOMY REPORT carries: those of the ENGINE_GRANT mailbox; where no entry has the
role, a source that names no station, 0xFE or 0xFF, and a speed, both free (R36, R135; log 42). -/
def State.grantReport (s : State) : List Byte :=
  match s.stream .engineGrant with
  | some e => e.mailbox.grantSource :: be2 e.mailbox.grantSpeed
  | none => (if Config.absentGrantSource s.now then 0xFF else 0xFE) :: be2 (Config.absentGrantSpeed s.now).toNat

/-- ECONOMY REPORT data, each field read now (R135, 10.7). -/
def economyData (s : State) : List Byte :=
  let e := s.eco
  be2 (min 65535 (e.fuelTotal.toNat / 100) : Nat) ++ be4 e.idleSeconds.toNat ++ be4 e.workSeconds.toNat
    ++ be4 s.svc.cycles
    ++ [byteOf (ecoStateCode e.state), byteOf (e.mode.code + 4 * bit e.autoIdle)]
    ++ be2 (e.requested.getD 0) ++ [byteOf (governorCode e.speedGov)]
    ++ [byteOf (e.pumpLimit.getD 0), byteOf (governorCode e.pumpGov), byteOf (grantCode e.grant)]
    ++ s.grantReport ++ List.replicate 7 0

/-- ECO offers an ENGINE SPEED REQUEST to the engine controller (R130). -/
def State.offerSpeed (s : State) : State :=
  s.offer .normal .speedRequest s.img.economy.engineAddress (speedData s.eco)

/-- ECO offers a PUMP POWER LIMIT (R131). -/
def State.offerPump (s : State) : State := s.offer .normal .pumpLimit 0xFF (pumpData s.eco)

/-! ## Forming the record and its offers -/

/-- After a forming of the record: an offer at each new requested speed, a withdrawal when it ends (R130). -/
def State.tellSpeed (s : State) (before : Option Nat) : State :=
  if s.eco.requested = before then s
  else if s.eco.requested.isSome then s.offerSpeed
  else s.onLink (withdrawKind .speedRequest)

/-- After a forming of the record: an offer at each new pump limit, a withdrawal when it ends (R131). -/
def State.tellPump (s : State) (before : Option Nat) : State :=
  if s.eco.pumpLimit = before then s
  else if s.eco.pumpLimit.isSome then s.offerPump
  else s.onLink (withdrawKind .pumpLimit)

/-- ECO forms the record afresh and offers or withdraws what changed, the speed request before the pump limit (R128 to R131;
log 7). -/
def State.reform (s : State) : State :=
  let s' := s.onEco fun e => e.formRecord s.img.economy s.svc.derate
  (s'.tellSpeed s.eco.requested).tellPump s.eco.pumpLimit

/-! ## The economy state -/

/-- A requesting state with a foreign grant runs the yield timer (R127). -/
def watchYield (now : Ms) (p : EcoConfig) (e : Eco) : Eco :=
  { e with yieldTimer :=
      if e.state.requesting && e.grant == .foreign then
        (match e.yieldTimer with
          | some t => some t
          | none => some (after now p.yieldConfirm.toNat))
      else none }

/-- Enter an economy state: the delay and recovery timers of the state left stop, the yield watch goes on or
starts, the record is formed (R123 to R130). -/
def State.enterEco (s : State) (st : EcoState) : State :=
  (s.onEco fun e =>
    watchYield s.now s.img.economy { e with state := st, delayTimer := none, recoveryTimer := none }).reform

/-- Enter NEUTRAL_WAIT: the auto-idle delay timer starts (R124). -/
def State.enterNeutralWait (s : State) : State :=
  (s.enterEco .neutralWait).onEco fun e =>
    { e with delayTimer := some (after s.now (e.delay * 1000)), delayStart := s.now }

/-- Enter WORK, and from it NEUTRAL_WAIT when the idle permit holds (R124). -/
def State.enterWork (s : State) : State :=
  let s := s.enterEco .work
  if s.idlePermit then s.enterNeutralWait else s

/-- The recovery test of RECOVER (R126). -/
def State.recoveryTest (s : State) : State :=
  if s.eco.state = .recover ∧
      (s.eco.target : Int) - s.img.economy.tolerance ≤ (s.mailbox .engineState).speed then
    (s.clearNotice 0x73).enterWork
  else s

/-- Enter RECOVER: the recovery timer starts and the test is made (R126). -/
def State.enterRecover (s : State) : State :=
  let s := s.enterEco .recover
  (s.onEco fun e =>
    { e with recoveryTimer := some (after s.now (s.img.economy.recoveryTimeout.toNat * 1000)) }).recoveryTest

/-- The idle permit or a part of it has changed (R122, R124, R125). -/
def State.permitEvent (s : State) : State :=
  match s.eco.state with
  | .work => if s.idlePermit then s.enterNeutralWait else s
  | .neutralWait => if s.idlePermit then s else s.enterWork
  | .idleLow => if s.idlePermit then s else s.enterRecover
  | .off | .recover | .yielded => s

/-- The mode, the caps or the derate have changed: the record is formed, a changed Nt is tested in RECOVER,
and the permit is taken (R116, R121, R126). -/
def State.reformTarget (s : State) : State :=
  let s' := s.reform
  if s'.eco.target = s.eco.target then s' else s'.recoveryTest

/-- RULE writes ECO's three fields as one replacement (R71, R121); in RUN the record and the test of RECOVER precede the
permit, the model's choice (log 7). -/
def State.writeCaps (s : State) (a : RuleActions) : State :=
  let s := s.onEco fun e => { e with speedCap := a.speedCap, pumpCap := a.pumpCap, idleInhibit := a.idleInhibit }
  if s.inRun then s.reformTarget.permitEvent else s

/-- SVC hands ECO a change of the derate flag; outside RUN it shows at the next forming (R121, R147). -/
def State.derateEvent (s : State) : State := if s.inRun then s.reformTarget else s

/-! ## Stream events -/

/-- ECO forms the engine-running condition, which drives OFF (R118, R123). -/
def State.engineCondition (s : State) : State :=
  let running := s.engineRunning
  let s := s.onEco fun e => { e with running := running }
  if running then (if s.eco.state = .off then s.enterWork else s)
  else (if s.eco.state = .off then s else s.enterEco .off)

/-- Take an interval of fuel into the total and the remainder (R132). -/
def addFuel (rate dt : Nat) (e : Eco) : Eco :=
  let n := e.fuelRem + rate * dt
  { e with fuelTotal := e.fuelTotal + BitVec.ofNat 32 (n / 72000), fuelRem := n % 72000 }

/-- A fuel gap: its milliseconds go to the gap remainder and whole seconds to SVC (R133, R139). -/
def State.addGap (s : State) (dt : Nat) : State :=
  let n := s.eco.gapRem + dt
  (s.onEco fun e => { e with gapRem := n % 1000 }).onSvc fun v =>
    { v with unaccounted := satAdd 4294967295 v.unaccounted (n / 1000) }

/-- ECO takes the fuel of an ENGINE_STATE arrival (R132, R133). -/
def State.fuelArrival (s : State) (e : Stream) : State :=
  let s := match s.eco.fuelMark with
    | none => s
    | some m =>
      let dt := elapsed e.arrival m.time
      if dt ≤ 2 * e.period then s.onEco (addFuel m.rate dt) else s.addGap dt
  s.onEco fun c => { c with
    fuelMark := if e.state = .fresh then some ⟨e.arrival, e.mailbox.fuelRate⟩ else none }

/-- ECO takes an arrival event of the ENGINE_STATE entry (R118, R126, R132). The condition is formed before the test of
RECOVER, the model's choice: a speed below the threshold goes to OFF, though it would pass the test (log 54). -/
def State.ecoEngineArrival (s : State) (e : Stream) : State := (s.fuelArrival e).engineCondition.recoveryTest

/-- ECO takes a state event of the ENGINE_STATE entry (R118, R132). -/
def State.ecoEngineState (s : State) (e : Stream) : State :=
  (s.onEco fun c => { c with
    fuelMark := if e.state = .stale ∨ e.state = .neverSeen then none else c.fuelMark }).engineCondition

/-- ECO re-forms the lever-neutral timestamp (R119) and hands NTC a change (R158), before ECO takes the permit, the model's
choice (log 7). -/
def State.formNeutral (s : State) (time : Ms) : State :=
  let t := if s.neutral then (match s.eco.neutralSince with
    | some t => some t
    | none => some time) else none
  let s' := s.onEco fun e => { e with neutralSince := t }
  if t = s.eco.neutralSince then s' else s'.takeTimestamp

/-- ECO takes an event of the HYDRAULIC_STATE entry (R119, R122). -/
def State.ecoHydraulic (s : State) (time : Ms) : State := (s.formNeutral time).permitEvent

/-- ECO re-reads the grant (R120), at every event of the ENGINE_GRANT entry, in any node state (R34; log 35). -/
def State.holdGrant (s : State) : State := s.onEco fun e => { e with grant := s.readGrant }

/-- ECO takes an event of the ENGINE_GRANT entry in RUN: a foreign grant runs the yield timer, and YIELDED ends with it
(R120, R127). -/
def State.ecoGrant (s : State) : State :=
  let s := s.holdGrant.onEco (watchYield s.now s.img.economy)
  if s.eco.state = .yielded ∧ s.eco.grant ≠ .foreign then s.enterWork else s

/-! ## Cycles -/

/-- SVC hands ECO a new cycle count (R134). -/
def State.ecoCycle (s : State) (cycles : Nat) : State :=
  let s' := s.offerBackground (s.frame .cycleReport 0xFF (cycleData cycles (s.eco.fuelTotal - s.eco.cycleMark)))
  s'.onEco fun e => { e with cycleMark := e.fuelTotal }

/-! ## Node states -/

/-- The entry to RUN: timestamp and record are formed, then WORK when the engine runs (R119, R123, R136); the grant is
held since its last event (R120). The rule fields are absent since RULE withdrew them at the last departure. -/
def State.ecoEnterRun (s : State) : State := (s.formNeutral s.now).reform.engineCondition

/-- The timers of the entry to RUN (R130, R135). -/
def ecoStartTimers (now : Ms) (e : Eco) : Eco :=
  { e with
    requestTimer := some (after now 100)
    secondTimer := some (after now 1000)
    reportTimer := some (after now 10000)
    fuelMark := none }

/-- Leaving RUN: OFF, every timer stopped, timestamp, mark and rule fields absent (R79, R136). -/
def leaveEco (p : EcoConfig) (derate : Bool) (e : Eco) : Eco :=
  Eco.formRecord p derate { e with
    state := .off
    running := false
    neutralSince := none
    speedCap := none
    pumpCap := none
    idleInhibit := false
    delayTimer := none
    recoveryTimer := none
    yieldTimer := none
    requestTimer := none
    secondTimer := none
    reportTimer := none
    fuelMark := none }

end Sys2Proof.Machine
end

