-- ==== Sys2Proof/Machine/Channel.lean ====
section
/-! DEFINITION. VCH, the valve channels: demands, target, adopted duty, state and pin (chapter 6), and the
LIMIT STATUS frame that carries the channel states (R61). -/

namespace Sys2Proof.Machine

/-! ## LIMIT STATUS -/

/-- Limit state codes (10.7, GUIDANCE). -/
def limitStateCode : LimitState → Nat
  | .off => 0 | .fault => 1 | .clear => 2 | .approach => 3 | .stop => 4

/-- Channel state codes (10.7, LIMIT STATUS). -/
def channelStateCode : ChannelState → Nat
  | .unused => 0 | .pass => 1 | .cutting => 2 | .releasing => 3 | .full => 4

/-- LIMIT STATUS data; `change` for a frame of class URGENT (R61, 10.7). -/
def limitStatusData (s : State) (change : Bool) : List Byte :=
  (Limit.all.map fun l => byteOf (limitStateCode (s.lim.records.get l).state))
    ++ (Channel.all.map fun c => byteOf (channelStateCode (s.vch.get c).state))
    ++ [byteOf (bit change)]

/-- LIM offers a LIMIT STATUS of class URGENT for a change (R61). -/
def State.offerStatusChange (s : State) : State := s.offer .urgent .limitStatus 0xFF (limitStatusData s true)

/-! ## Demands -/

/-- Update one channel's record. -/
def State.onChannel (s : State) (c : Channel) (f : ChannelRecord → ChannelRecord) : State :=
  s.onVch fun v => v.set c (f (v.get c))

/-- A writer writes its demand field; outside RUN the write is discarded (R99). -/
def State.writeDemand (s : State) (c : Channel) (f : ChannelRecord → ChannelRecord) : State :=
  if s.inRun then s.onChannel c f else s

/-- Write a demand field of every channel, each with its own value. -/
def State.writeDemands (s : State) (f : Channel → ChannelRecord → ChannelRecord) : State :=
  Channel.all.foldl (fun s c => s.writeDemand c (f c)) s

/-! ## The period start -/

/-- The target cut: the largest present demand, or 0 (R101). -/
def targetCut (r : ChannelRecord) : Nat :=
  max (max (r.limit.getD 0) (r.rule.getD 0)) (max (r.hold.getD 0) (r.fail.getD 0))

/-- The target duty of a cut in counts of a period of M, rounded half up (R101). -/
def dutyOf (k m : Nat) : Nat := (k * m + 500) / 1000

/-- The state of a used channel from its duty and target (R105). -/
def channelStateOf (m d dt : Nat) : ChannelState :=
  if d = 0 then .pass else if d = m then .full else if d = dt then .cutting else .releasing

/-- A period start of a used channel: target, duty by the release ramp, state and pin (R100 to R105). -/
def startPeriod (cfg : ChannelConfig) (r : ChannelRecord) : ChannelRecord :=
  let k := targetCut r
  let dt := dutyOf k cfg.modulus
  let d := max dt (r.duty - cfg.release)
  { r with
    target := k
    targetDuty := dt
    duty := d
    counter := 0
    subCount := 0
    state := channelStateOf cfg.modulus d dt
    pin := 0 < d }

/-- A channel's period starts; an unused channel runs no counter, nor does any outside RUN (R97, R109). -/
def State.beginPeriod (s : State) (c : Channel) : State :=
  let cfg := s.img.channels.get c
  if s.inRun && cfg.used then s.onChannel c (startPeriod cfg) else s

/-- A period start as the part takes it: a change of the channel's state is handed to LIM, which offers an URGENT LIMIT
STATUS (R61, R106). -/
def State.periodStart (s : State) (c : Channel) : State :=
  let s' := s.beginPeriod c
  if (s'.vch.get c).state = (s.vch.get c).state then s' else s'.offerStatusChange

/-- The counter reaches a duty between 1 and M − 1: the output goes low (R103). -/
def endDuty (cfg : ChannelConfig) (r : ChannelRecord) : ChannelRecord :=
  if r.pin ∧ 0 < r.duty ∧ r.duty < cfg.modulus then
    { r with counter := r.duty, subCount := 0, pin := false }
  else r

/-- The pin of a used channel as its counter and duty give it (R103). -/
def pinLevel (r : ChannelRecord) : Bool := r.counter < r.duty

/-! ## Node states -/

/-- A channel's record outside RUN: no demand, no duty, output low (R98, R108, R109). -/
def emptyChannel (cfg : ChannelConfig) : ChannelRecord :=
  ChannelRecord.reset (if cfg.used then .pass else .unused)

/-- Every channel's record outside RUN. -/
def emptyChannels (im : Image) : PerChannel ChannelRecord :=
  PerChannel.tabulate fun c => emptyChannel (im.channels.get c)

/-! ## The commands of VCH -/

/-- PERIOD_START of a channel (R102). One sent before the counter has come to its end is taken as the event all the same,
and the time base stays (log 46). -/
def execPeriodStart (c : Channel) (s : State) : Host.Outcome State Fault Refusal :=
  .next (s.periodStart c)

/-- DUTY_END of a channel (R103). One sent before the counter has reached the duty is taken as the event all the same, and
the time base stays (log 46). -/
def execDutyEnd (c : Channel) (s : State) : Host.Outcome State Fault Refusal :=
  let cfg := s.img.channels.get c
  .next (if s.inRun && cfg.used then s.onChannel c (endDuty cfg) else s)

end Sys2Proof.Machine
end

