-- ==== Sys2Proof/Machine/Rule.lean ====
section
/-! DEFINITION. RULE, the rule table: lookup, winner change, rebuild and statistics (chapter 4). -/

namespace Sys2Proof.Machine

/-! ## Lookup -/

/-- A slot matches a key: equal in every bit under the care mask (R68, R70). -/
def slotMatches (k : Key) (r : RuleSlot) : Bool := (k &&& r.care) == (r.key &&& r.care)

/-- The winner for a key: the highest matching slot, else the default rule, 32 (R70). Slots stand in
ascending order of their indices. -/
def lookup (slots : List RuleSlot) (k : Key) : Nat :=
  (((slots.filter (slotMatches k)).getLast?).map (·.index)).getD 32

/-- The action fields of a winner; the default rule holds no notice (R69). -/
def State.actions (s : State) (w : Nat) : RuleActions :=
  match s.img.rules.find? fun r => r.index == w with
  | some r => r.actions
  | none => { s.img.defaultRule with notice := false }

/-! ## Winner change -/

/-- RULE writes the six RULE demands of the new winner (R71). -/
def State.writeCuts (s : State) (a : RuleActions) : State :=
  s.writeDemands fun c r => { r with rule := a.cuts.get c }

/-- RULE replaces its class 2 request (R72); with no pattern on either side there is nothing to replace. -/
def State.ruleSound (s : State) (old new : Option Pattern) : State :=
  if old.isSome || new.isSome then s.sound fun now d => sndClass2 now new d else s

/-- The pattern of action fields. -/
def soundOf (a : RuleActions) : Option Pattern := a.sound.bind id

/-- RULE clears the old winner's notice (R73). -/
def State.clearRuleNotice (s : State) (old : Option Nat) : State :=
  match old with
  | some w => if (s.actions w).notice then s.clearNotice (0x40 + w) else s
  | none => s

/-- RULE raises the new winner's notice with the zones of the key (R73). -/
def State.raiseRuleNotice (s : State) (w : Nat) (k : Key) : State :=
  if (s.actions w).notice then
    let z := keyZones k
    s.raiseNotice (0x40 + w) none (.zones z.1 z.2.1 z.2.2)
  else s

/-- A winner change (R71 to R74). The class 2 request is replaced before the notices, and the old notice is cleared before
the new one is raised (log 7). -/
def State.changeWinner (s : State) (w : Nat) (k : Key) : State :=
  let old := s.rule.winner
  let a := s.actions w
  let s := s.onRule fun u => { u with winner := some w, hits := u.hits.set w (sat16 (u.hits.getD w 0)) }
  let s := ((s.writeCuts a).writeCaps a).ruleSound (old.bind fun o => soundOf (s.actions o)) (soundOf a)
  (s.clearRuleNotice old).raiseRuleNotice w k

/-- A lookup for the held key (R70). -/
def State.lookupKey (s : State) (k : Key) : State :=
  let w := lookup s.img.rules k
  if s.rule.winner = some w then s else s.changeWinner w k

/-- RULE rebuilds the zone key in RUN and looks up a changed one; with no key held it looks up without
comparing (R66, R67, R78). -/
def State.rebuild (s : State) : State :=
  if s.inRun then
    let k := s.zoneKey
    if s.rule.key = some k then s
    else (s.onRule fun u => { u with key := some k }).lookupKey k
  else s

/-- Leaving RUN: no winner, no key, no reply (R79). -/
def leaveRule (u : RuleUnit) : RuleUnit := { u with winner := none, key := none, reply := none }

/-! ## The commands of RULE -/

/-- SET_PROFILE decided: the result and the profile after it (R75). -/
def decideProfile (inRun : Bool) (held : Nat) (v : Int) : SettingResult × Nat :=
  if !inRun then (.refused .state, held)
  else if v < 0 ∨ 3 < v then (.refused .range, held)
  else (.accepted, v.toNat)

/-- SET_PROFILE (R75). -/
def execSetProfile (s : State) : Host.Outcome State Fault Refusal :=
  match s.itemFor 0x18 with
  | none => .next s
  | some i =>
    let d := decideProfile s.inRun s.rule.profile i.value
    let s' := s.takeItem.onRule fun u => { u with profile := d.2 }
    .next ((if d.2 = s.rule.profile then s' else s'.rebuild).respond i d.1 (some d.2) none none)

/-- RULE_STATS (R76). -/
def execRuleStats (s : State) : Host.Outcome State Fault Refusal :=
  match s.headFor .ruleStats with
  | none => .next s
  | some f =>
    let s := s.takeFrame
    .next (if s.inRun then
        s.beginReply .rule f.source (some (ruleHeader s)) (s.img.rules.map (·.index) ++ [32])
      else s)

/-- RULE_STATS_CLEAR (R77). -/
def execRuleStatsClear (s : State) : Host.Outcome State Fault Refusal :=
  match s.headFor .ruleStatsClear with
  | none => .next s
  | some f =>
    let s := s.takeFrame
    .next (if s.inRun then
        let running := keyEngineRunning (s.rule.key.getD 0)
        let s := if running then s else s.onRule fun u => { u with hits := List.replicate 33 0 }
        s.offerBackground (s.frame .statsReply f.source (replyData 4 [byteOf (bit running)]))
      else s)

end Sys2Proof.Machine
end

