-- ==== Sys2Proof/Machine/Hold.lean ====
section
/-! DEFINITION. HOLD, the hold table: requests, placing, responses, countdown and hand-over (chapter 5). -/

namespace Sys2Proof.Machine

/-! ## Demands and hand-over -/

/-- The mask, level pairs of the entries in use, the overflow entry included (R92). -/
def HoldTable.leases (h : HoldTable) : List (Mask × Nat) :=
  h.entries.map (fun e => (e.mask, e.level)) ++ (h.overflow.map fun o => (o.mask, o.level)).toList

/-- The largest of some levels; absent when there is none. -/
def largest : List Nat → Option Nat
  | [] => none
  | n :: ns => some ((largest ns).elim n (max n))

/-- The hold demand on a channel (R92). -/
def HoldTable.demand (h : HoldTable) (c : Channel) : Option Nat :=
  largest ((h.leases.filter fun l => l.1.getLsbD c.num).map (·.2))

/-- A change of the table with what it hands on: demands, table activity, and the clear of 0x38 when the table
becomes empty (R92, R93). RULE's rebuild comes before the clear, and before the chirp and the raise of `holdPlaced` (log 7). -/
def State.changeHold (s : State) (f : HoldTable → HoldTable) : State :=
  let s' := s.onHold f
  let s' := s'.writeDemands fun c r => { r with hold := s'.hold.demand c }
  let s' := if s'.hold.active = s.hold.active then s' else s'.rebuild
  if s.hold.active && !s'.hold.active then s'.clearNotice 0x38 else s'

/-! ## Deciding a request -/

/-- Refusal reasons of a HOLD RESPONSE (R90). -/
inductive HoldRefusal where
  | state | level | mask
  deriving DecidableEq, Repr

/-- Results of a request (R90). -/
inductive HoldResult where
  | accepted | clamped | merged | released | notHeld
  | refused (r : HoldRefusal)
  deriving DecidableEq, Repr

/-- What a request brings: the table after it, the result, accepted mask, granted and held time, and whether a
new entry or a merge was made (R84 to R90). -/
structure HoldDecision where
  table : HoldTable
  result : HoldResult
  mask : Mask
  granted : Nat
  held : Nat
  placed : Bool
  deriving DecidableEq, Repr

/-- The requester entry of an address. -/
def HoldTable.entryOf (h : HoldTable) (a : Byte) : Option HoldEntry := h.entries.find? fun e => e.requester == a

/-- A merge into the overflow entry (R89). -/
def mergeOverflow (o : Option Overflow) (m : Mask) (level granted : Nat) : Overflow :=
  match o with
  | none => ⟨m, level, granted⟩
  | some o => ⟨o.mask ||| m, max o.level level, max o.remaining granted⟩

/-- A release that passes the checks (R85). -/
def decideRelease (now : Ms) (h : HoldTable) (r : HoldRequest) : HoldDecision :=
  match h.entryOf r.requester with
  | some e =>
    ⟨{ h with entries := h.entries.filter fun x => x.requester != r.requester }, .released, e.mask, 0,
      min 65535 (elapsed now e.accept / 10), false⟩
  | none => ⟨h, .notHeld, 0, 0, 0, false⟩

/-- A hold that passes the checks: refresh, new entry or merge (R86 to R89). -/
def decidePlace (cfg : HoldConfig) (now : Ms) (h : HoldTable) (r : HoldRequest) : HoldDecision :=
  let m := r.mask &&& cfg.mask
  let granted := min r.time cfg.tmax
  let result := if m ≠ r.mask ∨ granted < r.time then HoldResult.clamped else .accepted
  if (h.entryOf r.requester).isSome then
    ⟨{ h with entries := h.entries.map fun e =>
        if e.requester = r.requester then { e with mask := m, level := r.level, remaining := granted } else e },
      result, m, granted, 0, false⟩
  else if h.entries.length < 8 then
    ⟨{ h with entries := h.entries ++ [⟨r.requester, m, r.level, granted, now⟩] }, result, m, granted, 0, true⟩
  else
    ⟨{ h with overflow := some (mergeOverflow h.overflow m r.level granted) }, .merged, m, granted, 0, true⟩

/-- A request taken in RUN (R84). -/
def decideHold (cfg : HoldConfig) (now : Ms) (h : HoldTable) (r : HoldRequest) : HoldDecision :=
  if r.level = 0 ∨ 1000 < r.level then ⟨h, .refused .level, 0, 0, 0, false⟩
  else if r.mask &&& cfg.mask = 0 then ⟨h, .refused .mask, 0, 0, 0, false⟩
  else if r.time = 0 then decideRelease now h r
  else decidePlace cfg now h r

/-- Result and refusal bytes (10.7). -/
def holdResultBytes : HoldResult → List Byte
  | .accepted => [0, 0] | .clamped => [1, 0] | .merged => [2, 0] | .released => [3, 0] | .notHeld => [4, 0]
  | .refused .state => [5, 1] | .refused .level => [5, 2] | .refused .mask => [5, 3]

/-- HOLD offers the HOLD RESPONSE of a decision (R90, 10.7). -/
def State.holdResponse (s : State) (r : HoldRequest) (d : HoldDecision) : State :=
  s.offer .urgent .holdResponse r.requester
    (holdResultBytes d.result ++ [d.mask.setWidth 8] ++ be2 d.granted ++ be2 d.held ++ [byteOf r.reason])

/-- A new entry or a merge places the chirp and raises 0x38 (R93). -/
def State.holdPlaced (s : State) (r : HoldRequest) : State :=
  (s.sound sndChirp).raiseNotice 0x38 none
    (.hold r.requester r.reason s.hold.entries.length s.hold.overflow.isSome)

/-- HOLD takes a request (R83 to R93). -/
def State.takeHold (s : State) (r : HoldRequest) : State :=
  if r.requester = 0xFE ∨ r.requester = 0xFF then s
  else
    match s.cfg.node with
    | .run =>
      let d := decideHold s.img.holds s.now s.hold r
      let s' := s.changeHold fun _ => d.table
      (if d.placed then s'.holdPlaced r else s').holdResponse r d
    | .join | .store => s.holdResponse r ⟨s.hold, .refused .state, 0, 0, 0, false⟩
    | .startRead | .configFault | .recordRead | .quiet => s

/-! ## Countdown -/

/-- One quantum taken from every entry in use; those that reach 0 are removed (R91). -/
def countDown (h : HoldTable) : HoldTable :=
  { h with
    entries := (h.entries.map fun e => { e with remaining := e.remaining - 1 }).filter fun e => 0 < e.remaining
    overflow := (h.overflow.map fun o => { o with remaining := o.remaining - 1 }).filter fun o => 0 < o.remaining }

/-- The entry of a requester, or the overflow entry, has one quantum left. -/
def HoldTable.expiring (h : HoldTable) (who : Option Byte) : Bool :=
  match who with
  | some a => (h.entryOf a).any fun e => e.remaining ≤ 1
  | none => h.overflow.any fun o => o.remaining ≤ 1

/-- An entry is removed (R91). -/
def removeEntry (who : Option Byte) (h : HoldTable) : HoldTable :=
  match who with
  | some a => { h with entries := h.entries.filter fun e => e.requester != a }
  | none => { h with overflow := none }

/-! ## The commands of HOLD -/

/-- HOLD_REQUEST (R83). -/
def execHoldRequest (s : State) : Host.Outcome State Fault Refusal :=
  match s.headFor .hold with
  | none => .next s
  | some f => .next (s.takeFrame.takeHold (readHoldRequest f))

/-- QUANTUM_TIMER_EXPIRY (R91). -/
def execQuantumTimerExpiry (s : State) : Host.Outcome State Fault Refusal :=
  match s.hold.quantumTimer with
  | none => .next s
  | some d =>
    .next ((s.arriveAt d).changeHold fun h => { countDown h with quantumTimer := some (after d 10) })

/-- HOLD_ENTRY_EXPIRY: the last quantum of an entry ends with the next expiry of the quantum timer, at whose
instant the entry is removed (R91; log 14). -/
def execHoldEntryExpiry (who : Option Byte) (s : State) : Host.Outcome State Fault Refusal :=
  match s.hold.quantumTimer with
  | none => .next s
  | some d => .next (if s.hold.expiring who then (s.arriveAt d).changeHold (removeEntry who) else s)

end Sys2Proof.Machine
end

