-- ==== Sys2Proof/Machine/Service.lean ====
section
/-! DEFINITION. SVC, the service counter: base counts, dig cycle detector, items, re-reminding, derate,
SERVICE_DONE, record writes and reports (chapter 8); the CRC and the layout of the service record
(R189, 11.3). RECORD_WRITE_DONE and RECORD_WRITE_TIMEOUT stand in Node.lean. -/

namespace Sys2Proof.Machine

/-! ## CRC -/

/-- One bit of the CRC: generator 0x1021, most significant bit first (R189). -/
def crcBit (c : BitVec 16) : BitVec 16 := if c.msb then (c <<< 1) ^^^ 0x1021 else c <<< 1

/-- One byte of the CRC (R189). -/
def crcByte (c : BitVec 16) (b : Byte) : BitVec 16 :=
  (List.range 8).foldl (fun c _ => crcBit c) (c ^^^ (b.setWidth 16 <<< 8))

/-- The CRC of a run of bytes, initial value 0xFFFF (R189). -/
def crc (bytes : List Byte) : BitVec 16 := bytes.foldl crcByte 0xFFFF

/-- A block whose last two bytes are the CRC of those before (R189, 11.3). -/
def crcHolds (bytes : List Byte) : Bool :=
  2 ≤ bytes.length && (crc (bytes.take (bytes.length - 2))).toNat == u16At bytes (bytes.length - 2)

/-! ## The service record -/

/-- Two bytes of a signed value, 0 for an absent one (11.3). -/
def optField (v : Option Int) : List Byte := be2 (v.getD 0)

/-- The limit set as the record stores it: presence and the seven values (11.3). -/
def limitBytes (l : LimitSet) : List Byte :=
  [byteOf (bit l.floor.isSome + 2 * bit l.ceiling.isSome + 4 * bit l.reach.isSome
      + 8 * bit l.slewLeft.isSome + 16 * bit l.slewRight.isSome)]
    ++ optField (l.floor.map (·.f0)) ++ optField (l.floor.map (·.s)) ++ optField (l.floor.map (·.r0))
    ++ optField l.ceiling ++ optField l.reach ++ optField l.slewLeft ++ optField l.slewRight

/-- The last-done value of an item number; 0 for a number that no item has (log 27). -/
def lastDoneOf (items : List ServiceItem) (n : Nat) : Nat :=
  ((items.find? fun i => i.config.number == n).map (·.lastDone)).getD 0

/-- The snapshot of a record write, without its CRC: 126 bytes (R149, 11.3). -/
def recordBody (s : State) : List Byte :=
  be4 s.svc.engineSeconds ++ be4 s.svc.weighted ++ be4 s.svc.cycles ++ be4 s.svc.unaccounted
    ++ be4 s.eco.fuelTotal.toNat ++ be4 s.eco.fuelRem
    ++ ((List.range 16).flatMap fun n => be4 (lastDoneOf s.svc.items (n + 1)))
    ++ limitBytes s.lim.set
    ++ [byteOf s.eco.mode.code, byteOf (bit s.eco.autoIdle), byteOf s.eco.delay, byteOf s.rule.profile]
    ++ List.replicate 19 0

/-- The block handed to the memory port (R149). -/
def recordBlock (s : State) : List Byte :=
  let b := recordBody s
  b ++ be2 (crc b).toNat

/-- A write starts with its snapshot (R149, R150). -/
def State.startWrite (s : State) : State :=
  let b := recordBlock s
  s.onSvc fun v => { v with write := some ⟨b, after s.now 50⟩ }

/-- A record write is requested (R150). -/
def State.requestWrite (s : State) : State :=
  if s.svc.write.isNone then s.startWrite else s.onSvc fun v => { v with again := true }

/-- CFG takes a succeeded write: the record-lost flag is cleared, with notice 0x70 in RUN (R192). -/
def State.recordGood (s : State) : State :=
  match s.cfg.recordLost with
  | none => s
  | some _ => (s.onCfg fun c => { c with recordLost := none }).clearNotice 0x70

/-- A write ends: outcome, failure count and a follow-up (R150). -/
def State.endWrite (s : State) (ok : Bool) : State :=
  let s := s.onSvc fun v => { v with
    write := none
    lastFailed := !ok
    writeFails := if ok then v.writeFails else sat16 v.writeFails }
  let s := if ok then s.recordGood else s
  if s.svc.again then (s.onSvc fun v => { v with again := false }).startWrite else s

/-! ## Items -/

/-- The point at which an item becomes DUE_SOON (R144). -/
def ServiceItem.soonPoint (i : ServiceItem) : Nat := i.duePoint - i.config.lead * basisMultiplier i.basis

/-- The point at which an item becomes OVERDUE (R144). -/
def ServiceItem.overPoint (i : ServiceItem) : Nat := i.duePoint + i.config.grace * basisMultiplier i.basis

/-- The state of an item at a reading (R144). -/
def ServiceItem.stateAt (i : ServiceItem) (reading : Nat) : ItemState :=
  if reading < i.soonPoint then .ok
  else if reading < i.duePoint then .dueSoon
  else if reading < i.overPoint then .due
  else .overdue

/-- The severity of an item state's notice (R145); OK has none. -/
def itemSeverity : ItemState → Option Severity
  | .ok => none | .dueSoon => some .info | .due => some .caution | .overdue => some .warning

/-- SVC raises the notice of an item with the severity of its state (R145). -/
def State.raiseItem (s : State) (i : ServiceItem) : State :=
  match itemSeverity i.state with
  | none => s
  | some v =>
    s.raiseNotice i.config.number (some v)
      (.service i.config.name i.state (i.inReport (s.svc.reading i)) (i.inReport i.duePoint))

/-- An item after an evaluation: a rise of state makes the re-remind time absent (R144, R145). -/
def evaluated (v : Svc) (i : ServiceItem) : ServiceItem :=
  let st := i.stateAt (v.reading i)
  { i with state := st, remind := if itemStateCode i.state < itemStateCode st then none else i.remind }

/-- The derate flag as the items give it (R147). -/
def derateOf (items : List ServiceItem) : Bool := items.any fun i => i.config.derate && i.state == .overdue

/-- SVC re-forms the derate flag and hands ECO a change (R147). -/
def State.formDerate (s : State) : State :=
  let d := derateOf s.svc.items
  if d = s.svc.derate then s else (s.onSvc fun v => { v with derate := d }).derateEvent

/-- SVC evaluates the items that `p` selects: states, notices of those that rise, derate (R144, R145, R147). The notices go
by ascending item number, before the derate, the model's choice (logs 7, 53). -/
def State.evaluate (s : State) (p : ServiceItem → Bool) : State :=
  let rising := (s.svc.items.filter p).filter fun i =>
    itemStateCode i.state < itemStateCode (evaluated s.svc i).state
  let s' := s.onSvc fun v => { v with items := v.items.map fun i => if p i then evaluated v i else i }
  (rising.foldl (fun t i => t.raiseItem (evaluated s.svc i)) s').formDerate

/-- The re-remind time of one item has run out (R146). -/
def State.remindAgain (s : State) (i : ServiceItem) : State :=
  if i.state = .due ∨ i.state = .overdue then s.raiseItem i else s

/-- A second is taken from every present re-remind time; those that reach 0 end (R146), and their notices go by ascending
item number, the model's choice (log 53). -/
def State.countReminds (s : State) : State :=
  let ending := s.svc.items.filter fun i => i.remind.any (· ≤ 1)
  let s := s.onSvc fun v => { v with items := v.items.map fun i =>
    { i with remind := (i.remind.map (· - 1)).filter (0 < ·) } }
  ending.foldl State.remindAgain s

/-- NTC hands SVC an acknowledgement of a service notice (R146). -/
def State.ackItem (s : State) (id : Nat) : State :=
  s.onSvc fun v => { v with items := v.items.map fun i =>
    if i.config.number = id ∧ (i.state = .due ∨ i.state = .overdue) then
      { i with remind := some s.img.service.remind.toNat }
    else i }

/-! ## The one-second timer -/

/-- The limit of engine seconds (R137). -/
def engineLimit : Nat := 357913941

/-- A second of running engine is still counted (R137, R138). -/
def State.countsRunning (s : State) : Bool := s.engineRunning && decide (s.svc.engineSeconds < engineLimit)

/-- The weighted increment of a load (R138). -/
def weightOf (load : Nat) : Nat := 4 + load * 8 / 100

/-- The second as the counters take it (R138). -/
def State.countSecond (s : State) : State :=
  if s.engineRunning then
    if s.svc.engineSeconds < engineLimit then
      s.onSvc fun v => { v with
        engineSeconds := v.engineSeconds + 1
        weighted := v.weighted + weightOf (s.mailbox .engineState).load }
    else s
  else if (s.streamState .engineState).heard then s
  else s.onSvc fun v => { v with unaccounted := satAdd 4294967295 v.unaccounted 1 }

/-- An item measured in hours. -/
def inHours (i : ServiceItem) : Bool := i.basis == .engineHours || i.basis == .weightedHours

/-- SVC takes an expiry of its one-second timer (R138, R146, R149). The items are evaluated before the re-remind times are
counted down, the model's choice: an item that rises in that second is not reminded of as well (log 55). -/
def State.svcSecond (s : State) : State :=
  let running := s.countsRunning
  let s := s.countSecond
  if running then
    let s := s.evaluate inHours
    let s := if s.svc.engineSeconds % 360 = 0 then s.requestWrite else s
    s.countReminds
  else s

/-! ## The dig cycle detector -/

/-- What one step of the detector gives: the state, ψ0, and whether a cycle is completed (R141). -/
def detectorStep (cfg : ServiceConfig) (usable slewValid : Bool) (height psi : Int)
    (d : DetectorState) (psi0 : Option Int) : DetectorState × Option Int × Bool :=
  if !usable || !slewValid then (.ready, none, false)
  else
    match d with
    | .ready => (if height < cfg.digLevel then .dig else .ready, none, false)
    | .dig => if cfg.liftLevel < height then (.lifted, some psi, false) else (.dig, none, false)
    | .lifted =>
      if cfg.minSwing ≤ (wrapAngle (psi - psi0.getD 0)).natAbs then (.ready, none, true)
      else if height < cfg.digLevel then (.dig, none, false)
      else (.lifted, psi0, false)

/-- A cycle is counted (R142). -/
def State.countCycle (s : State) : State :=
  if s.svc.cycles < 4294967295 then
    let s := s.onSvc fun v => { v with cycles := v.cycles + 1 }
    (s.evaluate fun i => i.basis == .cycles).ecoCycle s.svc.cycles
  else s

/-- The detector takes one step from the pose record (R22, R141, R142). -/
def State.digStep (s : State) : State :=
  let r := s.pose.record
  let d := detectorStep s.img.service s.poseUsable r.slewValid r.p3Height r.slew s.svc.detector s.svc.psi0
  let s := s.onSvc fun v => { v with detector := d.1, psi0 := d.2.1 }
  if d.2.2 then s.countCycle else s

/-! ## Reports -/

/-- The remaining share of an item, per-mille of its interval (R153). -/
def ServiceItem.share (v : Svc) (i : ServiceItem) : Int :=
  saturate (-32768) 32767
    ((((i.duePoint : Int) - v.reading i) * 1000) / (i.config.interval * basisMultiplier i.basis : Nat))

/-- The nearest item: the smallest share, the lower number of two equal (R153). -/
def Svc.nearest (v : Svc) : Option ServiceItem :=
  v.items.foldl (fun best i => match best with
    | none => some i
    | some b =>
      if i.share v < b.share v ∨ (i.share v = b.share v ∧ i.config.number < b.config.number) then some i else some b) none

/-- The nearest item's number, state and remaining share as SERVICE SUMMARY carries them; with no items the number is 0, and
the state and the share are free (R153; log 50). -/
def State.nearestReport (s : State) : List Byte :=
  match s.svc.nearest with
  | none => 0 :: Config.absentItemState s.now :: be2 (Config.absentItemShare s.now).toNat
  | some i => [byteOf i.config.number, byteOf (itemStateCode i.state)] ++ be2 (i.share s.svc)

/-- SERVICE SUMMARY data, each field read now (R153, 10.7). -/
def summaryData (s : State) : List Byte :=
  let v := s.svc
  be4 (v.engineSeconds / 360 : Nat) ++ be4 (v.weighted / 2880 : Nat) ++ be4 v.cycles ++ be4 v.unaccounted
    ++ [byteOf (bit v.derate + 2 * bit v.lastFailed)] ++ be2 v.writeFails ++ s.nearestReport ++ [0]

/-! ## SERVICE_DONE -/

/-- The item that a number names. -/
def Svc.itemOf (v : Svc) (n : Int) : Option ServiceItem := v.items.find? fun i => (i.config.number : Int) == n

/-- SERVICE_DONE decided (R148). -/
def decideServiceDone (s : State) (n : Int) : SettingResult :=
  if !s.inRun then .refused .state
  else if (s.svc.itemOf n).isNone then .refused .range
  else if s.engineRunning then .refused .engineRunning
  else .accepted

/-- An item whose service is done now (R148). -/
def serviced (v : Svc) (n : Int) (i : ServiceItem) : ServiceItem :=
  if (i.config.number : Int) = n then { i with lastDone := v.reading i, state := .ok, remind := none } else i

/-- An accepted SERVICE_DONE (R148). -/
def State.doService (s : State) (n : Int) : State :=
  let s := s.onSvc fun v => { v with items := v.items.map (serviced v n) }
  ((s.clearNotice n.toNat).formDerate).requestWrite

/-- The response carries the item, its last-done value and its due point in the unit of reports (R148, 10.7);
of a number that names no item, the number alone (log 23). -/
def State.respondService (s : State) (i : SettingItem) (r : SettingResult) : State :=
  let it := s.svc.itemOf i.value
  s.respond i r (some i.value) (it.map fun x => (x.inReport x.lastDone : Int))
    (it.map fun x => (x.inReport x.duePoint : Int))

/-! ## Node states -/

/-- The timers of the entry to RUN, and the re-remind times made absent (R154). -/
def svcStartTimers (now : Ms) (v : Svc) : Svc :=
  { v with
    secondTimer := some (after now 1000)
    summaryTimer := some (after now 10000)
    items := v.items.map fun i => { i with remind := none } }

/-- The entry to RUN: items are evaluated and every one that is not OK raises its notice (R144, R154), by ascending item
number and after the derate flag is formed, the model's choice (log 53). -/
def State.svcEnterRun (s : State) : State :=
  let s := (s.onSvc fun v => { v with items := v.items.map (evaluated v) }).formDerate
  s.svc.items.foldl State.raiseItem s

/-- Leaving RUN: timers stopped, detector READY, reply abandoned (R154). -/
def leaveSvc (v : Svc) : Svc :=
  { v with secondTimer := none, summaryTimer := none, detector := .ready, psi0 := none, reply := none }

/-! ## The commands of SVC -/

/-- SERVICE_DONE (R148). -/
def execServiceDone (s : State) : Host.Outcome State Fault Refusal :=
  match s.itemFor 0x20 with
  | none => .next s
  | some i =>
    let s := s.takeItem
    let r := decideServiceDone s i.value
    .next ((if r = .accepted then s.doService i.value else s).respondService i r)

/-- ITEM_TABLE (R152). -/
def execItemTable (s : State) : Host.Outcome State Fault Refusal :=
  match s.headFor .itemTable with
  | none => .next s
  | some f =>
    let s := s.takeFrame
    .next (if s.inRun then s.beginReply .svc f.source none (s.svc.items.map (·.config.number)) else s)

/-- SVC_SECOND_EXPIRY (R138). -/
def execSvcSecondExpiry (s : State) : Host.Outcome State Fault Refusal :=
  match s.svc.secondTimer with
  | none => .next s
  | some d =>
    .next (((s.arriveAt d).onSvc fun v => { v with secondTimer := some (after d 1000) }).svcSecond)

/-- REREMIND_EXPIRY: the last second of an item's re-remind time ends with the next expiry of the one-second
timer, if that one adds to engine seconds; the reminder is taken at its instant (R146; log 15). -/
def execReremindExpiry (item : Nat) (s : State) : Host.Outcome State Fault Refusal :=
  match s.svc.secondTimer, s.svc.itemOf item with
  | some d, some i =>
    .next (if s.countsRunning && i.remind.any (· ≤ 1) then
        ((s.arriveAt d).onSvc fun v => { v with items := v.items.map fun x =>
          if x.config.number = item then { x with remind := none } else x }).remindAgain i
      else s)
  | _, _ => .next s

/-- SERVICE_SUMMARY_TIMER_EXPIRY (R153). -/
def execServiceSummaryTimerExpiry (s : State) : Host.Outcome State Fault Refusal :=
  match s.svc.summaryTimer with
  | none => .next s
  | some d =>
    let s := (s.arriveAt d).onSvc fun v => { v with summaryTimer := some (after d 10000) }
    .next (s.offerBackground (s.frame .serviceSummary 0xFF (summaryData s)))

end Sys2Proof.Machine
end

