-- ==== Sys2Proof/Machine/Limit.lean ====
section
/-! DEFINITION. LIM, the limit unit: margins, states, allowances, demands, signals, reports and the limit items
(chapter 3). -/

namespace Sys2Proof.Machine

/-! ## Margins -/

/-- The floor height at a reach (R50). -/
def floorHeight (f : Floor) (reach : Int) : Int := f.f0 + (f.s * (reach - f.r0)) / 1000

/-- The floor margin (R50). -/
def floorMargin (f : Floor) (p : PoseRecord) : Int :=
  min (p.p2Height - floorHeight f p.p2Reach) (p.p3Height - floorHeight f p.p3Reach)

/-- The ceiling margin (R51). -/
def ceilingMargin (c : Int) (p : PoseRecord) : Int := c - p.highest

/-- The reach margin (R51). -/
def reachMargin (rl : Int) (p : PoseRecord) : Int := rl - p.maxReach

/-- The arc of a signed angle difference at a radius (R52). -/
def arcLength (radius delta : Int) : Int := (radius * delta * 25736) / 268435456

/-- The radius of the slew margins (R52). -/
def State.slewRadius (s : State) : Int :=
  if s.poseUsable then max 1000 s.pose.record.maxReach else s.img.geometry.maxReach

/-- The left slew margin (R52). -/
def slewLeftMargin (radius limit psi : Int) : Int := arcLength radius (wrapAngle (limit - psi))

/-- The right slew margin (R52). -/
def slewRightMargin (radius limit psi : Int) : Int := arcLength radius (wrapAngle (psi - limit))

/-! ## Limit states -/

/-- Band and stop allowance of a limit, by its type (R42). -/
def bandOf (c : LimitConfig) : Limit → Band
  | .floor => c.floor | .ceiling => c.ceiling | .reach => c.reach | .slewLeft | .slewRight => c.slew

/-- The state of a margin in a band (3.4, R53). -/
def marginState (b m : Int) : LimitState := if b ≤ m then .clear else if 0 < m then .approach else .stop

/-- The margin of a limit now: none when it is absent or its basis unavailable (R50 to R53). -/
def State.marginOf (s : State) : Limit → Option Int
  | .floor => if s.poseUsable then s.lim.set.floor.map fun f => floorMargin f s.pose.record else none
  | .ceiling => if s.poseUsable then s.lim.set.ceiling.map fun c => ceilingMargin c s.pose.record else none
  | .reach => if s.poseUsable then s.lim.set.reach.map fun r => reachMargin r s.pose.record else none
  | .slewLeft => if s.slewValid then s.lim.set.slewLeft.map fun l => slewLeftMargin s.slewRadius l s.psi else none
  | .slewRight => if s.slewValid then s.lim.set.slewRight.map fun l => slewRightMargin s.slewRadius l s.psi else none

/-- The limit record that an evaluation gives (R53). -/
def State.evaluateLimit (s : State) (l : Limit) : LimitRecord :=
  if s.lim.set.has l then
    match s.marginOf l with
    | some m => ⟨marginState (bandOf s.img.limits l).b m, some m⟩
    | none => ⟨.fault, none⟩
  else ⟨.off, none⟩

/-- A limit's record while no evaluation has been made: FAULT when present, OFF when absent (R62). -/
def restingRecord (u : LimitSet) (l : Limit) : LimitRecord := ⟨if u.has l then .fault else .off, none⟩

/-! ## Allowance and demands -/

/-- The cut of a state and margin: 1000 less the allowance; none in FAULT and OFF (R55). -/
def cutOf (b : Band) (r : LimitRecord) : Option Nat :=
  match r.state, r.margin with
  | .clear, _ => some 0
  | .approach, some m => some (1000 - (b.aStop + ((1000 - b.aStop) * m) / b.b)).toNat
  | .approach, none => none
  | .stop, _ => some (1000 - b.aStop).toNat
  | .off, _ => none
  | .fault, _ => none

/-- The LIMIT demand on a channel: the largest cut among the measured limits that hold it (R56). -/
def limitDemand (c : LimitConfig) (r : PerLimit LimitRecord) (ch : Channel) : Option Nat :=
  largest (Limit.all.filterMap fun l =>
    if (c.masks.get l).getLsbD ch.num then cutOf (bandOf c l) (r.get l) else none)

/-- The FAIL demand on a channel: its fail per-mille while a limit in FAULT holds it (R57). -/
def failDemand (c : LimitConfig) (r : PerLimit LimitRecord) (fail : Nat) (ch : Channel) : Option Nat :=
  if Limit.all.any fun l => (c.masks.get l).getLsbD ch.num && (r.get l).state == .fault then some fail else none

/-- LIM writes the LIMIT and FAIL demands of every channel (R56, R57), as one event: no period start of the entry to RUN falls
between them (R107; log 6). -/
def State.writeLimitDemands (s : State) : State :=
  let r := s.lim.records
  let c := s.img.limits
  s.writeDemands fun ch v => { v with
    limit := limitDemand c r ch
    fail := failDemand c r (s.img.channels.get ch).fail ch }

/-! ## Signals -/

/-- The period of the approach cadence of a margin in a band (R59). -/
def cadenceOf (b m : Int) : Nat := (100 + (700 * m) / b).toNat

/-- The margins in APPROACH with their bands. -/
def approaching (c : LimitConfig) (r : PerLimit LimitRecord) : List (Int × Int) :=
  Limit.all.filterMap fun l =>
    match (r.get l).state, (r.get l).margin with
    | .approach, some m => some (m, (bandOf c l).b)
    | _, _ => none

/-- The pair of the smallest margin, and of two the one with the shorter period (R59). -/
def nearer (x y : Int × Int) : Int × Int :=
  if y.1 < x.1 ∨ (y.1 = x.1 ∧ cadenceOf y.2 y.1 < cadenceOf x.2 x.1) then y else x

/-- The class 3 request: the period T, or none with no limit in APPROACH (R59). -/
def cadence (c : LimitConfig) (r : PerLimit LimitRecord) : Option Nat :=
  match approaching c r with
  | [] => none
  | x :: xs => let p := xs.foldl nearer x
    some (cadenceOf p.2 p.1)

/-- At least one limit is in STOP (R58). -/
def anyStop (r : PerLimit LimitRecord) : Bool := Limit.all.any fun l => (r.get l).state == .stop

/-- LIM's notice of one limit as its state changes (R58). -/
def State.stopNotice (s : State) (old : PerLimit LimitRecord) (l : Limit) : State :=
  let was := (old.get l).state
  let now := s.lim.records.get l
  if now.state = .stop ∧ was ≠ .stop then s.raiseNotice (0x30 + l.num) none (.margin (now.margin.getD 0))
  else if now.state ≠ .stop ∧ was = .stop then s.clearNotice (0x30 + l.num)
  else s

/-- LIM's sounder requests of class 1 and 3 (R58, R59), class 1 first, the model's choice (log 7). -/
def State.limitSounds (s : State) : State :=
  let stop := anyStop s.lim.records
  let t := cadence s.img.limits s.lim.records
  let s := if s.snd.class1 = stop then s else s.sound fun now d => sndClass1 now stop d
  if s.snd.class3 = t then s else s.sound fun now d => sndClass3 now t d

/-- A limit state differs between two tables. -/
def statesDiffer (a b : PerLimit LimitRecord) : Bool := Limit.all.any fun l => (a.get l).state != (b.get l).state

/-- LIM forms the records of the limits that `p` selects, with the notices and sounder requests that follow from them
(R53, R58, R59), in that order, the model's choice (log 7). -/
def State.evaluateStates (s : State) (p : Limit → Bool) : State :=
  let old := s.lim.records
  let s := s.onLim fun u => { u with
    records := PerLimit.tabulate fun l => if p l then s.evaluateLimit l else old.get l }
  (Limit.all.foldl (fun t l => t.stopNotice old l) s).limitSounds

/-- LIM evaluates the limits that `p` selects and acts on what changes: demands, URGENT LIMIT STATUS, and the hand-over to
RULE (R54 to R59, R61, R66), in that order, the model's choice (log 7). -/
def State.evaluateLimits (s : State) (p : Limit → Bool) : State :=
  let old := s.lim.records
  let s := (s.evaluateStates p).writeLimitDemands
  if statesDiffer old s.lim.records then s.offerStatusChange.rebuild else s

/-- The slew limits. -/
def isSlew : Limit → Bool
  | .slewLeft | .slewRight => true
  | .floor | .ceiling | .reach => false

/-! ## Reports -/

/-- A margin as GUIDANCE carries it (R60). -/
def guidanceMargin (r : LimitRecord) : List Byte :=
  match r.state, r.margin with
  | .off, _ => be2 0x7FFF
  | .fault, _ => be2 0x7FFF
  | _, m => be2 (saturate (-32768) 32766 (m.getD 0))

/-- GUIDANCE data (R60, 10.7). -/
def guidanceData (s : State) : List Byte :=
  [s.pose.record.sequence]
    ++ (Limit.all.flatMap fun l => guidanceMargin (s.lim.records.get l))
    ++ (Limit.all.map fun l => byteOf (limitStateCode (s.lim.records.get l).state))

/-- LIM offers a GUIDANCE frame (R60). -/
def State.offerGuidance (s : State) : State := s.offer .normal .guidance 0xFF (guidanceData s)

/-! ## The limit set -/

/-- The floor and ceiling are too close (R48). -/
def floorConflict (u : LimitSet) : Bool :=
  match u.floor, u.ceiling with
  | some f, some c => c < f.f0 + 500
  | _, _ => false

/-- The slew sector is too narrow (R48). -/
def slewConflict (u : LimitSet) : Bool :=
  match u.slewLeft, u.slewRight with
  | some l, some r => l - r < 1820
  | _, _ => false

/-- The limit set as LIM takes it from the record or the image (R41). -/
def takeLimitSet (c : LimitConfig) (u : LimitSet) : LimitSet :=
  let u : LimitSet :=
    { floor := u.floor.map fun f =>
        ⟨clampInt (-20000) 10000 f.f0, clampInt c.slopeMin c.slopeMax f.s, clampInt (-32768) 32767 f.r0⟩
      ceiling := u.ceiling.map (clampInt (-5000) 20000)
      reach := u.reach.map (clampInt 1000 30000)
      slewLeft := u.slewLeft.map (clampInt (-32768) 32767)
      slewRight := u.slewRight.map (clampInt (-32768) 32767) }
  let u := if floorConflict u then { u with ceiling := none } else u
  if slewConflict u then { u with slewLeft := none, slewRight := none } else u

/-- LIM's records outside RUN (R62). -/
def restLim (u : LimitUnit) : LimitUnit :=
  { u with records := PerLimit.tabulate (restingRecord u.set), statusTimer := none }

/-! ## Limit items -/

/-- A limit item decided: its result and the set after it (R43). -/
abbrev LimitDecision := SettingResult × LimitSet

/-- ACCEPTED or CLAMPED, as the range step changed a value (R43). -/
def byRange (changed : Bool) : SettingResult := if changed then .clamped none else .accepted

/-- SET_FLOOR (R44). -/
def decideFloor (s : State) (v : Int) : LimitDecision :=
  let u := s.lim.set
  let f0 := clampInt (-20000) 10000 v
  let u' := { u with floor := some ⟨f0, 0, if s.poseUsable then s.pose.record.maxReach else 0⟩ }
  if floorConflict u' then (.refused .conflict, u) else (byRange (f0 != v), u')

/-- SET_FLOOR_AT_TIP (R44). -/
def decideFloorAtTip (s : State) (_v : Int) : LimitDecision :=
  let u := s.lim.set
  if !s.poseUsable then (.refused .noPose, u)
  else
    let h := s.pose.record.p3Height
    let f0 := clampInt (-20000) 10000 h
    let u' := { u with floor := some ⟨f0, (u.floor.map (·.s)).getD 0, s.pose.record.p3Reach⟩ }
    if floorConflict u' then (.refused .conflict, u) else (byRange (f0 != h), u')

/-- SET_GRADE_SLOPE (R45). -/
def decideSlope (s : State) (v : Int) : LimitDecision :=
  let u := s.lim.set
  match u.floor with
  | none => (.refused .absent, u)
  | some f =>
    let sl := clampInt s.img.limits.slopeMin s.img.limits.slopeMax v
    (byRange (sl != v), { u with floor := some { f with s := sl } })

/-- CLEAR_FLOOR (R45). -/
def decideClearFloor (s : State) (_v : Int) : LimitDecision := (.accepted, { s.lim.set with floor := none })

/-- SET_CEILING (R46). -/
def decideCeiling (s : State) (v : Int) : LimitDecision :=
  let u := s.lim.set
  let c := clampInt (-5000) 20000 v
  let u' := { u with ceiling := some c }
  if floorConflict u' then (.refused .conflict, u) else (byRange (c != v), u')

/-- CLEAR_CEILING (R46). -/
def decideClearCeiling (s : State) (_v : Int) : LimitDecision := (.accepted, { s.lim.set with ceiling := none })

/-- SET_REACH (R46). -/
def decideReach (s : State) (v : Int) : LimitDecision :=
  let r := clampInt 1000 30000 v
  (byRange (r != v), { s.lim.set with reach := some r })

/-- CLEAR_REACH (R46). -/
def decideClearReach (s : State) (_v : Int) : LimitDecision := (.accepted, { s.lim.set with reach := none })

/-- SET_SLEW_LEFT (R47). -/
def decideSlewLeft (s : State) (v : Int) : LimitDecision :=
  let u' := { s.lim.set with slewLeft := some v }
  if slewConflict u' then (.refused .conflict, s.lim.set) else (.accepted, u')

/-- SET_SLEW_RIGHT (R47). -/
def decideSlewRight (s : State) (v : Int) : LimitDecision :=
  let u' := { s.lim.set with slewRight := some v }
  if slewConflict u' then (.refused .conflict, s.lim.set) else (.accepted, u')

/-- SET_SLEW_LEFT_HERE (R47). -/
def decideSlewLeftHere (s : State) (_v : Int) : LimitDecision :=
  if s.slewValid then decideSlewLeft s s.psi else (.refused .noSlew, s.lim.set)

/-- SET_SLEW_RIGHT_HERE (R47). -/
def decideSlewRightHere (s : State) (_v : Int) : LimitDecision :=
  if s.slewValid then decideSlewRight s s.psi else (.refused .noSlew, s.lim.set)

/-- CLEAR_SLEW (R47). -/
def decideClearSlew (s : State) (_v : Int) : LimitDecision :=
  (.accepted, { s.lim.set with slewLeft := none, slewRight := none })

/-- The applied values of the floor items. -/
def floorValues (u : LimitSet) : Option Int × Option Int × Option Int :=
  (u.floor.map (·.f0), u.floor.map (·.s), u.floor.map (·.r0))

/-- The applied value of an item with one limit value. -/
def oneValue (v : Option Int) : Option Int × Option Int × Option Int := (v, none, none)

/-- LIM takes a limit item: decided, applied with the re-evaluation of the limits it changed, and answered
(R43, R49). A refused item re-evaluates nothing. -/
def State.limitItem (s : State) (code : Nat) (decide : State → Int → LimitDecision) (changed : Limit → Bool)
    (values : LimitSet → Option Int × Option Int × Option Int) : State :=
  match s.itemFor code with
  | none => s
  | some i =>
    let s := s.takeItem
    let d := if s.inRun then decide s i.value else (.refused .state, s.lim.set)
    let t := match d.1 with
      | .refused _ => s
      | _ => (s.onLim fun u => { u with set := d.2 }).evaluateLimits changed
    let v := values d.2
    t.respond i d.1 v.1 v.2.1 v.2.2

/-! ## The commands of LIM -/

/-- SET_FLOOR (R44). -/
def execSetFloor (s : State) : Host.Outcome State Fault Refusal :=
  .next (s.limitItem 0x01 decideFloor (· == .floor) floorValues)

/-- SET_FLOOR_AT_TIP (R44). -/
def execSetFloorAtTip (s : State) : Host.Outcome State Fault Refusal :=
  .next (s.limitItem 0x02 decideFloorAtTip (· == .floor) floorValues)

/-- SET_GRADE_SLOPE (R45). -/
def execSetGradeSlope (s : State) : Host.Outcome State Fault Refusal :=
  .next (s.limitItem 0x03 decideSlope (· == .floor) floorValues)

/-- CLEAR_FLOOR (R45). -/
def execClearFloor (s : State) : Host.Outcome State Fault Refusal :=
  .next (s.limitItem 0x04 decideClearFloor (· == .floor) floorValues)

/-- SET_CEILING (R46). -/
def execSetCeiling (s : State) : Host.Outcome State Fault Refusal :=
  .next (s.limitItem 0x05 decideCeiling (· == .ceiling) fun u => oneValue u.ceiling)

/-- CLEAR_CEILING (R46). -/
def execClearCeiling (s : State) : Host.Outcome State Fault Refusal :=
  .next (s.limitItem 0x06 decideClearCeiling (· == .ceiling) fun u => oneValue u.ceiling)

/-- SET_REACH (R46). -/
def execSetReach (s : State) : Host.Outcome State Fault Refusal :=
  .next (s.limitItem 0x07 decideReach (· == .reach) fun u => oneValue u.reach)

/-- CLEAR_REACH (R46). -/
def execClearReach (s : State) : Host.Outcome State Fault Refusal :=
  .next (s.limitItem 0x08 decideClearReach (· == .reach) fun u => oneValue u.reach)

/-- SET_SLEW_LEFT (R47). -/
def execSetSlewLeft (s : State) : Host.Outcome State Fault Refusal :=
  .next (s.limitItem 0x09 decideSlewLeft (· == .slewLeft) fun u => oneValue u.slewLeft)

/-- SET_SLEW_RIGHT (R47). -/
def execSetSlewRight (s : State) : Host.Outcome State Fault Refusal :=
  .next (s.limitItem 0x0A decideSlewRight (· == .slewRight) fun u => oneValue u.slewRight)

/-- SET_SLEW_LEFT_HERE (R47). -/
def execSetSlewLeftHere (s : State) : Host.Outcome State Fault Refusal :=
  .next (s.limitItem 0x0B decideSlewLeftHere (· == .slewLeft) fun u => oneValue u.slewLeft)

/-- SET_SLEW_RIGHT_HERE (R47). -/
def execSetSlewRightHere (s : State) : Host.Outcome State Fault Refusal :=
  .next (s.limitItem 0x0C decideSlewRightHere (· == .slewRight) fun u => oneValue u.slewRight)

/-- CLEAR_SLEW: both slew limits are carried (R47; log 23). -/
def execClearSlew (s : State) : Host.Outcome State Fault Refusal :=
  .next (s.limitItem 0x0D decideClearSlew isSlew fun u => (u.slewLeft, u.slewRight, none))

/-- LIMIT_STATUS_TIMER_EXPIRY (R61). -/
def execLimitStatusTimerExpiry (s : State) : Host.Outcome State Fault Refusal :=
  match s.lim.statusTimer with
  | none => .next s
  | some d =>
    let s := (s.arriveAt d).onLim fun u => { u with statusTimer := some (after d 100) }
    .next (s.offer .normal .limitStatus 0xFF (limitStatusData s false))

end Sys2Proof.Machine
end

