-- ==== Sys2Proof/Machine/Pose.lean ====
section
/-! DEFINITION. POSE, the pose unit: the sine table, the pose computation, quality and the POSE frame
(chapter 1). -/

namespace Sys2Proof.Machine

/-! ## The sine table -/

/-- S[0]..S[31] (R4). -/
def sines0 : List Int := [
  0, 101, 201, 302, 402, 503, 603, 704, 804, 904, 1005, 1105,
  1205, 1306, 1406, 1506, 1606, 1706, 1806, 1906, 2006, 2105, 2205, 2305,
  2404, 2503, 2603, 2702, 2801, 2900, 2999, 3098]

/-- S[32]..S[63] (R4). -/
def sines1 : List Int := [
  3196, 3295, 3393, 3492, 3590, 3688, 3786, 3883, 3981, 4078, 4176, 4273,
  4370, 4467, 4563, 4660, 4756, 4852, 4948, 5044, 5139, 5235, 5330, 5425,
  5520, 5614, 5708, 5803, 5897, 5990, 6084, 6177]

/-- S[64]..S[95] (R4). -/
def sines2 : List Int := [
  6270, 6363, 6455, 6547, 6639, 6731, 6823, 6914, 7005, 7096, 7186, 7276,
  7366, 7456, 7545, 7635, 7723, 7812, 7900, 7988, 8076, 8163, 8250, 8337,
  8423, 8509, 8595, 8680, 8765, 8850, 8935, 9019]

/-- S[96]..S[127] (R4). -/
def sines3 : List Int := [
  9102, 9186, 9269, 9352, 9434, 9516, 9598, 9679, 9760, 9841, 9921, 10001,
  10080, 10159, 10238, 10316, 10394, 10471, 10549, 10625, 10702, 10778, 10853, 10928,
  11003, 11077, 11151, 11224, 11297, 11370, 11442, 11514]

/-- S[128]..S[159] (R4). -/
def sines4 : List Int := [
  11585, 11656, 11727, 11797, 11866, 11935, 12004, 12072, 12140, 12207, 12274, 12340,
  12406, 12472, 12537, 12601, 12665, 12729, 12792, 12854, 12916, 12978, 13039, 13100,
  13160, 13219, 13279, 13337, 13395, 13453, 13510, 13567]

/-- S[160]..S[191] (R4). -/
def sines5 : List Int := [
  13623, 13678, 13733, 13788, 13842, 13896, 13949, 14001, 14053, 14104, 14155, 14206,
  14256, 14305, 14354, 14402, 14449, 14497, 14543, 14589, 14635, 14680, 14724, 14768,
  14811, 14854, 14896, 14937, 14978, 15019, 15059, 15098]

/-- S[192]..S[223] (R4). -/
def sines6 : List Int := [
  15137, 15175, 15213, 15250, 15286, 15322, 15357, 15392, 15426, 15460, 15493, 15525,
  15557, 15588, 15619, 15649, 15679, 15707, 15736, 15763, 15791, 15817, 15843, 15868,
  15893, 15917, 15941, 15964, 15986, 16008, 16029, 16049]

/-- S[224]..S[255] (R4). -/
def sines7 : List Int := [
  16069, 16088, 16107, 16125, 16143, 16160, 16176, 16192, 16207, 16221, 16235, 16248,
  16261, 16273, 16284, 16295, 16305, 16315, 16324, 16332, 16340, 16347, 16353, 16359,
  16364, 16369, 16373, 16376, 16379, 16381, 16383, 16384]

/-- S[256] (R4). -/
def sines8 : List Int := [
  16384]

/-- The sine table, S[k] = round(16384 × sin(k × 90°/256)) (R4). -/
def sineTable : List Int :=
  sines0 ++ sines1 ++ sines2 ++ sines3 ++ sines4 ++ sines5 ++ sines6 ++ sines7 ++ sines8

/-- Entry k of the table (R4). -/
def sineEntry (k : Nat) : Int := sineTable.getD k 16384

/-! ## Interpolation and folding -/

/-- The interpolated sine of a position in the first quadrant (R5). -/
def interpolated (u : Nat) : Int :=
  let i := u / 64
  let f := u % 64
  if 256 ≤ i then sineEntry 256
  else sineEntry i + ((sineEntry (i + 1) - sineEntry i) * f + 32) / 64

/-- The sine of a binary angle (R6). -/
def sine (a : Nat) : Int :=
  let r := a % 16384
  match a / 16384 % 4 with
  | 0 => interpolated r
  | 1 => interpolated (16384 - r)
  | 2 => -interpolated r
  | _ => -interpolated (16384 - r)

/-- The cosine of a binary angle (R7). -/
def cosine (a : Nat) : Int := sine ((a + 16384) % 65536)

/-! ## The computation -/

/-- A link pitch from a sensor angle and its offset (R2). -/
def pitch (sensor : BitVec 16) (offset : Int) : Nat := (((sensor.toNat : Int) + offset) % 65536).toNat

/-- A cumulative sum rounded to whole millimetres, half up (R9). -/
def roundSum (x : Int) : Int := (x + 8192) / 16384

/-- The six coordinates from the three pitches (R8, R9), the other fields as in `r`. -/
def computePoints (g : Geometry) (a1 a2 a3 : Nat) (r : PoseRecord) : PoseRecord :=
  let x1 := g.l1 * cosine a1
  let z1 := g.l1 * sine a1
  let x2 := x1 + g.l2 * cosine a2
  let z2 := z1 + g.l2 * sine a2
  let x3 := x2 + g.l3 * cosine a3
  let z3 := z2 + g.l3 * sine a3
  { r with
    p1Reach := g.xf + roundSum x1
    p1Height := g.zf + roundSum z1
    p2Reach := g.xf + roundSum x2
    p2Height := g.zf + roundSum z2
    p3Reach := g.xf + roundSum x3
    p3Height := g.zf + roundSum z3 }

/-- The three link roles (R13). -/
def linkRoles : List Role := [.boomAngle, .armAngle, .bucketAngle]

/-- The quality of the pose (R13). -/
def State.quality (s : State) : Quality :=
  if linkRoles.any fun r => !s.usable r then .invalid
  else if linkRoles.any fun r => s.streamState r == .late then .held
  else if linkRoles.any fun r => (s.mailbox r).status == .degraded then .degraded
  else .good

/-- The record that a computation writes (R14). -/
def State.computePose (s : State) : PoseRecord :=
  let g := s.img.geometry
  let q := s.quality
  let r := s.pose.record
  let r := if q = .invalid then r else
    computePoints g (pitch (s.mailbox .boomAngle).angle g.offset1) (pitch (s.mailbox .armAngle).angle g.offset2)
      (pitch (s.mailbox .bucketAngle).angle g.offset3) r
  { r with sequence := r.sequence + 1, quality := q, time := s.now, slew := s.psi, slewValid := s.slewValid }

/-! ## The POSE frame -/

/-- Quality codes (10.7). -/
def qualityCode : Quality → Nat
  | .good => 0 | .held => 1 | .degraded => 2 | .invalid => 3

/-- POSE data (R17, 10.7). -/
def poseData (r : PoseRecord) : List Byte :=
  [r.sequence, byteOf (qualityCode r.quality + 4 * bit r.slewValid)]
    ++ be2 r.p1Reach ++ be2 r.p1Height ++ be2 r.p2Reach ++ be2 r.p2Height ++ be2 r.p3Reach ++ be2 r.p3Height
    ++ be2 r.slew ++ be4 r.time.toNat

/-- POSE offers its frame (R17). -/
def State.offerPose (s : State) : State := s.offer .normal .pose 0xFF (poseData s.pose.record)

/-- Leaving RUN: the timer stops and the quality becomes INVALID (R19). -/
def leavePose (p : PoseUnit) : PoseUnit := { record := { p.record with quality := .invalid }, timer := none }

/-! ## The command of POSE -/

/-- The consumers of a computation, each with its events in order; either of two may be taken first (R16; log 6). In LIM's own,
the rebuild that RULE makes for a changed limit state (R66) comes before the GUIDANCE frame (R60), the model's choice (log 7). -/
def poseConsumers : List (List (State → State)) :=
  [[fun s => (s.evaluateLimits fun _ => true).offerGuidance], [State.rebuild], [State.digStep], [State.offerPose]]

/-- POSE_PERIOD_EXPIRY (R11 to R17). -/
def execPosePeriodExpiry (s : State) : Host.Outcome State Fault Refusal :=
  match s.pose.timer with
  | none => .next s
  | some d =>
    let s := s.arriveAt d
    .next (anyOrder poseConsumers { s with pose := ⟨s.computePose, some (after d 20)⟩ })

end Sys2Proof.Machine
end

