-- ==== Sys2Proof/Machine/Stream.lean ====
section
/-! DEFINITION. STM, the stream monitor: arrivals, stream states, fault notices, events to the readers and
statistics (chapter 2). -/

namespace Sys2Proof.Machine

/-! ## One entry -/

/-- The entry of a number. -/
def State.entry (s : State) (n : Nat) : Option Stream := s.streams.find? fun e => e.number == n

/-- Replace an entry by its number. -/
def State.setEntry (s : State) (e : Stream) : State :=
  s.onStreams fun es => es.map fun x => if x.number = e.number then e else x

/-- The cause of the fault condition of an entry after a change (R35); none while it does not hold. A FAILED payload that
is accepted in STALE or RECOVERING leaves the cause LOST or ABSENT until the entry is FRESH (log 44). -/
def faultAfter (before after : Stream) : Option FaultCause :=
  match after.state with
  | .neverSeen => none
  | .fresh => if after.role.isAngle && after.mailbox.status == .failed then some .failed else none
  | .late => if after.role.isAngle && after.mailbox.status == .failed then some .failed else none
  | .recovering => before.faultCause
  | .stale =>
    match before.state with
    | .neverSeen => some .absent
    | .late => some .lost
    | _ => before.faultCause

/-- An entry with the cause that its change gives. -/
def withFault (before after : Stream) : Stream := { after with faultCause := faultAfter before after }

/-- What the sequence check makes of a frame (R26). -/
inductive SequenceCheck where
  | accepted | gap | duplicate
  deriving DecidableEq, Repr

/-- The sequence check (R26). -/
def checkSequence (e : Stream) (q : BitVec 4) : SequenceCheck :=
  match e.lastSeq with
  | none => .accepted
  | some l =>
    if e.state = .stale then .accepted
    else if q - l = 0 then .duplicate
    else if q - l = 1 then .accepted
    else .gap

/-- The state after an accepted arrival (R29 to R32). -/
def stateAfterArrival : StreamState → StreamState
  | .neverSeen | .fresh | .late | .recovering => .fresh
  | .stale => .recovering

/-- An accepted arrival (R27, R29 to R32, R38). -/
def acceptArrival (now : Ms) (data : List Byte) (gap : Bool) (e : Stream) : Stream :=
  let st := stateAfterArrival e.state
  withFault e { e with
    state := st
    mailbox := readPayload e.role data
    arrival := now
    lastSeq := some (payloadSeq data)
    recoveryStart := if st = .recovering then now else e.recoveryStart
    absence := none
    gaps := if gap then sat16 e.gaps else e.gaps }

/-! ## Notices and events -/

/-- STM raises or clears the stream-fault notice as the condition or its cause changes (R35). -/
def State.tellFault (s : State) (before after : Stream) : State :=
  if after.faultCause = before.faultCause then s
  else
    match after.faultCause with
    | some c => s.raiseNotice (0x20 + after.number) none (.stream c)
    | none => s.clearNotice (0x20 + after.number)

/-- The readers of a role take an arrival or state event (R34). Outside RUN no reader but ECO's grant acts on one (R66,
R119, R136, R167; log 35). In RUN a HYDRAULIC_STATE or ENGINE_STATE event reaches ECO before RULE (log 7). -/
def State.streamEvent (s : State) (e : Stream) (arrival changed : Bool) : State :=
  if !s.inRun then (if e.role = .engineGrant then s.holdGrant else s)
  else
    match e.role with
    | .slewAngle =>
      if arrival then anyOrder [[fun s => s.evaluateLimits isSlew], [State.rebuild]] s else s
    | .engineState => (if arrival then s.ecoEngineArrival e else s.ecoEngineState e).rebuild
    | .engineGrant => s.ecoGrant
    | .hydraulicState => (s.ecoHydraulic s.now).rebuild
    | .display => if changed then s.takeDisplay else s
    | .boomAngle | .armAngle | .bucketAngle | .spare => s

/-- An entry has changed: written, its notice told, its readers reached (R34, R35). -/
def State.changeEntry (s : State) (before after : Stream) (arrival : Bool) : State :=
  ((s.setEntry after).tellFault before after).streamEvent after arrival (after.state != before.state)

/-- STM takes arrivals in JOIN and RUN (R25, R39). -/
def State.streamsRun (s : State) : Bool := s.cfg.node == .join || s.cfg.node == .run

/-- The late timer, the stale timer and the recovery window of an entry run in JOIN and RUN, and go on in QUIET reached from
JOIN: they stop on leaving RUN and at an entry to JOIN alone (R28, R39; log 41). -/
def State.timersRun (s : State) (e : Stream) : Bool := s.streamsRun || (s.cfg.node == .quiet && !e.frozen)

/-! ## Timers -/

/-- The late timer's end: the age first exceeds 2P (R28). -/
def lateEnd (e : Stream) : Ms := after e.arrival (2 * e.period + 1)

/-- The stale timer's end: the age first exceeds ks·P (R28). -/
def staleEnd (e : Stream) : Ms := after e.arrival (e.staleMult * e.period + 1)

/-- The recovery window's end (R28). -/
def windowEnd (e : Stream) : Ms := after e.recoveryStart (2 * e.period + 1)

/-- The entry after its late timer (R30). -/
def turnLate (e : Stream) : Stream := withFault e { e with state := .late }

/-- The entry after its stale timer or absence watch: an episode is counted (R29, R30, R38). -/
def turnStale (e : Stream) : Stream :=
  withFault e { e with state := .stale, staleEpisodes := sat16 e.staleEpisodes, absence := none }

/-- The entry after its recovery window: the episode goes on (R31, R32). -/
def turnStaleAgain (e : Stream) : Stream := withFault e { e with state := .stale }

/-! ## Arrivals -/

/-- The recovery window of an entry is over: the time since the recovery start exceeds its end (R28). -/
def windowOver (now : Ms) (e : Stream) : Bool :=
  e.state == .recovering && decide (2 * e.period + 1 < elapsed now e.recoveryStart)

/-- The entry as an arrival finds it: past the instant at which its recovery window ends, the expiry has been taken first;
at that instant the arrival may come first, and finds it RECOVERING (R32; log 16). -/
def asArrivalFinds (now : Ms) (e : Stream) : Stream := if windowOver now e then turnStaleAgain e else e

/-- STM takes a frame for its entry (R25, R26). -/
def State.arrive (s : State) (e : Stream) (data : List Byte) : State :=
  if data.length < roleLength e.role then s.setEntry { e with malformed := sat16 e.malformed }
  else
    let found := asArrivalFinds s.now e
    match checkSequence found (payloadSeq data) with
    | .duplicate => s.setEntry { e with duplicates := sat16 e.duplicates }
    | .accepted => s.changeEntry e (acceptArrival s.now data false found) true
    | .gap => s.changeEntry e (acceptArrival s.now data true found) true

/-! ## Node states -/

/-- An entry at an entry to JOIN (R39). -/
def joinEntry (e : Stream) : Stream :=
  { e with
    state := .neverSeen, mailbox := Mailbox.empty, arrival := 0, lastSeq := none, absence := none
    faultCause := none, frozen := false }

/-- An entry at an entry to RUN: the absence watch of one still NEVER_SEEN (R29, R39). -/
def runEntry (now : Ms) (e : Stream) : Stream :=
  if e.state = .neverSeen then { e with absence := some (after now (e.staleMult * e.period)) } else e

/-- An entry on leaving RUN: frozen, its watch and its timers stopped (R39). -/
def freezeEntry (e : Stream) : Stream := { e with absence := none, frozen := true }

/-- STM raises the fault conditions that hold at the entry to RUN (R39), all in that one event and by entry number, the
model's choice (log 53). -/
def State.raiseFaults (s : State) : State :=
  s.streams.foldl (fun t e => match e.faultCause with
    | some c => t.raiseNotice (0x20 + e.number) none (.stream c)
    | none => t) s

/-! ## The commands of STM -/

/-- STREAM_FRAME_ARRIVAL (R25). -/
def execStreamFrameArrival (s : State) : Host.Outcome State Fault Refusal :=
  match s.headFor .stm with
  | none => .next s
  | some f =>
    let s := s.takeFrame
    .next (match matchingEntry s.streams f with
      | some e => if s.streamsRun then s.arrive e f.data else s
      | none => s)

/-- LATE_TIMER_EXPIRY of an entry (R30). -/
def execLateTimerExpiry (n : Nat) (s : State) : Host.Outcome State Fault Refusal :=
  match s.entry n with
  | some e =>
    .next (if s.timersRun e && e.state == .fresh then
      (s.arriveAt (lateEnd e)).changeEntry e (turnLate e) false else s)
  | none => .next s

/-- STALE_TIMER_EXPIRY of an entry (R30). -/
def execStaleTimerExpiry (n : Nat) (s : State) : Host.Outcome State Fault Refusal :=
  match s.entry n with
  | some e =>
    .next (if s.timersRun e && e.state == .late then
      (s.arriveAt (staleEnd e)).changeEntry e (turnStale e) false else s)
  | none => .next s

/-- RECOVERY_WINDOW_EXPIRY of an entry (R32). -/
def execRecoveryWindowExpiry (n : Nat) (s : State) : Host.Outcome State Fault Refusal :=
  match s.entry n with
  | some e =>
    .next (if s.timersRun e && e.state == .recovering then
      (s.arriveAt (windowEnd e)).changeEntry e (turnStaleAgain e) false else s)
  | none => .next s

/-- ABSENCE_WATCH_EXPIRY of an entry (R29). -/
def execAbsenceWatchExpiry (n : Nat) (s : State) : Host.Outcome State Fault Refusal :=
  match s.entry n with
  | some e =>
    .next (match e.absence with
      | some d => if s.inRun && e.state == .neverSeen then
          (s.arriveAt d).changeEntry e (turnStale e) false else s
      | none => s)
  | none => .next s

/-- STREAM_STATS (R38). -/
def execStreamStats (s : State) : Host.Outcome State Fault Refusal :=
  match s.headFor .streamStats with
  | none => .next s
  | some f =>
    let s := s.takeFrame
    .next (if s.inRun then s.beginReply .stm f.source none (s.streams.map (·.number)) else s)

end Sys2Proof.Machine
end

