-- ==== Sys2Proof/Machine/EconomyCommands.lean ====
section
/-! DEFINITION. The commands of ECO: its setting items and its timers (7.2, 7.4, 7.5, 7.7). -/

namespace Sys2Proof.Machine

/-! ## Setting items -/

/-- WORK_MODE decided: the result and the mode after it (R116). -/
def decideMode (inRun derate : Bool) (held : WorkMode) (v : Int) : SettingResult × WorkMode :=
  if !inRun then (.refused .state, held)
  else
    match WorkMode.ofCode v with
    | none => (.refused .range, held)
    | some m => if derate && (m == .heavy || m == .standard) then (.clamped (some .derate), .economy) else (.accepted, m)

/-- ECO takes another work mode: the record is formed at once, on the caps in force, with its offers and the test of RECOVER, and
then RULE is handed a rebuild (R116; log 7). -/
def State.changeMode (s : State) (m : WorkMode) : State :=
  if m = s.eco.mode then s else (s.onEco fun e => { e with mode := m }).reformTarget.rebuild

/-- WORK_MODE (R116). -/
def execWorkMode (s : State) : Host.Outcome State Fault Refusal :=
  match s.itemFor 0x10 with
  | none => .next s
  | some i =>
    let d := decideMode s.inRun s.svc.derate s.eco.mode i.value
    .next ((s.takeItem.changeMode d.2).respond i d.1 (some d.2.code) none none)

/-- AUTO_IDLE_ENABLE decided: the result and the enable after it (R117). -/
def decideEnable (inRun held : Bool) (v : Int) : SettingResult × Bool :=
  if !inRun then (.refused .state, held)
  else if v = 0 then (.accepted, false)
  else if v = 1 then (.accepted, true)
  else (.refused .range, held)

/-- ECO takes another enable, which acts on the economy state at once (R117). -/
def State.changeEnable (s : State) (on : Bool) : State :=
  if on = s.eco.autoIdle then s else (s.onEco fun e => { e with autoIdle := on }).permitEvent

/-- AUTO_IDLE_ENABLE (R117). -/
def execAutoIdleEnable (s : State) : Host.Outcome State Fault Refusal :=
  match s.itemFor 0x11 with
  | none => .next s
  | some i =>
    let d := decideEnable s.inRun s.eco.autoIdle i.value
    .next ((s.takeItem.changeEnable d.2).respond i d.1 (some (bit d.2)) none none)

/-- AUTO_IDLE_DELAY decided: the result and the delay after it (R117). -/
def decideDelay (inRun : Bool) (held : Nat) (v : Int) : SettingResult × Nat :=
  if !inRun then (.refused .state, held)
  else
    let n := clampInt 4 30 v
    (if n = v then .accepted else .clamped none, n.toNat)

/-- ECO takes another delay: in NEUTRAL_WAIT the running timer's end moves, and one already past ends at once
(R117). -/
def State.changeDelay (s : State) (n : Nat) : State :=
  if n = s.eco.delay then s
  else
    let s := s.onEco fun e => { e with delay := n }
    if s.eco.state = .neutralWait then
      let d := after s.eco.delayStart (n * 1000)
      if reached s.now d then s.enterEco .idleLow else s.onEco fun e => { e with delayTimer := some d }
    else s

/-- AUTO_IDLE_DELAY (R117). -/
def execAutoIdleDelay (s : State) : Host.Outcome State Fault Refusal :=
  match s.itemFor 0x12 with
  | none => .next s
  | some i =>
    let d := decideDelay s.inRun s.eco.delay i.value
    .next ((s.takeItem.changeDelay d.2).respond i d.1 (some d.2) none none)

/-! ## Timers -/

/-- IDLE_DELAY_EXPIRY (R124, R125). -/
def execIdleDelayExpiry (s : State) : Host.Outcome State Fault Refusal :=
  match s.eco.delayTimer with
  | none => .next s
  | some d => .next ((s.arriveAt d).enterEco .idleLow)

/-- RECOVERY_TIMER_EXPIRY (R126). -/
def execRecoveryTimerExpiry (s : State) : Host.Outcome State Fault Refusal :=
  match s.eco.recoveryTimer with
  | none => .next s
  | some d =>
    let s := s.arriveAt d
    .next (s.raiseNotice 0x73 none (.recovery s.eco.target (s.mailbox .engineState).speed)).enterWork

/-- YIELD_TIMER_EXPIRY (R127). -/
def execYieldTimerExpiry (s : State) : Host.Outcome State Fault Refusal :=
  match s.eco.yieldTimer with
  | none => .next s
  | some d => .next ((s.arriveAt d).enterEco .yielded)

/-- REQUEST_TIMER_EXPIRY: the speed request is offered before the pump limit (R130, R131; log 7). -/
def execRequestTimerExpiry (s : State) : Host.Outcome State Fault Refusal :=
  match s.eco.requestTimer with
  | none => .next s
  | some d =>
    let s := (s.arriveAt d).onEco fun e => { e with requestTimer := some (after d 100) }
    let s := if s.eco.state.requesting then s.offerSpeed else s
    .next (if s.eco.state = .off then s else s.offerPump)

/-- The second as ECO's counters take it (R135). -/
def countEcoSecond (e : Eco) : Eco :=
  match e.state with
  | .idleLow => { e with idleSeconds := e.idleSeconds + 1 }
  | .work | .neutralWait | .recover | .yielded => { e with workSeconds := e.workSeconds + 1 }
  | .off => e

/-- ECO_SECOND_EXPIRY (R135). -/
def execEcoSecondExpiry (s : State) : Host.Outcome State Fault Refusal :=
  match s.eco.secondTimer with
  | none => .next s
  | some d =>
    .next ((s.arriveAt d).onEco fun e => countEcoSecond { e with secondTimer := some (after d 1000) })

/-- ECONOMY_REPORT_TIMER_EXPIRY (R135). -/
def execEconomyReportTimerExpiry (s : State) : Host.Outcome State Fault Refusal :=
  match s.eco.reportTimer with
  | none => .next s
  | some d =>
    let s := (s.arriveAt d).onEco fun e => { e with reportTimer := some (after d 10000) }
    .next (s.offerBackground (s.frame .economyReport 0xFF (economyData s)))

end Sys2Proof.Machine
end

