-- ==== Sys2Proof/Machine/Operator.lean ====
section
/-! DEFINITION. The commands of NTC and SND: their setting items and their timers (chapter 9). -/

namespace Sys2Proof.Machine

/-! ## Setting items -/

/-- NOTICE_INHIBIT decided: the result and the inhibit after it (R157). -/
def decideInhibit (inRun held : Bool) (v : Int) : SettingResult × Bool :=
  if !inRun then (.refused .state, held)
  else if v = 0 then (.accepted, false)
  else if v = 1 then (.accepted, true)
  else (.refused .range, held)

/-- NOTICE_INHIBIT (R157). -/
def execNoticeInhibit (s : State) : Host.Outcome State Fault Refusal :=
  match s.itemFor 0x28 with
  | none => .next s
  | some i =>
    let d := decideInhibit s.inRun s.ntc.operatorInhibit i.value
    .next ((s.takeItem.setConditions fun n => { n with operatorInhibit := d.2 }).respond i d.1 (some (bit d.2)) none none)

/-- The queued record that an acknowledgement names (R164). -/
def Ntc.queued (n : Ntc) (v : Int) : Option NoticeRecord := n.queue.find? fun r => (r.id : Int) == v

/-- An acknowledgement taken in RUN (R164). -/
def State.acknowledge (s : State) (v : Int) : State :=
  match s.ntc.queued v with
  | some r =>
    let s := (s.onNtc fun n => { n with queue := withoutId r.id n.queue }).withdrawSound r
    (if 0x01 ≤ r.id ∧ r.id ≤ 0x10 then s.ackItem r.id else s).pass
  | none => s.onNtc fun n => { n with ignoredAcks := sat16 n.ignoredAcks }

/-- NOTICE_ACK: not answered, and discarded outside RUN (R164). -/
def execNoticeAck (s : State) : Host.Outcome State Fault Refusal :=
  match s.itemFor 0x29 with
  | none => .next s
  | some i => .next (if s.inRun then s.takeItem.acknowledge i.value else s.takeItem)

/-- SILENCE (R172); its response carries no value (log 23). -/
def execSilence (s : State) : Host.Outcome State Fault Refusal :=
  match s.itemFor 0x2A with
  | none => .next s
  | some i =>
    .next (if s.inRun then (s.takeItem.sound sndSilence).respond i .accepted none none none
      else s.takeItem.respond i (.refused .state) none none none)

/-- SETTING_ITEM_UNKNOWN: LINK answers an item whose code names no setting (R177). -/
def execSettingItemUnknown (s : State) : Host.Outcome State Fault Refusal :=
  match s.nextItem with
  | none => .next s
  | some i =>
    .next (if settingCodes.contains i.code then s
      else s.takeItem.respond i (.refused .range) none none none)

/-! ## Timers of NTC -/

/-- SETTLE_TIMER_EXPIRY (R158). -/
def execSettleTimerExpiry (s : State) : Host.Outcome State Fault Refusal :=
  match s.ntc.settleTimer with
  | none => .next s
  | some d =>
    .next ((s.arriveAt d).setConditions fun n => { n with settleTimer := none, busyInhibit := false })

/-- ESCALATION_TIMER_EXPIRY of a pending id (R163). -/
def execEscalationTimerExpiry (id : Nat) (s : State) : Host.Outcome State Fault Refusal :=
  match findId id s.ntc.pending with
  | none => .next s
  | some r =>
    match r.escalationStart with
    | none => .next s
    | some t =>
      let s := s.arriveAt (after t s.escalationMs)
      .next (s.pend { r with escalated := true, escalationStart := none }).pass

/-- NOTICE_SUMMARY_TIMER_EXPIRY (R166). -/
def execNoticeSummaryTimerExpiry (s : State) : Host.Outcome State Fault Refusal :=
  match s.ntc.summaryTimer with
  | none => .next s
  | some d =>
    let s := (s.arriveAt d).onNtc fun n => { n with summaryTimer := some (after d 1000) }
    .next (s.offerBackground (s.frame .noticeSummary 0xFF (noticeSummary s)))

/-! ## Timers of SND -/

/-- ONE_SHOT_END (R171). -/
def execOneShotEnd (s : State) : Host.Outcome State Fault Refusal :=
  match s.snd.playing with
  | .oneShot _ d =>
    let s := s.arriveAt d
    .next (s.sound sndOneShotEnd)
  | _ => .next s

/-- CADENCE_PHASE_EXPIRY: the next phase begins where the last one ended (R168). -/
def execCadencePhaseExpiry (s : State) : Host.Outcome State Fault Refusal :=
  match s.snd.playing with
  | .sustained _ _ _ (some d) => .next ((s.arriveAt d).sound fun _ => sndPhase d)
  | _ => .next s

/-- SILENCE_TIMER_EXPIRY (R172). -/
def execSilenceTimerExpiry (s : State) : Host.Outcome State Fault Refusal :=
  match s.snd.silence with
  | none => .next s
  | some d => .next ((s.arriveAt d).sound sndSilenceEnd)

end Sys2Proof.Machine
end

