-- ==== Sys2Proof/Machine/Bus.lean ====
section
/-! DEFINITION. The commands of LINK: reception and the outcomes of transmit attempts (10.2, 10.4, 10.5). -/

namespace Sys2Proof.Machine

/-! ## Reception -/

/-- LINK hears the bus and judges frames in the node state (R185). -/
def receivesIn : NodeState → Bool
  | .recordRead | .join | .run | .store | .quiet => true
  | .startRead | .configFault => false

/-- An address clash (R175). The mark keeps the newest clash's kind and destination (log 22). -/
def State.clash (s : State) (f : RxFrame) : State :=
  let s := s.onLink fun l => { l with clashes := sat16 l.clashes }
  match s.cfg.node with
  | .run => s.raiseNotice 0x71 none (.clash f.kind f.destination s.link.clashes)
  | .recordRead | .join => s.onLink fun l => { l with clashMark := some (f.kind, f.destination) }
  | .startRead | .configFault | .store | .quiet => s

/-- A frame goes into the receive queue, or is dropped by a full one (R176). -/
def State.enqueue (s : State) (f : RxFrame) : State :=
  if s.link.rx.length < 16 then (s.onLink fun l => { l with rx := l.rx ++ [f] }).settled
  else s.onLink fun l => { l with overruns := sat16 l.overruns }

/-- LINK judges a received frame by its source and destination (R175). -/
def State.receive (s : State) (f : RxFrame) : State :=
  if f.source = s.link.address then s.clash f
  else if f.destination = s.link.address ∨ f.destination = 0xFF then s.enqueue f
  else s

/-- FRAME_RECEIVED (R174 to R176). -/
def execFrameReceived (f : BusFrame) (s : State) : Host.Outcome State Fault Refusal :=
  .next (if f.extended && !f.remote && receivesIn s.cfg.node then s.receive (rxOfBus f) else s)

/-! ## Transmission -/

/-- Attempts are allowed in the node state and link state (R182, R184, R185). -/
def State.mayAttempt (s : State) : Bool :=
  attemptsIn s.cfg.node && !s.link.onWire && (s.link.state != .silent || s.link.probe)

/-- With no current frame and one selectable, LINK discards by age and reports each discard, then chooses among what the
classes hold (R182). All discards are made before the first report, the model's choice (log 57). -/
def State.select (s : State) : State :=
  if (currentFrame s.link).isSome || !anySelectable s.cfg.node s.link then s
  else
    let r := ageAll s.now s.link
    ({ s with link := r.1 }.reports r.2).onLink (chooseFrame s.cfg.node)

/-- The transmitter selects when it has no current frame and makes an attempt (R182). -/
def State.attempt (s : State) : State := s.select.onLink startAttempt

/-- The current frame is judged by age and its discard reported (R182). -/
def State.judgeCurrent (s : State) : State :=
  let r := ageCurrent s.now s.link
  { s with link := r.1 }.report r.2

/-- TRANSMIT_ATTEMPT_START: the bus is free (R182). A probe that found nothing selectable at its hold's expiry is made with the
first frame by rank as the classes stand here, the model's choice (R184; log 60). -/
def execTransmitAttemptStart (s : State) : Host.Outcome State Fault Refusal :=
  .next (if s.mayAttempt then s.attempt else s)

/-- TRANSMIT_SUCCESS: sent, reported, and the link is well again (R182, R183); the report comes before the clear of 0x72, the
model's choice (log 7). -/
def execTransmitSuccess (s : State) : Host.Outcome State Fault Refusal :=
  .next (if s.link.onWire then
      let r := attemptSucceeded s.link
      let t := { s with link := r.1 }.report r.2
      if s.link.state = .active then t else t.clearNotice 0x72
    else s)

/-- ARBITRATION_LOST: the frame stays current; a probe is to be made again (R182, R184). -/
def execArbitrationLost (s : State) : Host.Outcome State Fault Refusal :=
  .next (if s.link.onWire then
      (s.onLink fun l => { attemptOver l with probe := l.state == .silent }).judgeCurrent
    else s)

/-- TRANSMIT_FAILURE: counted, the link state follows, and the frame is judged by age (R182 to R184), in that order; that the
raise of 0x72 comes before the judgement is the model's choice (log 7), and so is the judgement at a failure that enters or stays
in SILENT (R184; log 59). -/
def execTransmitFailure (s : State) : Host.Outcome State Fault Refusal :=
  .next (if s.link.onWire then
      let t := s.onLink fun l => countFailure s.now (attemptOver l)
      let t := if s.link.state = .active ∧ t.link.state = .suspect then t.raiseNotice 0x72 none .linkSuspect else t
      t.judgeCurrent
    else s)

/-- SILENT_HOLD_EXPIRY: the current frame is judged by age and the probe is made (R184); the probe stays due where nothing is
selectable (log 60). -/
def execSilentHoldExpiry (s : State) : Host.Outcome State Fault Refusal :=
  match s.link.silentHold with
  | none => .next s
  | some d =>
    let s := ((s.arriveAt d).onLink fun l => { l with silentHold := none, probe := true }).judgeCurrent
    .next (if s.mayAttempt then s.attempt else s)

end Sys2Proof.Machine
end

