-- ==== Sys2Proof/Machine/ImageCheck.lean ====
section
/-! DEFINITION. The checks of the configuration image, the values as the blocks take them, and the service
record as CFG judges it (R189, R191, 11.2, 11.3). -/

namespace Sys2Proof.Machine

/-! ## Checks of the image -/

/-- A value lies in a range. -/
def within (lo hi v : Int) : Bool := lo ≤ v && v ≤ hi

/-- The check CRC: length and CRC (R189). -/
def crcFails (r : ImageRead) : Bool := 4096 < r.length || r.length < r.needed || !crcHolds r.bytes

/-- The check VERSION (R189). -/
def versionFails (r : ImageRead) : Bool :=
  r.version != 1 || r.image.bitRate.isNone || 0xFD < r.image.nodeAddress

/-- The check GEOMETRY (R1). -/
def geometryFails (g : Geometry) : Bool :=
  !(within 500 15000 g.l1 && within 500 15000 g.l2 && within 500 15000 g.l3
    && g.l1 + g.l2 + g.l3 ≤ 28000 && within (-2000) 2000 g.xf && within 0 4000 g.zf)

/-- The roles that must be assigned (R24). -/
def requiredRoles : List Role :=
  [.boomAngle, .armAngle, .bucketAngle, .slewAngle, .engineState, .hydraulicState, .display]

/-- The check SUBSCRIPTION (R23). A source of 0xFE or 0xFF is not among its causes: such an entry is accepted and matches
the frames of that source (log 43). -/
def subscriptionFails (es : List Subscription) : Bool :=
  !(requiredRoles.all (fun r => es.any fun e => e.role == r)
    && (es.map (·.role)).Nodup
    && (es.map fun e => (e.source, e.kind)).Nodup
    && es.all (fun e => decide (10 ≤ e.period ∧ e.period ≤ 1000) && decide (3 ≤ e.staleMult ∧ e.staleMult ≤ 20)))

/-- A list is strictly increasing, each value below the next. -/
def rising : List Int → Bool
  | [] => true
  | [_] => true
  | a :: b :: rest => a < b && rising (b :: rest)

/-- The check THRESHOLDS (R63). -/
def thresholdsFail (z : Zones) : Bool := !(rising z.height && rising z.reach && rising z.slew)

/-- The action fields of a rule break a check (R68). -/
def actionsFail (idle : Nat) (a : RuleActions) : Bool :=
  a.speedCap.any (· < idle) || Channel.all.any (fun c => (a.cuts.get c).any (1000 < ·))
    || a.pumpCap.any (100 < ·) || a.sound == some none

/-- The check RULE, the caps judged against the idle speed as stored (R68, R69, R189). -/
def ruleFails (im : Image) : Bool :=
  im.rules.any (fun r => actionsFail im.economy.idleSpeed r.actions)
    || actionsFail im.economy.idleSpeed im.defaultRule

/-- The check CHANNEL of one channel (R96). -/
def channelFails (c : ChannelConfig) : Bool :=
  c.used && !([256, 128, 64, 32].contains c.modulus && [1, 2, 4, 8].contains c.countTime
    && decide (1 ≤ c.release ∧ c.release ≤ c.modulus) && decide (c.fail ≤ 1000))

/-- The check ECONOMY (R114). -/
def economyFails (e : EcoConfig) : Bool :=
  !(within 800 1200 e.idleSpeed
    && e.modeSpeed.toList.all (fun n => within 1000 2300 n && decide (e.idleSpeed ≤ n))
    && e.engineAddress != 0xFE && e.engineAddress != 0xFF)

/-- The check SERVICE (R140, R143). An interval or a grace above 1,000,000 is not among its causes: it is taken as stored
(log 47). -/
def serviceFails (v : ServiceConfig) : Bool :=
  v.liftLevel ≤ v.digLevel || !within 1 32768 v.minSwing || 16 < v.items.length
    || !(v.items.map (·.number)).Nodup
    || v.items.any (fun i => !within 1 16 i.number || i.interval == 0 || decide (i.interval ≤ i.lead) || i.basis.isNone)

/-- The fault code of an image read; none for an accepted image (R189). -/
def judgeImage (r : Option ImageRead) : Option FaultCode :=
  match r with
  | none => some .crc
  | some r =>
    if crcFails r then some .crc
    else if versionFails r then some .version
    else if geometryFails r.image.geometry then some .geometry
    else if subscriptionFails r.image.subscriptions then some .subscription
    else if thresholdsFail r.image.zones then some .thresholds
    else if ruleFails r.image then some .rule
    else if Channel.all.any fun c => channelFails (r.image.channels.get c) then some .channel
    else if economyFails r.image.economy then some .economy
    else if serviceFails r.image.service then some .service
    else none

/-! ## Values brought into range -/

/-- A band in range (R42). -/
def rangeBand (b : Band) : Band := ⟨clampInt 100 3000 b.b, clampInt 0 200 b.aStop⟩

/-- LIM's section in range (R42). -/
def rangeLimits (c : LimitConfig) : LimitConfig :=
  { c with
    floor := rangeBand c.floor
    ceiling := rangeBand c.ceiling
    reach := rangeBand c.reach
    slew := rangeBand c.slew
    slopeMin := clampInt (-500) 0 c.slopeMin
    slopeMax := clampInt 0 500 c.slopeMax }

/-- A channel as VCH holds it: nothing is held of an unused one (R96). -/
def rangeChannel (c : ChannelConfig) : ChannelConfig := if c.used then c else ⟨false, 0, 0, 0, 0⟩

/-- ECO's section in range (R114). -/
def rangeEconomy (e : EcoConfig) : EcoConfig :=
  { e with
    modePump := PerMode.tabulate fun m => clampInt 20 100 (e.modePump.get m)
    warmUp := clampInt (-40) 60 e.warmUp
    tolerance := clampInt 20 300 e.tolerance
    recoveryTimeout := clampInt 1 10 e.recoveryTimeout
    yieldConfirm := clampInt 200 5000 e.yieldConfirm
    runThreshold := clampInt 300 800 e.runThreshold }

/-- An accepted image as the blocks take it (R42, R81, R96, R114, R146, R158). No default is put in (log 45). -/
def rangeImage (im : Image) : Image :=
  { im with
    limits := rangeLimits im.limits
    holds := { im.holds with tmax := max 100 (min 6000 im.holds.tmax) }
    channels := PerChannel.tabulate fun c => rangeChannel (im.channels.get c)
    economy := rangeEconomy im.economy
    service := { im.service with remind := clampInt 600 65535 im.service.remind }
    notices := { im.notices with escalationMinutes := clampInt 10 120 im.notices.escalationMinutes } }

/-! ## What the blocks make of the image -/

/-- A subscription entry at its power-on values (R23). -/
def newStream (e : Subscription) : Stream where
  number := e.number
  role := e.role
  source := e.source
  kind := e.kind
  period := e.period
  staleMult := e.staleMult
  state := .neverSeen
  mailbox := Mailbox.empty
  arrival := 0
  lastSeq := none
  recoveryStart := 0
  absence := none
  faultCause := none
  frozen := false
  gaps := 0
  duplicates := 0
  staleEpisodes := 0
  malformed := 0

/-- The members of a list in the order of their numbers 0..15 or so, each number once (R38, R152). -/
def inOrder {α : Type} (limit : Nat) (number : α → Nat) (xs : List α) : List α :=
  (List.range limit).filterMap fun n => xs.find? fun x => number x == n

/-- The subscription table in entry order (R23, R38). -/
def newStreams (im : Image) : List Stream := (inOrder 12 (·.number) im.subscriptions).map newStream

/-- The items in ascending number (R143, R152). -/
def newItems (im : Image) : List ServiceItem :=
  (inOrder 17 (·.number) im.service.items).map fun c => ⟨c, 0, .ok, none⟩

/-! ## The service record -/

/-- The values of a record block (11.3). -/
structure RecordData where
  engineSeconds : Nat
  weighted : Nat
  cycles : Nat
  unaccounted : Nat
  fuelTotal : BitVec 32
  fuelRem : Nat
  lastDone : Nat → Nat
  settings : SettingsBlock

/-- A limit value of the record, present by its bit (11.3). -/
def storedLimit (block : List Byte) (n place : Nat) : Option Int :=
  if (byteAt block 88).getLsbD n then some (s16At block place) else none

/-- The operator settings block of the record (11.3). -/
def readSettings (block : List Byte) : SettingsBlock where
  limits :=
    { floor := if (byteAt block 88).getLsbD 0 then some ⟨s16At block 89, s16At block 91, s16At block 93⟩ else none
      ceiling := storedLimit block 1 95
      reach := storedLimit block 2 97
      slewLeft := storedLimit block 3 99
      slewRight := storedLimit block 4 101 }
  mode := (byteAt block 103).toNat
  autoIdle := (byteAt block 104).toNat
  delay := (byteAt block 105).toNat
  profile := (byteAt block 106).toNat

/-- A record block read (11.3). -/
def readRecord (block : List Byte) : RecordData where
  engineSeconds := u32At block 0
  weighted := u32At block 4
  cycles := u32At block 8
  unaccounted := u32At block 12
  fuelTotal := BitVec.ofNat 32 (u32At block 16)
  fuelRem := u32At block 20
  lastDone n := u32At block (24 + 4 * (n - 1))
  settings := readSettings block

/-- What is taken when the record is lost (R191). -/
def lostRecord (defaults : SettingsBlock) : RecordData := ⟨0, 0, 0, 0, 0, 0, fun _ => 0, defaults⟩

/-- The check that a record read fails; none for an accepted record (R191). Of several, the first in the order in which R191
lists them (log 51). -/
def judgeRecord (block : Option (List Byte)) : Option RecordCheck :=
  match block with
  | none => some .noAnswerOrCrc
  | some b =>
    let d := readRecord b
    if b.length ≠ 128 ∨ !crcHolds b then some .noAnswerOrCrc
    else if engineLimit < d.engineSeconds then some .engineSeconds
    else if d.weighted < 4 * d.engineSeconds ∨ 12 * d.engineSeconds < d.weighted then some .weightedBand
    else if 71999 < d.fuelRem then some .remainder
    else none

/-! ## Settings as their owners take them -/

/-- The work mode of a stored code; STANDARD for a code outside the four (R115). -/
def takeMode (n : Nat) : WorkMode := (WorkMode.ofCode n).getD .standard

/-- The auto-idle enable of a stored byte (R115); free for a byte other than 0 and 1 (log 11). -/
def takeEnable (n : Nat) : Bool := if n = 0 then false else if n = 1 then true else Config.autoIdleOutside n

/-- The delay of a stored byte, in range (R115). -/
def takeDelay (v : Int) : Nat := (clampInt 4 30 v).toNat

/-- The profile of a stored byte (R75); free, within 0..3, for a byte above 3 (log 11). -/
def takeProfile (n : Nat) : Nat := if n ≤ 3 then n else (Config.profileOutside n).toNat

end Sys2Proof.Machine
end

