-- ==== Sys2Proof/Machine/Node.lean ====
section
/-! DEFINITION. CFG: the node states, the entries to them with what every block does there, NODE STATUS, and the
commands of CFG, with the ends of a record write, which may end STORE (chapter 11). -/

namespace Sys2Proof.Machine

/-! ## NODE STATUS -/

/-- Node state codes; NODE STATUS is sent in CONFIG_FAULT, RUN, STORE and QUIET alone (R193). -/
def nodeCode : NodeState → Nat
  | .startRead => 0 | .configFault => 1 | .recordRead => 2 | .join => 3 | .run => 4 | .store => 5 | .quiet => 6

/-- Fault codes (R193). -/
def faultNumber : FaultCode → Nat
  | .crc => 1 | .version => 2 | .geometry => 3 | .subscription => 4 | .thresholds => 5
  | .rule => 6 | .channel => 7 | .economy => 8 | .service => 9

/-- Link state codes (R193). -/
def linkStateCode : LinkState → Nat
  | .active => 0 | .suspect => 1 | .silent => 2

/-- The state code of a subscription entry, 15 for an unassigned one (R193). -/
def State.entryCode (s : State) (n : Nat) : Nat := ((s.entry n).map fun e => streamStateCode e.state).getD 15

/-- The counts and flags of NODE STATUS after the state and fault code: in CONFIG_FAULT every count is 0 (R193). -/
def State.statusCounts (s : State) : List Nat :=
  if s.cfg.node = .configFault then List.replicate 8 0
  else
    [s.link.overruns, s.link.malformed, s.link.clashes, s.link.ageDiscards, s.link.overflows, s.link.thinned,
      s.link.failedAttempts, s.link.failures]

/-- NODE STATUS data (R193). -/
def nodeStatusData (s : State) : List Byte :=
  [byteOf (nodeCode s.cfg.node), byteOf ((s.cfg.fault.map faultNumber).getD 0),
    byteOf (bit s.svc.lastFailed + 2 * bit s.cfg.recordLost.isSome), byteOf (linkStateCode s.link.state)]
    ++ be2 s.svc.writeFails ++ be4 s.svc.unaccounted
    ++ ((List.range 6).map fun i => byteOf (s.entryCode (2 * i) + 16 * s.entryCode (2 * i + 1)))
    ++ (s.statusCounts.flatMap fun (n : Nat) => be2 n)

/-- CFG offers a NODE STATUS (R193). -/
def State.offerNodeStatus (s : State) : State :=
  s.offerBackground (s.frame .nodeStatus 0xFF (nodeStatusData s))

/-- The period of the status timer in ms (R193). -/
def statusPeriod : NodeState → Nat
  | .quiet => 5000
  | _ => 1000

/-! ## Entries to node states -/

/-- LINK at an entry to JOIN (R175, R176, R181, R185). An attempt on the wire is abandoned, as at STORE (log 20). -/
def joinLink (l : LinkUnit) : LinkUnit :=
  { emptyClasses l with
    rx := [], itemsTaken := 0, state := .active, failures := 0, silentHold := none, probe := false, thinning := false }

/-- The entry to JOIN (R188, R39, R62, R185); ECO re-reads the grant at the state event of its entry (R34, R120). -/
def State.enterJoin (s : State) : State :=
  State.holdGrant { s with
    cfg := { s.cfg with node := .join, joinTimer := some (after s.now 200), statusTimer := none }
    streams := s.streams.map joinEntry
    lim := restLim s.lim
    link := joinLink s.link }

/-- LINK at the entry to QUIET: queued frames other than NODE STATUS are discarded, and an attempt of one is
abandoned (R185; log 20). -/
def quietLink (l : LinkUnit) : LinkUnit :=
  let keeps := (currentFrame l).any fun c => c.2.kind == .nodeStatus
  let l' := { l with
    urgent := l.urgent.filter fun f => f.kind == .nodeStatus
    background := l.background.filter fun f => f.kind == .nodeStatus
    onWire := l.onWire && keeps
    beside := l.beside.filter fun f => f.kind == .nodeStatus
    probe := l.probe || (l.onWire && !keeps && l.state == .silent) }
  setClass l' .normal (l.normal.filter fun f => f.kind == .nodeStatus)

/-- The entry to QUIET (R188, R185, R193). LINK discards its frames before CFG offers the NODE STATUS, the model's choice
(log 7). -/
def State.enterQuiet (s : State) : State :=
  State.offerNodeStatus { s with
    cfg := { s.cfg with node := .quiet, joinTimer := none, statusTimer := some (after s.now 5000) }
    link := quietLink s.link }

/-- JOIN with the debounced key on, QUIET with it off (R188). -/
def State.joinOrQuiet (s : State) : State := if s.cfg.key then s.enterJoin else s.enterQuiet

/-- The departure from RUN to STORE: every block leaves RUN and SVC requests the record write (R188, R151, and
R19, R39, R62, R79, R94, R108, R136, R154, R167, R173, R185). -/
def State.leaveRun (s : State) : State :=
  State.requestWrite { s with
    cfg := { s.cfg with node := .store }
    pose := leavePose s.pose
    streams := s.streams.map freezeEntry
    stmReply := none
    lim := restLim s.lim
    rule := leaveRule s.rule
    hold := ⟨[], none, none⟩
    vch := emptyChannels s.img
    eco := leaveEco s.img.economy s.svc.derate s.eco
    svc := leaveSvc s.svc
    ntc := leaveNtc s.img.notices.busyFlag s.ntc
    snd := sndClear s.snd
    link := emptyClasses s.link }

/-! ## The entry to RUN -/

/-- The node state and the timers of the entry to RUN, before any block forms its state (R11, R29, R61, R94, R130,
R135, R138, R153, R166, R193). -/
def State.startRun (s : State) : State :=
  { s with
    cfg := { s.cfg with node := .run, joinTimer := none, statusTimer := some (after s.now 1000) }
    pose := { s.pose with timer := some (after s.now 20) }
    streams := s.streams.map (runEntry s.now)
    lim := { s.lim with statusTimer := some (after s.now 100) }
    hold := { s.hold with quantumTimer := some (after s.now 10) }
    eco := ecoStartTimers s.now s.eco
    svc := svcStartTimers s.now s.svc
    ntc := { s.ntc with summaryTimer := some (after s.now 1000) } }

/-- LINK raises the clash that its mark keeps (R175). -/
def State.raiseClash (s : State) : State :=
  match s.link.clashMark with
  | none => s
  | some m =>
    (s.onLink fun l => { l with clashMark := none }).raiseNotice 0x71 none (.clash m.1 m.2 s.link.clashes)

/-- CFG raises RECORD_LOST while its flag is set (R192). -/
def State.raiseLost (s : State) : State :=
  match s.cfg.recordLost with
  | none => s
  | some c => s.raiseNotice 0x70 none (.record c)

/-- LIM's writes at the entry to RUN and RULE's of the first winner, in either order, after the evaluation that RULE's
build reads (R62, R78, R107). A period start may come before, between or after them. -/
def limitThread (rulesFirst : Bool) : List (State → State) :=
  (fun s => s.evaluateStates fun _ => true) ::
    if rulesFirst then [State.rebuild, State.writeLimitDemands] else [State.writeLimitDemands, State.rebuild]

/-- What the blocks do at the entry to RUN, each with its events in order; either of two blocks may be taken first
(R39, R62, R78, R107, R136, R154, R167, R175, R192; log 6). The entry is the first period start of every channel. -/
def runThreads (rulesFirst : Bool) : List (List (State → State)) :=
  [[State.raiseFaults], limitThread rulesFirst,
    [fun s => s.beginPeriod .boomUp], [fun s => s.beginPeriod .boomDown], [fun s => s.beginPeriod .armIn],
    [fun s => s.beginPeriod .armOut], [fun s => s.beginPeriod .slewLeft], [fun s => s.beginPeriod .slewRight],
    [State.ecoEnterRun], [State.svcEnterRun], [State.formNtc], [State.raiseClash], [State.raiseLost]]

/-- LIM's URGENT LIMIT STATUS frames of the entry to RUN: one where the evaluation has changed a limit state since `before`,
and one for each channel whose first period start has changed its state (R61, R106). They are formed when every channel has
had its first period start, so that they carry the states of it (R107). -/
def State.reportEntry (s before : State) : State :=
  let s' := if statesDiffer before.lim.records s.lim.records then s.offerStatusChange else s
  (Channel.all.filter fun c => (s.vch.get c).state != (before.vch.get c).state).foldl (fun t _ => t.offerStatusChange) s'

/-- The entry to RUN (R188). -/
def State.enterRun (s : State) : State :=
  let choice := s.startRun.pick 2
  (anyOrder (runThreads (choice.1 == 1)) choice.2).reportEntry s

/-! ## START_READ and RECORD_READ -/

/-- Every block takes its values from an accepted image, and the node goes to RECORD_READ (R188, R189). -/
def State.acceptImage (s : State) (stored : Image) : State :=
  let im := rangeImage stored
  { s with
    cfg := { s.cfg with node := .recordRead, fault := none }
    image := some im
    streams := newStreams im
    vch := emptyChannels im
    svc := { s.svc with items := newItems im }
    ntc := { s.ntc with busyInhibit := im.notices.busyFlag }
    link := { s.link with address := BitVec.ofNat 8 im.nodeAddress, bitRate := im.bitRate } }

/-- The address and bit rate in CONFIG_FAULT (R185, R190): the image's when both hold allowed values (log 21). -/
def faultBus (r : Option ImageRead) : Byte × BitRate :=
  match r with
  | some r =>
    match r.image.bitRate with
    | some b => if r.image.nodeAddress ≤ 0xFD then (BitVec.ofNat 8 r.image.nodeAddress, b) else (0xFD, .kbit250)
    | none => (0xFD, .kbit250)
  | none => (0xFD, .kbit250)

/-- A refused image: CONFIG_FAULT with its fault code (R190, R193). -/
def State.refuseImage (s : State) (r : Option ImageRead) (c : FaultCode) : State :=
  let b := faultBus r
  { s with
    cfg := { s.cfg with node := .configFault, fault := some c, statusTimer := some (after s.now 1000) }
    link := { s.link with address := b.1, bitRate := some b.2 } }

/-- Every block takes its values from the record, or from the defaults when it is lost (R41, R75, R115, R132, R134,
R137, R143, R191). -/
def State.takeRecord (s : State) (d : RecordData) (lost : Option RecordCheck) : State :=
  let set := takeLimitSet s.img.limits d.settings.limits
  { s with
    cfg := { s.cfg with recordLost := lost }
    lim := restLim { s.lim with set := set }
    rule := { s.rule with profile := takeProfile d.settings.profile }
    eco := { s.eco with
      mode := takeMode d.settings.mode
      autoIdle := takeEnable d.settings.autoIdle
      delay := takeDelay d.settings.delay
      fuelTotal := d.fuelTotal
      fuelRem := d.fuelRem
      cycleMark := d.fuelTotal }
    svc := { s.svc with
      engineSeconds := d.engineSeconds
      weighted := d.weighted
      cycles := d.cycles
      unaccounted := d.unaccounted
      items := s.svc.items.map fun i => { i with lastDone := d.lastDone i.config.number } } }

/-- The record as CFG hands it on: as read, or lost (R191). -/
def recordOf (block : Option (List Byte)) (defaults : SettingsBlock) : RecordData :=
  match judgeRecord block, block with
  | none, some b => readRecord b
  | _, _ => lostRecord defaults

/-- The end of the record read: values taken, items evaluated, the derate flag and the target speed formed, and
JOIN or QUIET by the key (R128, R154, R188, R191). -/
def State.endRecordRead (s : State) (block : Option (List Byte)) : State :=
  let s := s.takeRecord (recordOf block s.img.defaults) (judgeRecord block)
  let s := s.evaluate fun _ => true
  (s.onEco fun e => { e with target := e.formTarget s.img.economy s.svc.derate }).joinOrQuiet

/-! ## The end of a record write -/

/-- The store is complete when no write is in flight in STORE; the node leaves it by the key (R151, R188). -/
def State.storeEnd (s : State) : State :=
  if s.cfg.node = .store ∧ s.svc.write.isNone then s.joinOrQuiet else s

/-! ## The commands -/

/-- POWER_ON_START: every block at its power-on values, the debounced key at the level of the pin (R187), and each channel's
record as R98 gives it, PASS for a channel that was used (R108). The queue of commands and the use of free choices are not
the part's. -/
def execPowerOnStart (s : State) : Host.Outcome State Fault Refusal :=
  .next { State.reset with
    pending := s.pending
    freeCount := s.freeCount
    vch := emptyChannels s.img
    cfg := { State.reset.cfg with keyPin := s.cfg.keyPin, key := s.cfg.keyPin } }

/-- KEY_INPUT_CHANGE: the 50 ms measurement starts or is cancelled (R187). -/
def execKeyInputChange (level : Bool) (s : State) : Host.Outcome State Fault Refusal :=
  .next (if level = s.cfg.keyPin then s
    else s.onCfg fun c => { c with
      keyPin := level
      debounce := if level = c.key then none else some (after s.now 50) })

/-- CFG acts on a change of the debounced key (R188). -/
def State.keyEvent (s : State) : State :=
  match s.cfg.node with
  | .join => if s.cfg.key then s else s.enterQuiet
  | .run => if s.cfg.key then s else s.leaveRun
  | .quiet => if s.cfg.key then s.enterJoin else s
  | .startRead | .configFault | .recordRead | .store => s

/-- KEY_DEBOUNCE_EXPIRY (R187, R188). The debounced key is on with the pin high (log 52). -/
def execKeyDebounceExpiry (s : State) : Host.Outcome State Fault Refusal :=
  match s.cfg.debounce with
  | none => .next s
  | some d => .next ((s.arriveAt d).onCfg fun c => { c with key := c.keyPin, debounce := none }).keyEvent

/-- IMAGE_READ_DONE (R188, R189). -/
def execImageReadDone (r : Option ImageRead) (s : State) : Host.Outcome State Fault Refusal :=
  if s.cfg.node = .startRead then
    match judgeImage r, r with
    | none, some i => .next (s.acceptImage i.image)
    | none, none => .next (s.refuseImage r .crc)
    | some c, _ => .next (s.refuseImage r c)
  else .next s

/-- RECORD_READ_DONE (R188, R191). -/
def execRecordReadDone (block : Option (List Byte)) (s : State) : Host.Outcome State Fault Refusal :=
  .next (if s.cfg.node = .recordRead then s.endRecordRead block else s)

/-- JOIN_TIMER_EXPIRY (R188). -/
def execJoinTimerExpiry (s : State) : Host.Outcome State Fault Refusal :=
  match s.cfg.joinTimer with
  | none => .next s
  | some d => .next (s.arriveAt d).enterRun

/-- NODE_STATUS_TIMER_EXPIRY (R193). -/
def execNodeStatusTimerExpiry (s : State) : Host.Outcome State Fault Refusal :=
  match s.cfg.statusTimer with
  | none => .next s
  | some d =>
    .next (((s.arriveAt d).onCfg fun c =>
      { c with statusTimer := some (after d (statusPeriod c.node)) }).offerNodeStatus)

/-- RECORD_WRITE_DONE: the port reports a write complete, or that the memory does not answer (`answered` false: log
24). A write succeeds within 50 ms of its start (R150, R151). -/
def execRecordWriteDone (answered : Bool) (s : State) : Host.Outcome State Fault Refusal :=
  match s.svc.write with
  | none => .next s
  | some w => .next (s.endWrite (answered && reached w.deadline s.now)).storeEnd

/-- RECORD_WRITE_TIMEOUT: 50 ms have passed; the write has failed (R150, R151). -/
def execRecordWriteTimeout (s : State) : Host.Outcome State Fault Refusal :=
  match s.svc.write with
  | none => .next s
  | some w => .next ((s.arriveAt w.deadline).endWrite false).storeEnd

end Sys2Proof.Machine
end

