-- ==== Sys2Proof/Machine/Clock.lean ====
section
/-! DEFINITION. The clock: what falls due by itself, and the passing of one microsecond. The step of an empty queue uses
it (log 1). -/

namespace Sys2Proof.Machine

/-! ## What is due -/

/-- A command whose timer has reached its end. -/
def dueAt (now : Ms) (t : Option Ms) (c : Instr) : List Instr :=
  match t with
  | some d => if reached now d then [c] else []
  | none => []

/-- The timers of an entry that are due (R28, R29). -/
def State.dueStream (s : State) (e : Stream) : List Instr :=
  if s.timersRun e then
    match e.state with
    | .fresh => dueAt s.now (some (lateEnd e)) (.lateTimerExpiry e.number)
    | .late => dueAt s.now (some (staleEnd e)) (.staleTimerExpiry e.number)
    | .recovering => dueAt s.now (some (windowEnd e)) (.recoveryWindowExpiry e.number)
    | .neverSeen => if s.inRun then dueAt s.now e.absence (.absenceWatchExpiry e.number) else []
    | .stale => []
  else []

/-- The blocks' timers that are due. -/
def State.dueTimers (s : State) : List Instr :=
  dueAt s.now s.cfg.debounce .keyDebounceExpiry
    ++ dueAt s.now s.cfg.joinTimer .joinTimerExpiry
    ++ dueAt s.now s.cfg.statusTimer .nodeStatusTimerExpiry
    ++ dueAt s.now s.pose.timer .posePeriodExpiry
    ++ s.streams.flatMap s.dueStream
    ++ dueAt s.now s.lim.statusTimer .limitStatusTimerExpiry
    ++ dueAt s.now s.hold.quantumTimer .quantumTimerExpiry
    ++ dueAt s.now s.eco.delayTimer .idleDelayExpiry
    ++ dueAt s.now s.eco.recoveryTimer .recoveryTimerExpiry
    ++ dueAt s.now s.eco.yieldTimer .yieldTimerExpiry
    ++ dueAt s.now s.eco.requestTimer .requestTimerExpiry
    ++ dueAt s.now s.eco.secondTimer .ecoSecondExpiry
    ++ dueAt s.now s.eco.reportTimer .economyReportTimerExpiry
    ++ dueAt s.now s.svc.secondTimer .svcSecondExpiry
    ++ dueAt s.now s.svc.summaryTimer .serviceSummaryTimerExpiry
    ++ dueAt s.now (s.svc.write.map (·.deadline)) .recordWriteTimeout
    ++ dueAt s.now s.ntc.settleTimer .settleTimerExpiry
    ++ (s.ntc.pending.flatMap fun r =>
        dueAt s.now (r.escalationStart.map fun t => after t s.escalationMs) (.escalationTimerExpiry r.id))
    ++ dueAt s.now s.ntc.summaryTimer .noticeSummaryTimerExpiry
    ++ (match s.snd.playing with
        | .nothing => []
        | .oneShot _ d => dueAt s.now (some d) .oneShotEnd
        | .sustained _ _ _ d => dueAt s.now d .cadencePhaseExpiry)
    ++ dueAt s.now s.snd.silence .silenceTimerExpiry
    ++ dueAt s.now s.link.silentHold .silentHoldExpiry

/-- The counter of a used channel has come to the end of its period (R100). -/
def periodOver (cfg : ChannelConfig) (r : ChannelRecord) : Bool :=
  cfg.modulus ≤ r.counter + 1 && cfg.countTime ≤ r.subCount

/-- The counter of a used channel has reached the adopted duty, below the modulus (R103). -/
def dutyOver (cfg : ChannelConfig) (r : ChannelRecord) : Bool :=
  r.pin && r.duty < cfg.modulus && r.duty ≤ r.counter

/-- The channel events that are due (R100, R103). -/
def State.dueChannels (s : State) : List Instr :=
  Channel.all.flatMap fun c =>
    let cfg := s.img.channels.get c
    if s.inRun && cfg.used then
      (if periodOver cfg (s.vch.get c) then [.periodStart c] else [])
        ++ (if dutyOver cfg (s.vch.get c) then [.dutyEnd c] else [])
    else []

/-- The command that takes an item of a code (10.7). -/
def settingCommand (code : Nat) : Instr :=
  if code = 0x01 then .setFloor else if code = 0x02 then .setFloorAtTip else if code = 0x03 then .setGradeSlope
  else if code = 0x04 then .clearFloor else if code = 0x05 then .setCeiling else if code = 0x06 then .clearCeiling
  else if code = 0x07 then .setReach else if code = 0x08 then .clearReach else if code = 0x09 then .setSlewLeft
  else if code = 0x0A then .setSlewRight else if code = 0x0B then .setSlewLeftHere
  else if code = 0x0C then .setSlewRightHere else if code = 0x0D then .clearSlew
  else if code = 0x10 then .workMode else if code = 0x11 then .autoIdleEnable
  else if code = 0x12 then .autoIdleDelay else if code = 0x18 then .setProfile
  else if code = 0x20 then .serviceDone else if code = 0x28 then .noticeInhibit
  else if code = 0x29 then .noticeAck else if code = 0x2A then .silence else .settingItemUnknown

/-- The command that takes the frame at the head of the receive queue (R176, R177). -/
def State.dueFrame (s : State) : List Instr :=
  match s.link.rx with
  | [] => []
  | f :: _ =>
    match rxOwner s.streams f with
    | .stm => [.streamFrameArrival]
    | .setting => (s.nextItem.map fun i => settingCommand i.code).toList
    | .hold => [.holdRequest]
    | .streamStats => [.streamStats]
    | .ruleStats => [.ruleStats]
    | .ruleStatsClear => [.ruleStatsClear]
    | .itemTable => [.itemTable]
    | .nobody => []
    | .tooShort => []

/-- Everything that is due now (log 31). -/
def State.due (s : State) : List Instr := s.dueTimers ++ s.dueChannels ++ s.dueFrame

/-! ## One microsecond -/

/-- A used channel's counter through one microsecond; at the end of the period it waits for the period start (R100;
log 25). -/
def tickChannel (cfg : ChannelConfig) (r : ChannelRecord) : ChannelRecord :=
  if r.subCount + 1 < cfg.countTime then { r with subCount := r.subCount + 1 }
  else if r.counter + 1 < cfg.modulus then { r with counter := r.counter + 1, subCount := 0 }
  else { r with subCount := cfg.countTime }

/-- Every channel's counter through one microsecond: only used channels in RUN count (R100). -/
def State.tickChannels (s : State) : PerChannel ChannelRecord :=
  PerChannel.tabulate fun c =>
    let cfg := s.img.channels.get c
    if s.inRun && cfg.used then tickChannel cfg (s.vch.get c) else s.vch.get c

/-- One microsecond passes (0.7; log 25). -/
def State.tick (s : State) : State :=
  { s with
    vch := s.tickChannels
    micros := if s.micros + 1 < 1000 then s.micros + 1 else 0
    now := if s.micros + 1 < 1000 then s.now else s.now + 1 }

/-- The clock's turn: one of the commands that are due joins the empty queue, or a microsecond passes (log 1, log 31). -/
def State.clock (s : State) : State :=
  if s.due.isEmpty then s.tick
  else
    let choice := s.pick s.due.length
    { choice.2 with pending := (s.due[choice.1]?).toList }

end Sys2Proof.Machine
end

