-- ==== Sys2Proof/Machine/Dispatch.lean ====
section
/-! DEFINITION. exec: one arm per command, each a direct call of its meaning. -/

namespace Sys2Proof.Machine

def exec (i : Instr) (s : State) : Host.Outcome State Fault Refusal :=
  match i with
  | .powerOnStart => Sys2Proof.Machine.execPowerOnStart s
  | .keyDebounceExpiry => Sys2Proof.Machine.execKeyDebounceExpiry s
  | .imageReadDone r => Sys2Proof.Machine.execImageReadDone r s
  | .recordReadDone block => Sys2Proof.Machine.execRecordReadDone block s
  | .joinTimerExpiry => Sys2Proof.Machine.execJoinTimerExpiry s
  | .nodeStatusTimerExpiry => Sys2Proof.Machine.execNodeStatusTimerExpiry s
  | .posePeriodExpiry => Sys2Proof.Machine.execPosePeriodExpiry s
  | .frameReceived f => Sys2Proof.Machine.execFrameReceived f s
  | .streamFrameArrival => Sys2Proof.Machine.execStreamFrameArrival s
  | .lateTimerExpiry entry => Sys2Proof.Machine.execLateTimerExpiry entry s
  | .staleTimerExpiry entry => Sys2Proof.Machine.execStaleTimerExpiry entry s
  | .recoveryWindowExpiry entry => Sys2Proof.Machine.execRecoveryWindowExpiry entry s
  | .absenceWatchExpiry entry => Sys2Proof.Machine.execAbsenceWatchExpiry entry s
  | .setFloor => Sys2Proof.Machine.execSetFloor s
  | .setFloorAtTip => Sys2Proof.Machine.execSetFloorAtTip s
  | .setGradeSlope => Sys2Proof.Machine.execSetGradeSlope s
  | .clearFloor => Sys2Proof.Machine.execClearFloor s
  | .setCeiling => Sys2Proof.Machine.execSetCeiling s
  | .clearCeiling => Sys2Proof.Machine.execClearCeiling s
  | .setReach => Sys2Proof.Machine.execSetReach s
  | .clearReach => Sys2Proof.Machine.execClearReach s
  | .setSlewLeft => Sys2Proof.Machine.execSetSlewLeft s
  | .setSlewRight => Sys2Proof.Machine.execSetSlewRight s
  | .setSlewLeftHere => Sys2Proof.Machine.execSetSlewLeftHere s
  | .setSlewRightHere => Sys2Proof.Machine.execSetSlewRightHere s
  | .clearSlew => Sys2Proof.Machine.execClearSlew s
  | .workMode => Sys2Proof.Machine.execWorkMode s
  | .autoIdleEnable => Sys2Proof.Machine.execAutoIdleEnable s
  | .autoIdleDelay => Sys2Proof.Machine.execAutoIdleDelay s
  | .setProfile => Sys2Proof.Machine.execSetProfile s
  | .serviceDone => Sys2Proof.Machine.execServiceDone s
  | .noticeInhibit => Sys2Proof.Machine.execNoticeInhibit s
  | .noticeAck => Sys2Proof.Machine.execNoticeAck s
  | .silence => Sys2Proof.Machine.execSilence s
  | .settingItemUnknown => Sys2Proof.Machine.execSettingItemUnknown s
  | .holdRequest => Sys2Proof.Machine.execHoldRequest s
  | .streamStats => Sys2Proof.Machine.execStreamStats s
  | .ruleStats => Sys2Proof.Machine.execRuleStats s
  | .ruleStatsClear => Sys2Proof.Machine.execRuleStatsClear s
  | .itemTable => Sys2Proof.Machine.execItemTable s
  | .limitStatusTimerExpiry => Sys2Proof.Machine.execLimitStatusTimerExpiry s
  | .quantumTimerExpiry => Sys2Proof.Machine.execQuantumTimerExpiry s
  | .holdEntryExpiry who => Sys2Proof.Machine.execHoldEntryExpiry who s
  | .periodStart c => Sys2Proof.Machine.execPeriodStart c s
  | .dutyEnd c => Sys2Proof.Machine.execDutyEnd c s
  | .idleDelayExpiry => Sys2Proof.Machine.execIdleDelayExpiry s
  | .recoveryTimerExpiry => Sys2Proof.Machine.execRecoveryTimerExpiry s
  | .yieldTimerExpiry => Sys2Proof.Machine.execYieldTimerExpiry s
  | .requestTimerExpiry => Sys2Proof.Machine.execRequestTimerExpiry s
  | .ecoSecondExpiry => Sys2Proof.Machine.execEcoSecondExpiry s
  | .economyReportTimerExpiry => Sys2Proof.Machine.execEconomyReportTimerExpiry s
  | .svcSecondExpiry => Sys2Proof.Machine.execSvcSecondExpiry s
  | .reremindExpiry item => Sys2Proof.Machine.execReremindExpiry item s
  | .serviceSummaryTimerExpiry => Sys2Proof.Machine.execServiceSummaryTimerExpiry s
  | .recordWriteDone answered => Sys2Proof.Machine.execRecordWriteDone answered s
  | .recordWriteTimeout => Sys2Proof.Machine.execRecordWriteTimeout s
  | .settleTimerExpiry => Sys2Proof.Machine.execSettleTimerExpiry s
  | .escalationTimerExpiry id => Sys2Proof.Machine.execEscalationTimerExpiry id s
  | .noticeSummaryTimerExpiry => Sys2Proof.Machine.execNoticeSummaryTimerExpiry s
  | .oneShotEnd => Sys2Proof.Machine.execOneShotEnd s
  | .cadencePhaseExpiry => Sys2Proof.Machine.execCadencePhaseExpiry s
  | .silenceTimerExpiry => Sys2Proof.Machine.execSilenceTimerExpiry s
  | .transmitAttemptStart => Sys2Proof.Machine.execTransmitAttemptStart s
  | .transmitSuccess => Sys2Proof.Machine.execTransmitSuccess s
  | .arbitrationLost => Sys2Proof.Machine.execArbitrationLost s
  | .transmitFailure => Sys2Proof.Machine.execTransmitFailure s
  | .silentHoldExpiry => Sys2Proof.Machine.execSilentHoldExpiry s
  | .keyInputChange level => Sys2Proof.Machine.execKeyInputChange level s

end Sys2Proof.Machine
end

