-- ==== Sys2Proof/Safety.lean ====
section
/-! DEFINITION. The laws of the part as predicates on State, each from the rule that states it, and the small notions that
the statements about commands use. -/

namespace Sys2Proof.Machine

/-! ## Laws that every step keeps -/

/-- No transmit class holds more frames than its capacity (R180), the receive queue at most 16 (R176). -/
def LinkBounded (s : State) : Prop :=
  s.link.urgent.length ≤ 4 ∧ s.link.normal.length ≤ 8 ∧ s.link.background.length ≤ 8 ∧ s.link.rx.length ≤ 16

/-- A channel record as it is outside RUN: no demand, no target, no duty, the counter stopped at 0, the output low
(R108, R109). -/
def ChannelAtRest (r : ChannelRecord) : Prop :=
  r.limit = none ∧ r.rule = none ∧ r.hold = none ∧ r.fail = none ∧ r.target = 0 ∧ r.targetDuty = 0 ∧ r.duty = 0
    ∧ r.counter = 0 ∧ r.subCount = 0 ∧ r.pin = false

/-- Outside RUN every channel is at rest, so every output is low (R102, R109). -/
def ValvesRest (s : State) : Prop := s.cfg.node ≠ .run → ∀ c : Channel, ChannelAtRest (s.vch.get c)

/-- An output is high only in a used channel, with a duty adopted, while the counter has not passed it (R97, R103). At the
duty itself DUTY_END is due and lowers the output before the counter goes on. -/
def PinsFollowDuty (s : State) : Prop :=
  ∀ c : Channel, (s.vch.get c).pin = true →
    (s.img.channels.get c).used = true ∧ 0 < (s.vch.get c).duty ∧ (s.vch.get c).counter ≤ (s.vch.get c).duty

/-- Outside RUN the sounder plays nothing and holds no request (R173), NTC holds no notice (R167), the hold table is
empty (R94), RULE has no winner and no key (R79), ECO is OFF and requests nothing (R136), POSE's timer is stopped and
its record INVALID (R19, R20), and the detector is READY (R154). -/
def UnitsRest (s : State) : Prop :=
  s.cfg.node ≠ .run →
    (s.snd.playing = .nothing ∧ s.snd.class1 = false ∧ s.snd.class2 = none ∧ s.snd.class3 = none ∧ s.snd.class4 = []
      ∧ s.snd.waiting = none ∧ s.snd.silence = none)
    ∧ (s.ntc.queue = [] ∧ s.ntc.pending = [] ∧ s.ntc.locals = [] ∧ s.ntc.operatorInhibit = false
      ∧ s.ntc.settleTimer = none ∧ s.ntc.summaryTimer = none)
    ∧ (s.hold.entries = [] ∧ s.hold.overflow = none ∧ s.hold.quantumTimer = none)
    ∧ (s.rule.winner = none ∧ s.rule.key = none ∧ s.rule.reply = none)
    ∧ (s.eco.state = .off ∧ s.eco.requested = none ∧ s.eco.pumpLimit = none ∧ s.eco.neutralSince = none
      ∧ s.eco.delayTimer = none ∧ s.eco.recoveryTimer = none ∧ s.eco.yieldTimer = none ∧ s.eco.requestTimer = none
      ∧ s.eco.secondTimer = none ∧ s.eco.reportTimer = none ∧ s.eco.fuelMark = none)
    ∧ (s.pose.timer = none ∧ s.pose.record.quality = .invalid ∧ s.lim.statusTimer = none)
    ∧ (s.svc.secondTimer = none ∧ s.svc.summaryTimer = none ∧ s.svc.detector = .ready ∧ s.svc.psi0 = none)

/-- The hold table (R82): at most eight requester entries, never two for one requester, every remaining time within
1..Tmax, and none of 0xFE and 0xFF as requester (R83); outside RUN the table is empty (R94). An image that the part holds
gives a Tmax of at least 100 (R81). -/
def HoldsBounded (s : State) : Prop :=
  s.hold.entries.length ≤ 8
    ∧ (s.hold.entries.map (·.requester)).Nodup
    ∧ (∀ e ∈ s.hold.entries, 1 ≤ e.remaining ∧ e.remaining ≤ s.img.holds.tmax ∧ e.requester ≠ 0xFE ∧ e.requester ≠ 0xFF)
    ∧ (∀ o ∈ s.hold.overflow, 1 ≤ o.remaining ∧ o.remaining ≤ s.img.holds.tmax)
    ∧ (s.cfg.node ≠ .run → s.hold.entries = [] ∧ s.hold.overflow = none)
    ∧ (∀ im ∈ s.image, 100 ≤ im.holds.tmax)

/-- The notices (R161): a queue of at most eight, no id twice in the queue, the pending set and the local set taken
together, the two sets in the order of ids in which the model keeps them, and the queue in its order. -/
def NoticesOrdered (s : State) : Prop :=
  s.ntc.queue.length ≤ 8
    ∧ ((s.ntc.queue ++ s.ntc.pending ++ s.ntc.locals).map (·.id)).Nodup
    ∧ (s.ntc.pending.Pairwise fun a b => a.id < b.id) ∧ (s.ntc.locals.Pairwise fun a b => a.id < b.id)
    ∧ s.ntc.queue.Pairwise fun a b => queueBefore a b = true

/-- The counters (R137): weighted eighth-seconds between four and twelve times engine seconds, engine seconds within
their limit; a load in a mailbox is at most 100 (R27). -/
def CountsInBand (s : State) : Prop :=
  s.svc.engineSeconds ≤ 357913941
    ∧ 4 * s.svc.engineSeconds ≤ s.svc.weighted ∧ s.svc.weighted ≤ 12 * s.svc.engineSeconds
    ∧ s.svc.cycles ≤ 4294967295 ∧ s.svc.unaccounted ≤ 4294967295
    ∧ ∀ e ∈ s.streams, e.mailbox.load ≤ 100

/-- The fuel remainder is below one millilitre (R132), the gap remainder below one second (R133). -/
def FuelInRange (s : State) : Prop := s.eco.fuelRem ≤ 71999 ∧ s.eco.gapRem ≤ 999

/-- The operator settings in their ranges (R41, R75, R115) with the two separations of R48. -/
def SettingsLegal (s : State) : Prop :=
  (∀ f ∈ s.lim.set.floor, -20000 ≤ f.f0 ∧ f.f0 ≤ 10000)
    ∧ (∀ c ∈ s.lim.set.ceiling, -5000 ≤ c ∧ c ≤ 20000)
    ∧ (∀ r ∈ s.lim.set.reach, 1000 ≤ r ∧ r ≤ 30000)
    ∧ (∀ f ∈ s.lim.set.floor, ∀ c ∈ s.lim.set.ceiling, f.f0 + 500 ≤ c)
    ∧ (∀ l ∈ s.lim.set.slewLeft, ∀ r ∈ s.lim.set.slewRight, 1820 ≤ l - r)
    ∧ (4 ≤ s.eco.delay ∧ s.eco.delay ≤ 30) ∧ s.rule.profile ≤ 3

/-- The operator settings in their ranges: `SettingsLegal` with the grade slope in the image's slope range and the reference
reach and the slew limits signed 16-bit values (R41, R42). Beside them stands what keeps them so: a slope range that holds 0,
links and a foot pin that reach 30,000 mm at most (R1), the pose record's reaches within it (R9), and no limit while the image
is not yet read. -/
def SettingsSound (s : State) : Prop :=
  SettingsLegal s
    ∧ (∀ f ∈ s.lim.set.floor, (s.img.limits.slopeMin ≤ f.s ∧ f.s ≤ s.img.limits.slopeMax) ∧ signed16 f.r0 = true)
    ∧ (∀ l ∈ s.lim.set.slewLeft, signed16 l = true) ∧ (∀ l ∈ s.lim.set.slewRight, signed16 l = true)
    ∧ (-500 ≤ s.img.limits.slopeMin ∧ s.img.limits.slopeMin ≤ 0 ∧ 0 ≤ s.img.limits.slopeMax ∧ s.img.limits.slopeMax ≤ 500)
    ∧ (0 ≤ s.img.geometry.l1 ∧ 0 ≤ s.img.geometry.l2 ∧ 0 ≤ s.img.geometry.l3 ∧ s.img.geometry.maxReach ≤ 30000)
    ∧ (∀ r ∈ [s.pose.record.p1Reach, s.pose.record.p2Reach, s.pose.record.p3Reach], -30000 ≤ r ∧ r ≤ 30000)
    ∧ (s.cfg.node = .startRead → s.lim.set = LimitSet.empty)

/-- In RUN one rule is the winner, the one that the held key selects, and outside RUN there is no winner and no key; there
are 33 hit counters and none exceeds 65535 (R70, R74, R79). -/
def WinnerStands (s : State) : Prop :=
  (s.cfg.node = .run → ∃ k, s.rule.key = some k ∧ s.rule.winner = some (lookup s.img.rules k))
    ∧ (s.cfg.node ≠ .run → s.rule.key = none ∧ s.rule.winner = none)
    ∧ s.rule.hits.length = 33 ∧ ∀ n ∈ s.rule.hits, n ≤ 65535

/-- Per-mille values are per-mille: demands, hold levels, and what the image gives (R68, R82, R96, R98). -/
def CutsPerMille (s : State) : Prop :=
  (∀ c : Channel, (∀ n ∈ (s.vch.get c).limit, n ≤ 1000) ∧ (∀ n ∈ (s.vch.get c).rule, n ≤ 1000)
      ∧ (∀ n ∈ (s.vch.get c).hold, n ≤ 1000) ∧ (∀ n ∈ (s.vch.get c).fail, n ≤ 1000))
    ∧ (∀ e ∈ s.hold.entries, e.level ≤ 1000) ∧ (∀ o ∈ s.hold.overflow, o.level ≤ 1000)
    ∧ (∀ c : Channel, (s.img.channels.get c).fail ≤ 1000)
    ∧ (∀ r ∈ s.img.rules, ∀ c : Channel, ∀ n ∈ r.actions.cuts.get c, n ≤ 1000)
    ∧ (∀ c : Channel, ∀ n ∈ s.img.defaultRule.cuts.get c, n ≤ 1000)
    ∧ (∀ l : Limit, 0 ≤ (bandOf s.img.limits l).aStop ∧ (bandOf s.img.limits l).aStop ≤ 1000)
    ∧ (∀ l : Limit, (s.lim.records.get l).state = .approach → ∀ m ∈ (s.lim.records.get l).margin,
        0 < m ∧ m < (bandOf s.img.limits l).b)
    ∧ (s.cfg.node ≠ .run → ∀ l : Limit, (s.lim.records.get l).state ≠ .approach)

/-- In RUN the adopted duty of a used channel is at least its target duty and at most its modulus (R102). -/
def DutiesBounded (s : State) : Prop :=
  CutsPerMille s ∧
    (s.cfg.node ≠ .run → ∀ c : Channel, (s.vch.get c).duty = 0 ∧ (s.vch.get c).targetDuty = 0)
    ∧ ∀ c : Channel, (s.img.channels.get c).used = true →
        (s.vch.get c).targetDuty ≤ (s.vch.get c).duty ∧ (s.vch.get c).duty ≤ (s.img.channels.get c).modulus

/-- The transmitter (R179, R182): one current frame at most; an attempt is of a current frame; a frame held beside an
attempt is of its kind; no attempt is made while the hold of SILENT runs (R184); no class holds two unsent frames of
one periodic kind (R180); and thinning is on with six frames or more in NORMAL and off with three or fewer (R181). -/
def TransmitterSound (s : State) : Prop :=
  ((s.link.urgent ++ s.link.normal ++ s.link.background).filter (·.current)).length ≤ 1
    ∧ (s.link.onWire = true → (currentFrame s.link).isSome = true)
    ∧ (∀ b ∈ s.link.beside, s.link.onWire = true ∧ ∃ x, currentFrame s.link = some x ∧ x.2.kind = b.kind
        ∧ periodic x.1 b.kind = true)
    ∧ (s.link.silentHold.isSome = true → s.link.state = .silent ∧ s.link.probe = false ∧ s.link.onWire = false)
    ∧ (∀ cls k, periodic cls k = true → ((classOf s.link cls).filter (·.kind == k)).length ≤ 1)
    ∧ (6 ≤ s.link.normal.length → s.link.thinning = true) ∧ (s.link.normal.length ≤ 3 → s.link.thinning = false)

/-- What the sounder plays (R170 to R172): nothing only with no live request and none waiting; a one-shot only where no live
request outranks it and it is not muted; a sustained pattern only as the highest-ranked live request's, with no one-shot
waiting. A muted one-shot does not wait. -/
def SounderRanked (s : State) : Prop :=
  (∀ o ∈ s.snd.waiting, sndMuted s.snd o.cls = false) ∧
  match s.snd.playing with
  | .nothing => sndLive s.snd = [] ∧ s.snd.waiting = none
  | .oneShot o _ => sndOutranked s.snd o.cls = false ∧ sndMuted s.snd o.cls = false
  | .sustained cls p _ _ =>
    s.snd.waiting = none ∧ ∃ r, (sndLive s.snd).head? = some r ∧ r.1 = cls ∧ samePattern p r.2 = true

/-! ## Notions of the statements -/

/-- The newest frame of class URGENT has this kind, destination and data: what a response offered last leaves. -/
def LastUrgent (l : LinkUnit) (k : TxKind) (destination : Byte) (data : List Byte) : Prop :=
  ∃ f, l.urgent.getLast? = some f ∧ f.kind = k ∧ f.destination = destination ∧ f.data = data

/-- A frame of this kind, destination and data is queued in a class or held beside the attempt (R179). -/
def Queued (l : LinkUnit) (cls : TxClass) (k : TxKind) (destination : Byte) (data : List Byte) : Prop :=
  ∃ f, (f ∈ classOf l cls ∨ l.beside = some f) ∧ f.kind = k ∧ f.destination = destination ∧ f.data = data

/-- From `l` to `l'` a frame of a class, the first there that is current, gives its place to the frames `place` (none of them, where it
leaves), and the other classes stand. -/
def GivesPlace (l l' : LinkUnit) (cls : TxClass) (f : TxFrame) (place : List TxFrame) : Prop :=
  ∃ before rest, classOf l cls = before ++ f :: rest ∧ (∀ g ∈ before, g.current = false)
    ∧ classOf l' cls = before ++ place ++ rest ∧ ∀ c, c ≠ cls → classOf l' c = classOf l c

/-- No frame of a kind is queued, held beside an attempt, or on the wire. -/
def NoneQueued (l : LinkUnit) (k : TxKind) : Prop :=
  ∀ f, (f ∈ l.urgent ∨ f ∈ l.normal ∨ f ∈ l.background ∨ l.beside = some f) → f.kind ≠ k

/-- The notices that NTC holds: the queue, the pending set and the local set (R156). -/
def Ntc.held (n : Ntc) : List NoticeRecord := n.queue ++ n.pending ++ n.locals

/-- `t` is `s` in RUN after a change of the hold table that places nothing: the HOLD demands follow the table, and where it has become
empty RULE rebuilds the key and then 0x38 is cleared (R92, R93). -/
def HoldsTold (s t : State) : Prop :=
  ∃ v : State, v = { s with hold := t.hold, vch := v.vch }
    ∧ (∀ c : Channel, v.vch.get c = { s.vch.get c with hold := t.hold.demand c })
    ∧ t = if s.hold.active = true ∧ t.hold.active = false then v.rebuild.clearNotice 0x38 else v

/-- `u` is `s` after the stream-fault notice of an entry has followed its cause: raised with a new one, cleared where the condition
has ended, untouched where the cause stands (R35). -/
def FaultTold (s u : State) (before after : Stream) : Prop :=
  (after.faultCause = before.faultCause → u = s)
  ∧ (∀ c, after.faultCause = some c → before.faultCause ≠ some c →
      u = s.raiseNotice (0x20 + after.number) none (.stream c))
  ∧ (after.faultCause = none → before.faultCause ≠ none → u = s.clearNotice (0x20 + after.number))

/-- `t` is `s` after an entry to QUIET: the join timer stops and the status timer runs, its first expiry 5000 ms later; every queued frame
but NODE STATUS is discarded, and the attempt of a discarded frame abandoned, its probe due again in SILENT; then a NODE STATUS is
offered, formed at the entry (R185, R188, R193). The abandoned attempt and the discard before the offer are the model's choice
(logs 7, 20). -/
def EntersQuiet (s t : State) : Prop :=
  t.cfg = { s.cfg with node := .quiet, joinTimer := none, statusTimer := some (after s.now 5000) }
    ∧ t = { s with cfg := t.cfg, link := t.link }
    ∧ Queued t.link .background .nodeStatus 0xFF (nodeStatusData { s with cfg := t.cfg })
    ∧ (∀ cls, ∀ f ∈ classOf t.link cls, f.kind = .nodeStatus) ∧ (∀ f ∈ t.link.beside, f.kind = .nodeStatus)
    ∧ (t.link.onWire = true ↔ s.link.onWire = true ∧ ∃ x, currentFrame s.link = some x ∧ x.2.kind = .nodeStatus)
    ∧ ∃ l : LinkUnit, l = { s.link with
          urgent := s.link.urgent.filter fun f => f.kind == .nodeStatus
          normal := s.link.normal.filter fun f => f.kind == .nodeStatus
          background := s.link.background.filter fun f => f.kind == .nodeStatus
          beside := s.link.beside.filter fun f => f.kind == .nodeStatus
          onWire := t.link.onWire
          probe := s.link.probe || (s.link.onWire && !t.link.onWire && s.link.state == .silent)
          thinning := l.thinning }
      ∧ (l.normal.length ≤ 3 → l.thinning = false)
      ∧ t.link = (offerFrame .quiet .background
          ⟨.nodeStatus, 0xFF, nodeStatusData { s with cfg := t.cfg }, s.now, false, none⟩ l).1

/-- `t` is `s` after an entry to JOIN: the join timer runs for 200 ms and the status timer stops; every entry is NEVER_SEEN as at
power-on, its statistics kept, so ECO reads the grant as none; each present limit is in FAULT; and LINK's queues are empty, its state
ACTIVE with no failure counted (R34, R39, R62, R120, R181, R185, R188). The abandoned attempt and the one re-reading of the grant are
the model's choice (logs 20, 35), and so is the recovery start that an entry keeps (log 39). -/
def EntersJoin (s t : State) : Prop :=
  t = { s with
      cfg := { s.cfg with node := .join, joinTimer := some (after s.now 200), statusTimer := none }
      streams := s.streams.map fun e => { e with
        state := .neverSeen, mailbox := Mailbox.empty, arrival := 0, lastSeq := none, absence := none
        faultCause := none, frozen := false }
      lim := { s.lim with records := t.lim.records, statusTimer := none }
      eco := { s.eco with grant := .none }
      link := { s.link with
        rx := [], itemsTaken := 0, urgent := [], normal := [], background := [], onWire := false, beside := none
        state := .active, failures := 0, silentHold := none, probe := false, thinning := false } }
    ∧ ∀ l : Limit, t.lim.records.get l = ⟨if s.lim.set.has l then .fault else .off, none⟩

/-- `t` is `s` after an evaluation of the service items that `p` selects: their states by the points, a re-remind time ended by a
rise (R144, R145); the derate flag, with ECO's target re-formed in RUN where it changes (R147, R129); and in RUN the notice of each item
that is not OK and whose change of state `tells` of it, with the severity of its state (R145, R154; a held id may keep a higher one:
log 18). Outside RUN no notice is raised. -/
def ItemsEvaluated (s t : State) (p : ServiceItem → Bool) (tells : ItemState → ItemState → Prop) : Prop :=
  t = { s with
      eco := t.eco, svc := { s.svc with items := t.svc.items, derate := t.svc.derate }, ntc := t.ntc, snd := t.snd
      link := t.link }
    ∧ t.svc.items = s.svc.items.map (fun i => if p i then { i with
          state := i.stateAt (s.svc.reading i)
          remind := if itemStateCode i.state < itemStateCode (i.stateAt (s.svc.reading i)) then none else i.remind }
        else i)
    ∧ (t.svc.derate = true ↔ ∃ i ∈ t.svc.items, i.config.derate = true ∧ i.state = .overdue)
    ∧ (s.cfg.node = .run → t.svc.derate ≠ s.svc.derate → t.eco.target = t.eco.formTarget s.img.economy t.svc.derate)
    ∧ (t.svc.derate = s.svc.derate → t.eco = s.eco)
    ∧ (s.cfg.node ≠ .run → t = { s with svc := t.svc })
    ∧ ∀ now : ServiceItem → ItemState, now = (fun i => if p i then i.stateAt (s.svc.reading i) else i.state) →
      (t.svc.derate = s.svc.derate → (∀ i ∈ s.svc.items, tells i.state (now i) → now i = .ok) → t = { s with svc := t.svc })
      ∧ (s.cfg.node = .run → s.image.isSome = true → NoticesOrdered s → (s.svc.items.map (·.config.number)).Nodup →
        ∀ i ∈ s.svc.items, 1 ≤ i.config.number → i.config.number ≤ 16 → ∀ v, tells i.state (now i) →
          itemSeverity (now i) = some v →
          ∃ r ∈ t.ntc.held, r.id = i.config.number ∧ v.rank ≤ r.severity.rank
            ∧ r.detail = .service i.config.name (now i) (i.inReport (s.svc.reading i)) (i.inReport i.duePoint)
            ∧ ((∀ x ∈ s.ntc.held, x.id ≠ i.config.number) → r.severity = v))

/-- An OPERATOR SETTING item has been answered by one SETTING RESPONSE (10.7). -/
def ItemAnswered (t : State) (i : SettingItem) (r : SettingResult) (v0 v1 v2 : Option Int) : Prop :=
  LastUrgent t.link .settingResponse i.source (settingData i.code r v0 v1 v2)

/-- The newest frame of class URGENT refuses the item with STATE, whatever values it carries. -/
def ItemRefusedState (t : State) (i : SettingItem) : Prop :=
  ∃ f, t.link.urgent.getLast? = some f ∧ f.kind = .settingResponse ∧ f.destination = i.source
    ∧ f.data.take 3 = [byteOf i.code, 2, 1]

/-- The limit items with their codes (10.7). -/
def limitItems : List (Nat × Instr) := [
  (0x01, .setFloor), (0x02, .setFloorAtTip), (0x03, .setGradeSlope), (0x04, .clearFloor), (0x05, .setCeiling),
  (0x06, .clearCeiling), (0x07, .setReach), (0x08, .clearReach), (0x09, .setSlewLeft), (0x0A, .setSlewRight),
  (0x0B, .setSlewLeftHere), (0x0C, .setSlewRightHere), (0x0D, .clearSlew)]

/-- The setting items that are answered, with their codes (10.7); NOTICE_ACK is not answered (R164). -/
def answeredItems : List (Nat × Instr) := limitItems ++ [
  (0x10, .workMode), (0x11, .autoIdleEnable), (0x12, .autoIdleDelay), (0x18, .setProfile), (0x20, .serviceDone),
  (0x28, .noticeInhibit), (0x2A, .silence)]

/-- Two states agree outside what a limit item may change: the limit set and its records; the LIMIT, RULE and FAIL demands;
RULE's key, winner and hits; ECO's state, caps, request and the timers that go with its state; the notices that NTC holds and
the count of logged ones; the sounder but for its silence; and LINK's queues with the counts of malformed, discarded and
thinned frames. -/
def AgreeOutsideLimits (s t : State) : Prop :=
  t = { s with lim := t.lim, rule := t.rule, vch := t.vch, eco := t.eco, ntc := t.ntc, snd := t.snd, link := t.link }
    ∧ t.lim = { s.lim with set := t.lim.set, records := t.lim.records }
    ∧ t.rule = { s.rule with key := t.rule.key, winner := t.rule.winner, hits := t.rule.hits }
    ∧ (∀ c : Channel, t.vch.get c = { s.vch.get c with
        limit := (t.vch.get c).limit, rule := (t.vch.get c).rule, fail := (t.vch.get c).fail })
    ∧ t.eco = { s.eco with
        state := t.eco.state, speedCap := t.eco.speedCap, pumpCap := t.eco.pumpCap, idleInhibit := t.eco.idleInhibit
        delayTimer := t.eco.delayTimer, delayStart := t.eco.delayStart, recoveryTimer := t.eco.recoveryTimer
        yieldTimer := t.eco.yieldTimer, target := t.eco.target, requested := t.eco.requested, speedGov := t.eco.speedGov
        pumpLimit := t.eco.pumpLimit, pumpGov := t.eco.pumpGov }
    ∧ t.ntc = { s.ntc with
        pending := t.ntc.pending, queue := t.ntc.queue, locals := t.ntc.locals, logCount := t.ntc.logCount }
    ∧ t.snd.silence = s.snd.silence
    ∧ t.link = { s.link with
        rx := t.link.rx, itemsTaken := t.link.itemsTaken, urgent := t.link.urgent, normal := t.link.normal
        background := t.link.background, onWire := t.link.onWire, beside := t.link.beside, probe := t.link.probe
        thinning := t.link.thinning, malformed := t.link.malformed, overflows := t.link.overflows
        thinned := t.link.thinned }

end Sys2Proof.Machine
end

