-- ==== Sys2Proof/Certificates/Slice0/Obligations.lean ====
section
/-! DEFINITION. The statements about the model, each a Prop with the rules it comes from. A step of an empty queue is the
clock's turn (log 1), so the laws kept by every step speak of it too. -/

section

open Sys2Proof Sys2Proof.Machine

/-! ## The queue of commands -/

/-- A step with a command at the front of the queue is that command on the state with the queue's rest. -/
def Obligations.FrontCommandRuns : Prop :=
  ∀ (c : Instr) (rest : List Instr) (s : State), s.pending = c :: rest → step s = exec c { s with pending := rest }

/-- Every command ends in a next state, in every state of the part, and leaves the queue as it was. A step of an empty queue is
the clock's turn: one of the commands that are due joins the queue, and with nothing due one microsecond passes, in the time
base and in the counters of the used channels in RUN (0.7, R100). At the end of its period a counter waits for its PERIOD_START, the
model's choice (log 25).
What is due, each way: an expiry where its timer runs and the time base has reached its end; PERIOD_START where a used channel's
counter has come to the end of its period in RUN, DUTY_END where it has reached the adopted duty with the output high (R100, R102, R103);
and the command that takes the frame at the head of the receive queue, or its next item (R176, R177). An event from outside, such as a
frame on the bus or the end of an attempt, is never due, nor are the two removals that an expiry brings about by itself (logs 14, 15).
That a timer's expiry is due at its end, and for how long, is the model's reading of the time base (logs 2, 38, 41).
The model's choices here: logs 1, 2, 3, 4, 14, 15, 25, 31, 38, 41. -/
def Obligations.EveryCommandCompletes : Prop :=
  (∀ (c : Instr) (s : State), ∃ t, exec c s = .next t ∧ t.pending = s.pending)
  ∧ (∀ s : State, s.pending = [] → s.due ≠ [] →
    ∃ t c, step s = .next t ∧ c ∈ s.due ∧ t = { s with pending := [c], freeCount := t.freeCount })
  ∧ (∀ s : State, s.pending = [] → s.due = [] → ∃ t, step s = .next t
      ∧ (s.micros + 1 < 1000 → t.now = s.now ∧ t.micros = s.micros + 1)
      ∧ (1000 ≤ s.micros + 1 → t.now = s.now + 1 ∧ t.micros = 0)
      ∧ (∀ c : Channel, (s.cfg.node ≠ .run ∨ (s.img.channels.get c).used = false) → t.vch.get c = s.vch.get c)
      ∧ (∀ c : Channel, s.cfg.node = .run → (s.img.channels.get c).used = true →
          (s.vch.get c).subCount + 1 < (s.img.channels.get c).countTime →
          t.vch.get c = { s.vch.get c with subCount := (s.vch.get c).subCount + 1 })
      ∧ (∀ c : Channel, s.cfg.node = .run → (s.img.channels.get c).used = true →
          (s.img.channels.get c).countTime ≤ (s.vch.get c).subCount + 1 →
          (s.vch.get c).counter + 1 < (s.img.channels.get c).modulus →
          t.vch.get c = { s.vch.get c with counter := (s.vch.get c).counter + 1, subCount := 0 })
      ∧ (∀ c : Channel, s.cfg.node = .run → (s.img.channels.get c).used = true →
          (s.img.channels.get c).countTime ≤ (s.vch.get c).subCount + 1 →
          (s.img.channels.get c).modulus ≤ (s.vch.get c).counter + 1 →
          t.vch.get c = { s.vch.get c with subCount := (s.img.channels.get c).countTime })
      ∧ t = { s with now := t.now, micros := t.micros, vch := t.vch })
  ∧ (∀ now d : Ms, reached now d = true ↔ (now - d).toNat < 2147483648)
  ∧ (∀ s : State, ∀ x ∈ [
      (s.cfg.debounce, Instr.keyDebounceExpiry), (s.cfg.joinTimer, .joinTimerExpiry), (s.cfg.statusTimer, .nodeStatusTimerExpiry),
      (s.pose.timer, .posePeriodExpiry), (s.lim.statusTimer, .limitStatusTimerExpiry), (s.hold.quantumTimer, .quantumTimerExpiry),
      (s.eco.delayTimer, .idleDelayExpiry), (s.eco.recoveryTimer, .recoveryTimerExpiry), (s.eco.yieldTimer, .yieldTimerExpiry),
      (s.eco.requestTimer, .requestTimerExpiry), (s.eco.secondTimer, .ecoSecondExpiry),
      (s.eco.reportTimer, .economyReportTimerExpiry), (s.svc.secondTimer, .svcSecondExpiry),
      (s.svc.summaryTimer, .serviceSummaryTimerExpiry), (s.svc.write.map (·.deadline), .recordWriteTimeout),
      (s.ntc.settleTimer, .settleTimerExpiry), (s.ntc.summaryTimer, .noticeSummaryTimerExpiry),
      (s.snd.silence, .silenceTimerExpiry), (s.link.silentHold, .silentHoldExpiry)],
      x.2 ∈ s.due ↔ ∃ d, x.1 = some d ∧ reached s.now d = true)
  ∧ (∀ s : State,
      (.oneShotEnd ∈ s.due ↔ ∃ o d, s.snd.playing = .oneShot o d ∧ reached s.now d = true)
      ∧ (.cadencePhaseExpiry ∈ s.due ↔ ∃ cls p on d, s.snd.playing = .sustained cls p on (some d) ∧ reached s.now d = true))
  ∧ (∀ (s : State) (id : Nat), .escalationTimerExpiry id ∈ s.due ↔ ∃ r ∈ s.ntc.pending, r.id = id ∧
      ∃ start, r.escalationStart = some start
        ∧ reached s.now (after start (s.img.notices.escalationMinutes * 60000).toNat) = true)
  ∧ (∀ (s : State) (n : Nat),
      (.lateTimerExpiry n ∈ s.due ↔ ∃ e ∈ s.streams, e.number = n ∧ s.timersRun e = true ∧ e.state = .fresh
        ∧ reached s.now (after e.arrival (2 * e.period + 1)) = true)
      ∧ (.staleTimerExpiry n ∈ s.due ↔ ∃ e ∈ s.streams, e.number = n ∧ s.timersRun e = true ∧ e.state = .late
        ∧ reached s.now (after e.arrival (e.staleMult * e.period + 1)) = true)
      ∧ (.recoveryWindowExpiry n ∈ s.due ↔ ∃ e ∈ s.streams, e.number = n ∧ s.timersRun e = true ∧ e.state = .recovering
        ∧ reached s.now (after e.recoveryStart (2 * e.period + 1)) = true)
      ∧ (.absenceWatchExpiry n ∈ s.due ↔ s.cfg.node = .run ∧ ∃ e ∈ s.streams, e.number = n ∧ e.state = .neverSeen
        ∧ ∃ d, e.absence = some d ∧ reached s.now d = true))
  ∧ (∀ (s : State) (c : Channel),
      (.periodStart c ∈ s.due ↔ s.cfg.node = .run ∧ (s.img.channels.get c).used = true
        ∧ (s.img.channels.get c).modulus ≤ (s.vch.get c).counter + 1
        ∧ (s.img.channels.get c).countTime ≤ (s.vch.get c).subCount)
      ∧ (.dutyEnd c ∈ s.due ↔ s.cfg.node = .run ∧ (s.img.channels.get c).used = true ∧ (s.vch.get c).pin = true
        ∧ (s.vch.get c).duty < (s.img.channels.get c).modulus ∧ (s.vch.get c).duty ≤ (s.vch.get c).counter))
  ∧ (∀ s : State, ∀ x ∈ [(RxOwner.stm, Instr.streamFrameArrival), (.hold, .holdRequest), (.streamStats, .streamStats),
      (.ruleStats, .ruleStats), (.ruleStatsClear, .ruleStatsClear), (.itemTable, .itemTable)],
      x.2 ∈ s.due ↔ ∃ f, s.headFor x.1 = some f)
  ∧ (∀ s : State, ∀ x ∈ answeredItems ++ [(0x29, .noticeAck)], x.2 ∈ s.due ↔ ∃ i, s.itemFor x.1 = some i)
  ∧ (∀ s : State, .settingItemUnknown ∈ s.due ↔ ∃ i, s.nextItem = some i ∧ i.code ∉ settingCodes)
  ∧ (∀ (s : State) (o : RxOwner) (f : RxFrame), s.headFor o = some f ↔ s.link.rx.head? = some f ∧ rxOwner s.streams f = o)
  ∧ (∀ (s : State) (n : Nat) (i : SettingItem), s.itemFor n = some i ↔ s.nextItem = some i ∧ i.code = n)
  ∧ (∀ (s : State) (i : SettingItem), s.nextItem = some i ↔ ∃ f, s.headFor .setting = some f
      ∧ s.link.itemsTaken < itemCount f ∧ i = itemAt f s.link.itemsTaken)
  ∧ ∀ s : State, .powerOnStart ∉ s.due ∧ (∀ r, .imageReadDone r ∉ s.due) ∧ (∀ b, .recordReadDone b ∉ s.due)
      ∧ (∀ f, .frameReceived f ∉ s.due) ∧ (∀ who, .holdEntryExpiry who ∉ s.due) ∧ (∀ n, .reremindExpiry n ∉ s.due)
      ∧ (∀ a, .recordWriteDone a ∉ s.due) ∧ .transmitAttemptStart ∉ s.due ∧ .transmitSuccess ∉ s.due
      ∧ .arbitrationLost ∉ s.due ∧ .transmitFailure ∉ s.due ∧ ∀ level, .keyInputChange level ∉ s.due

/-! ## Start, key and node states -/

/-- POWER_ON_START takes the node to START_READ from every state, with every block at its power-on values, the debounced
key at the level of the pin (R187), and every channel at rest at once, PASS where it was used (R98, R108, R109).
The model's choices here: logs 1, 12, 13. -/
def Obligations.PowerOnStart : Prop :=
  ∀ s : State, ∃ t, exec .powerOnStart s = .next t
    ∧ t.cfg = { State.reset.cfg with keyPin := s.cfg.keyPin, key := s.cfg.keyPin } ∧ t.cfg.node = .startRead
    ∧ t.image = none ∧ t.pose = State.reset.pose ∧ t.streams = [] ∧ t.stmReply = none
    ∧ t.lim = State.reset.lim ∧ t.rule = State.reset.rule ∧ t.hold = State.reset.hold
    ∧ (∀ c : Channel, ChannelAtRest (t.vch.get c)
        ∧ (t.vch.get c).state = if (s.img.channels.get c).used then .pass else .unused)
    ∧ t.eco = Eco.reset ∧ t.svc = Svc.reset ∧ t.ntc = Ntc.reset ∧ t.snd = Snd.reset ∧ t.link = LinkUnit.reset

/-- KEY_INPUT_CHANGE starts the 50 ms measurement or cancels it; KEY_DEBOUNCE_EXPIRY changes the debounced key, which
moves JOIN to QUIET, RUN to STORE and QUIET to JOIN and no other state (R187, R188). The entry to JOIN makes every entry
NEVER_SEEN, at which ECO re-reads the grant (R34, R39, R120; `EntersJoin`). The entry to QUIET stops the join timer, starts the status
timer with 5000 ms, discards every queued frame but NODE STATUS and offers a NODE STATUS (R185, R188, R193; `EntersQuiet`). A key that
moves no node state changes nothing else. That a high level of the pin is the key on is the model's choice.
The model's choices here: logs 2, 3, 7, 20, 35, 39, 52. -/
def Obligations.KeyMovesNode : Prop :=
  (∀ (s : State) (level : Bool), level ≠ s.cfg.keyPin →
    exec (.keyInputChange level) s = .next { s with cfg := { s.cfg with
      keyPin := level, debounce := if level = s.cfg.key then none else some (after s.now 50) } })
  ∧ (∀ s : State, exec (.keyInputChange s.cfg.keyPin) s = .next s)
  ∧ ∀ (s : State) (d : Ms), s.cfg.debounce = some d → ∃ t, exec .keyDebounceExpiry s = .next t
      ∧ t.cfg.key = s.cfg.keyPin ∧ t.cfg.keyPin = s.cfg.keyPin ∧ t.cfg.debounce = none ∧ t.cfg.fault = s.cfg.fault
      ∧ t.cfg.recordLost = s.cfg.recordLost
      ∧ (s.cfg.node = .run → t.cfg.node = if s.cfg.keyPin then .run else .store)
      ∧ (s.cfg.node = .join → t.cfg.node = if s.cfg.keyPin then .join else .quiet)
      ∧ (s.cfg.node = .quiet → t.cfg.node = if s.cfg.keyPin then .join else .quiet)
      ∧ (s.cfg.node ≠ .run → s.cfg.node ≠ .join → s.cfg.node ≠ .quiet → t.cfg.node = s.cfg.node)
      ∧ (s.cfg.node = .quiet → s.cfg.keyPin = true → t.cfg.joinTimer = some (after (s.arriveAt d).now 200)
          ∧ t.link.rx = [] ∧ t.link.urgent = [] ∧ t.link.normal = [] ∧ t.link.background = []
          ∧ t.link.state = .active ∧ t.link.failures = 0 ∧ t.eco = { s.eco with grant := .none }
          ∧ ∀ e ∈ t.streams, e.state = .neverSeen ∧ e.mailbox = Mailbox.empty ∧ e.lastSeq = none)
      ∧ ∀ u : State, u = { s.arriveAt d with cfg := { s.cfg with key := s.cfg.keyPin, debounce := none } } →
        (s.cfg.node = .join → s.cfg.keyPin = false → EntersQuiet u t)
        ∧ (s.cfg.node = .quiet → s.cfg.keyPin = true → EntersJoin u t)
        ∧ (t.cfg.node = s.cfg.node → t = u)

/-- The key off in RUN takes the node to STORE: every valve output low at once, every block at rest, the settings and
counts kept, the transmit classes empty, and the record write started with its snapshot or marked to follow
(R108, R149 to R151, R188). That a low level of the pin is the key off is the model's choice.
The model's choices here: logs 2, 52. -/
def Obligations.LeavingRunStops : Prop :=
  ∀ (s : State) (d : Ms), s.cfg.node = .run → s.cfg.debounce = some d → s.cfg.keyPin = false →
    ∃ t, exec .keyDebounceExpiry s = .next t ∧ t.cfg.node = .store
      ∧ (∀ c : Channel, ChannelAtRest (t.vch.get c)) ∧ UnitsRest t
      ∧ t.link.urgent = [] ∧ t.link.normal = [] ∧ t.link.background = [] ∧ t.link.onWire = false
      ∧ t.lim.set = s.lim.set ∧ t.rule.profile = s.rule.profile ∧ t.rule.hits = s.rule.hits
      ∧ t.eco.mode = s.eco.mode ∧ t.eco.autoIdle = s.eco.autoIdle ∧ t.eco.delay = s.eco.delay
      ∧ t.eco.fuelTotal = s.eco.fuelTotal ∧ t.eco.fuelRem = s.eco.fuelRem
      ∧ t.svc.engineSeconds = s.svc.engineSeconds ∧ t.svc.weighted = s.svc.weighted ∧ t.svc.cycles = s.svc.cycles
      ∧ t.svc.unaccounted = s.svc.unaccounted ∧ t.svc.items = s.svc.items
      ∧ t.ntc.logCount = s.ntc.logCount ∧ t.snd.dropped = s.snd.dropped
      ∧ (s.svc.write = none → t.svc.write = some ⟨recordBlock s, after (s.arriveAt d).now 50⟩)
      ∧ (∀ w, s.svc.write = some w → t.svc.write = some w ∧ t.svc.again = true)

/-- IMAGE_READ_DONE in START_READ: an accepted image takes the node to RECORD_READ and gives the blocks its values, each
brought into its range (R42, R81, R114, R146, R158), a refused one takes it to CONFIG_FAULT with the code of the first failing
check and gives no block any value (R188 to R190). The checks stand in the order of R189. In CONFIG_FAULT LINK has the image's
address and bit rate where the image allows both, and else 0xFD and 250 kbit/s (R190; log 21).
The model's choices here: logs 8, 21. -/
def Obligations.ImageReadJudged : Prop :=
  (∀ i : ImageRead, judgeImage (some i) = ((([
      (.crc, crcFails i), (.version, versionFails i), (.geometry, geometryFails i.image.geometry),
      (.subscription, subscriptionFails i.image.subscriptions), (.thresholds, thresholdsFail i.image.zones),
      (.rule, ruleFails i.image), (.channel, Channel.all.any fun c => channelFails (i.image.channels.get c)),
      (.economy, economyFails i.image.economy), (.service, serviceFails i.image.service)] : List (FaultCode × Bool)).find?
        fun x => x.2).map fun x => x.1))
  ∧ (∀ im : Image, rangeImage im = { im with
      limits := { im.limits with
        floor := rangeBand im.limits.floor, ceiling := rangeBand im.limits.ceiling, reach := rangeBand im.limits.reach
        slew := rangeBand im.limits.slew
        slopeMin := max (-500) (min 0 im.limits.slopeMin), slopeMax := max 0 (min 500 im.limits.slopeMax) }
      holds := { im.holds with tmax := max 100 (min 6000 im.holds.tmax) }
      channels := (rangeImage im).channels
      economy := { im.economy with
        modePump := (rangeImage im).economy.modePump, warmUp := max (-40) (min 60 im.economy.warmUp)
        tolerance := max 20 (min 300 im.economy.tolerance), recoveryTimeout := max 1 (min 10 im.economy.recoveryTimeout)
        yieldConfirm := max 200 (min 5000 im.economy.yieldConfirm), runThreshold := max 300 (min 800 im.economy.runThreshold) }
      service := { im.service with remind := max 600 (min 65535 im.service.remind) }
      notices := { im.notices with escalationMinutes := max 10 (min 120 im.notices.escalationMinutes) } })
  ∧ (∀ b : Band, rangeBand b = ⟨max 100 (min 3000 b.b), max 0 (min 200 b.aStop)⟩)
  ∧ (∀ (im : Image) (m : WorkMode), (rangeImage im).economy.modePump.get m = max 20 (min 100 (im.economy.modePump.get m)))
  ∧ (∀ (im : Image) (c : Channel),
      ((im.channels.get c).used = true → (rangeImage im).channels.get c = im.channels.get c)
      ∧ ((im.channels.get c).used = false → ((rangeImage im).channels.get c).used = false))
  ∧ ∀ (s : State) (r : Option ImageRead), s.cfg.node = .startRead → ∃ t, exec (.imageReadDone r) s = .next t
    ∧ (∀ c, judgeImage r = some c →
        t.cfg.node = .configFault ∧ t.cfg.fault = some c ∧ t.cfg.statusTimer = some (after s.now 1000)
          ∧ t = { s with cfg := t.cfg, link := t.link }
          ∧ t.link = { s.link with address := t.link.address, bitRate := t.link.bitRate }
          ∧ (∀ i b, r = some i → i.image.nodeAddress ≤ 0xFD → i.image.bitRate = some b →
              t.link.address = BitVec.ofNat 8 i.image.nodeAddress ∧ t.link.bitRate = some b)
          ∧ ((∀ i, r = some i → 0xFD < i.image.nodeAddress ∨ i.image.bitRate = none) →
              t.link.address = 0xFD ∧ t.link.bitRate = some .kbit250))
    ∧ (∀ i, r = some i → judgeImage r = none →
        t.cfg.node = .recordRead ∧ t.cfg.fault = none ∧ t.image = some (rangeImage i.image)
          ∧ t.link.address = BitVec.ofNat 8 i.image.nodeAddress ∧ t.link.bitRate = i.image.bitRate
          ∧ t.streams = newStreams i.image ∧ t.svc.items = newItems (rangeImage i.image)
          ∧ t.svc = { s.svc with items := t.svc.items }
          ∧ t.ntc = { s.ntc with busyInhibit := i.image.notices.busyFlag }
          ∧ t.link = { s.link with address := t.link.address, bitRate := t.link.bitRate }
          ∧ (∀ c : Channel, ChannelAtRest (t.vch.get c)
              ∧ (t.vch.get c).state = if (i.image.channels.get c).used then .pass else .unused)
          ∧ ((i.image.subscriptions.map (·.number)).Nodup → ∀ x ∈ i.image.subscriptions, x.number < 12 →
              t.entry x.number = some (newStream x))
          ∧ (∀ x ∈ i.image.service.items, t.svc.itemOf x.number = some ⟨x, 0, .ok, none⟩)
          ∧ (∀ e ∈ t.streams, e.state = .neverSeen ∧ e.gaps = 0 ∧ e.malformed = 0)
          ∧ (∀ x ∈ t.svc.items, x.lastDone = 0 ∧ x.state = .ok)
          ∧ t = { s with cfg := t.cfg, image := t.image, streams := t.streams, vch := t.vch, svc := t.svc, ntc := t.ntc,
                         link := t.link })
    ∧ (r = none → judgeImage r = some .crc)

/-- What an accepted image is sure to be: its CRC holds over a length within 4096 bytes that covers the sections (R189), and
its values pass the checks of R1, R23, R24, R63, R68, R69, R96, R114, R140 and R143.
The model's choices here: log 8. -/
def Obligations.AcceptedImageIsSound : Prop :=
  ∀ r : ImageRead, judgeImage (some r) = none →
    r.version = 1 ∧ r.image.nodeAddress ≤ 0xFD ∧ r.image.bitRate.isSome = true
    ∧ r.length ≤ 4096 ∧ r.needed ≤ r.length ∧ crcHolds r.bytes = true
    ∧ (500 ≤ r.image.geometry.l1 ∧ r.image.geometry.l1 ≤ 15000) ∧ (500 ≤ r.image.geometry.l2 ∧ r.image.geometry.l2 ≤ 15000)
    ∧ (500 ≤ r.image.geometry.l3 ∧ r.image.geometry.l3 ≤ 15000)
    ∧ r.image.geometry.l1 + r.image.geometry.l2 + r.image.geometry.l3 ≤ 28000
    ∧ (-2000 ≤ r.image.geometry.xf ∧ r.image.geometry.xf ≤ 2000) ∧ (0 ≤ r.image.geometry.zf ∧ r.image.geometry.zf ≤ 4000)
    ∧ (∀ x ∈ requiredRoles, ∃ e ∈ r.image.subscriptions, e.role = x)
    ∧ (r.image.subscriptions.map (·.role)).Nodup ∧ (r.image.subscriptions.map fun e => (e.source, e.kind)).Nodup
    ∧ (∀ e ∈ r.image.subscriptions, 10 ≤ e.period ∧ e.period ≤ 1000 ∧ 3 ≤ e.staleMult ∧ e.staleMult ≤ 20)
    ∧ r.image.zones.height.Pairwise (· < ·) ∧ r.image.zones.reach.Pairwise (· < ·) ∧ r.image.zones.slew.Pairwise (· < ·)
    ∧ (∀ a ∈ r.image.defaultRule :: r.image.rules.map (·.actions), (∀ n ∈ a.speedCap, r.image.economy.idleSpeed ≤ n)
        ∧ (∀ n ∈ a.pumpCap, n ≤ 100) ∧ a.sound ≠ some none ∧ ∀ c : Channel, ∀ n ∈ a.cuts.get c, n ≤ 1000)
    ∧ (∀ c : Channel, (r.image.channels.get c).used = true →
        (r.image.channels.get c).modulus ∈ [256, 128, 64, 32] ∧ (r.image.channels.get c).countTime ∈ [1, 2, 4, 8]
          ∧ 1 ≤ (r.image.channels.get c).release ∧ (r.image.channels.get c).release ≤ (r.image.channels.get c).modulus
          ∧ (r.image.channels.get c).fail ≤ 1000)
    ∧ (800 ≤ r.image.economy.idleSpeed ∧ r.image.economy.idleSpeed ≤ 1200)
    ∧ (∀ m : WorkMode, 1000 ≤ r.image.economy.modeSpeed.get m ∧ r.image.economy.modeSpeed.get m ≤ 2300
        ∧ r.image.economy.idleSpeed ≤ r.image.economy.modeSpeed.get m)
    ∧ r.image.economy.engineAddress ≠ 0xFE ∧ r.image.economy.engineAddress ≠ 0xFF
    ∧ r.image.service.digLevel < r.image.service.liftLevel
    ∧ 1 ≤ r.image.service.minSwing ∧ r.image.service.minSwing ≤ 32768
    ∧ r.image.service.items.length ≤ 16 ∧ (r.image.service.items.map (·.number)).Nodup
    ∧ ∀ i ∈ r.image.service.items, 1 ≤ i.number ∧ i.number ≤ 16 ∧ i.lead < i.interval ∧ i.basis.isSome = true

/-- RECORD_READ_DONE in RECORD_READ: an accepted record hands each block its values, a lost one gives zeros and the image's
default settings; items are evaluated, the derate flag formed, and the node goes to JOIN or QUIET by the key
(R41, R75, R115, R188, R191, R154); LIM's records stand as for limits not yet evaluated and ECO's target is formed (R62, R128). The
entry to JOIN or QUIET is the one that KeyMovesNode speaks of (`EntersJoin`, `EntersQuiet`). What a stored enable other than 0 and 1
and a stored profile above 3 give is free. The record-lost flag holds the first check of R191's list that fails, `judgeRecord`: the
spec gives the checks no order, and that one is the model's choice (log 51).
The model's choices here: logs 7, 11, 20, 35, 39, 51. -/
def Obligations.RecordReadTaken : Prop :=
  ∀ (s : State) (block : Option (List Byte)), s.cfg.node = .recordRead → ∃ t, exec (.recordReadDone block) s = .next t
    ∧ t.cfg.node = (if s.cfg.key then .join else .quiet) ∧ t.cfg.recordLost = judgeRecord block
    ∧ (∀ b, block = some b → judgeRecord block = none →
        t.svc.engineSeconds = u32At b 0 ∧ t.svc.weighted = u32At b 4 ∧ t.svc.cycles = u32At b 8
          ∧ t.svc.unaccounted = u32At b 12 ∧ t.eco.fuelTotal.toNat = u32At b 16 ∧ t.eco.fuelRem = u32At b 20
          ∧ t.lim.set = takeLimitSet s.img.limits (readSettings b).limits
          ∧ t.eco.mode = takeMode (byteAt b 103).toNat ∧ t.eco.delay = takeDelay (byteAt b 105).toNat
          ∧ t.eco.autoIdle = takeEnable (byteAt b 104).toNat ∧ t.rule.profile = takeProfile (byteAt b 106).toNat
          ∧ ∀ i ∈ t.svc.items, i.lastDone = u32At b (24 + 4 * (i.config.number - 1)))
    ∧ (judgeRecord block ≠ none →
        t.svc.engineSeconds = 0 ∧ t.svc.weighted = 0 ∧ t.svc.cycles = 0 ∧ t.svc.unaccounted = 0
          ∧ t.eco.fuelTotal = 0 ∧ t.eco.fuelRem = 0 ∧ (∀ i ∈ t.svc.items, i.lastDone = 0)
          ∧ t.lim.set = takeLimitSet s.img.limits s.img.defaults.limits
          ∧ t.eco.mode = takeMode s.img.defaults.mode ∧ t.eco.delay = takeDelay s.img.defaults.delay
          ∧ t.eco.autoIdle = takeEnable s.img.defaults.autoIdle ∧ t.rule.profile = takeProfile s.img.defaults.profile)
    ∧ (takeEnable 0 = false ∧ takeEnable 1 = true ∧ (∀ n ≤ 3, takeProfile n = n) ∧ ∀ n, takeProfile n ≤ 3)
    ∧ t.eco.cycleMark = t.eco.fuelTotal
    ∧ t.svc.items.map (·.config) = s.svc.items.map (·.config)
    ∧ (∀ i ∈ t.svc.items, i.state = i.stateAt (t.svc.reading i)) ∧ t.svc.derate = derateOf t.svc.items
    ∧ t.rule.hits = s.rule.hits
    ∧ t = { s with cfg := t.cfg, streams := t.streams, lim := t.lim, rule := t.rule, eco := t.eco, svc := t.svc,
                   link := t.link }
    ∧ t.eco.target = t.eco.formTarget s.img.economy t.svc.derate
    ∧ (∀ l : Limit, t.lim.records.get l = ⟨if t.lim.set.has l then .fault else .off, none⟩) ∧ t.lim.statusTimer = none
    ∧ ∃ u : State, u = { s with cfg := { s.cfg with recordLost := judgeRecord block }, lim := t.lim, rule := t.rule
                                eco := { t.eco with grant := s.eco.grant }, svc := t.svc }
      ∧ (s.cfg.key = true → EntersJoin u t) ∧ (s.cfg.key = false → EntersQuiet u t)

/-- The record that a write stores is accepted when it is read, and every value reads back as it was (R149, R191, 11.3).
The model's choices here: log 27. -/
def Obligations.RecordReadsBack : Prop :=
  ∀ s : State, CountsInBand s → FuelInRange s → SettingsLegal s →
    (∀ i ∈ s.svc.items, i.lastDone < 4294967296) →
    (∀ f ∈ s.lim.set.floor, -32768 ≤ f.s ∧ f.s ≤ 32767 ∧ -32768 ≤ f.r0 ∧ f.r0 ≤ 32767) →
    (∀ l ∈ s.lim.set.slewLeft, -32768 ≤ l ∧ l ≤ 32767) → (∀ l ∈ s.lim.set.slewRight, -32768 ≤ l ∧ l ≤ 32767) →
    (recordBlock s).length = 128 ∧ judgeRecord (some (recordBlock s)) = none
    ∧ (readRecord (recordBlock s)).engineSeconds = s.svc.engineSeconds
    ∧ (readRecord (recordBlock s)).weighted = s.svc.weighted
    ∧ (readRecord (recordBlock s)).cycles = s.svc.cycles
    ∧ (readRecord (recordBlock s)).unaccounted = s.svc.unaccounted
    ∧ (readRecord (recordBlock s)).fuelTotal = s.eco.fuelTotal
    ∧ (readRecord (recordBlock s)).fuelRem = s.eco.fuelRem
    ∧ (∀ n, 1 ≤ n → n ≤ 16 → (readRecord (recordBlock s)).lastDone n = lastDoneOf s.svc.items n)
    ∧ (readRecord (recordBlock s)).settings.limits = s.lim.set
    ∧ takeMode (readRecord (recordBlock s)).settings.mode = s.eco.mode
    ∧ takeEnable (readRecord (recordBlock s)).settings.autoIdle = s.eco.autoIdle
    ∧ takeDelay (readRecord (recordBlock s)).settings.delay = s.eco.delay
    ∧ takeProfile (readRecord (recordBlock s)).settings.profile = s.rule.profile

/-- JOIN_TIMER_EXPIRY takes the node to RUN and starts every block's timer; the first winner is that of the key formed then;
every used channel starts its first period, and the LIMIT STATUS frames of the entry carry the states formed by all of them
(R188, R11, R61, R78, R94, R106, R107, R130, R135, R138, R153, R166, R193).
Then, the blocks in a free order, each with its own events in order (log 6): STM raises the notice of every standing stream fault (R39),
LIM evaluates every limit before its demands and RULE's first winner (R62, R78, R107), each channel starts its period (R107), ECO forms
the timestamp, the record and the engine condition (R119, R123, R136), SVC evaluates every item and raises the notices of those that are
not OK (R144, R154), NTC forms the busy inhibit and the display availability (R167), LINK raises the clash that its mark keeps (R175), and
CFG raises 0x70 while the record-lost flag is set (R192). The order of the notices inside one block is the model's choice (log 53), and so
is that of the events of one block (log 7).
The model's choices here: logs 2, 6, 7, 18, 22, 53. -/
def Obligations.JoinTimerEntersRun : Prop :=
  (∀ (s : State) (d : Ms), s.cfg.joinTimer = some d → ∃ t, exec .joinTimerExpiry s = .next t
    ∧ t.cfg.node = .run ∧ t.cfg.joinTimer = none ∧ t.cfg.statusTimer = some (after (s.arriveAt d).now 1000)
    ∧ t.pose.timer = some (after (s.arriveAt d).now 20) ∧ t.pose.record = s.pose.record
    ∧ t.lim.statusTimer = some (after (s.arriveAt d).now 100) ∧ t.lim.set = s.lim.set
    ∧ t.hold.quantumTimer = some (after (s.arriveAt d).now 10) ∧ t.hold.entries = s.hold.entries
    ∧ t.eco.requestTimer = some (after (s.arriveAt d).now 100) ∧ t.eco.secondTimer = some (after (s.arriveAt d).now 1000)
    ∧ t.eco.reportTimer = some (after (s.arriveAt d).now 10000)
    ∧ t.svc.secondTimer = some (after (s.arriveAt d).now 1000) ∧ t.svc.summaryTimer = some (after (s.arriveAt d).now 10000)
    ∧ t.ntc.summaryTimer = some (after (s.arriveAt d).now 1000)
    ∧ (∀ e ∈ t.streams, e.state = .neverSeen → e.absence = some (after (s.arriveAt d).now (e.staleMult * e.period)))
    ∧ (s.rule.key = none → ∃ k, t.rule.key = some k ∧ t.rule.winner = some (lookup s.img.rules k))
    ∧ (∀ c : Channel, (s.img.channels.get c).used = true → (t.vch.get c).counter = 0 ∧ (t.vch.get c).subCount = 0
        ∧ (t.vch.get c).pin = decide (0 < (t.vch.get c).duty))
    ∧ (∀ c : Channel, (s.img.channels.get c).used = false → (t.vch.get c).state = (s.vch.get c).state
        ∧ (t.vch.get c).duty = (s.vch.get c).duty ∧ (t.vch.get c).pin = (s.vch.get c).pin)
    ∧ (((∃ l : Limit, (t.lim.records.get l).state ≠ (s.lim.records.get l).state)
          ∨ ∃ c : Channel, (t.vch.get c).state ≠ (s.vch.get c).state) →
        LastUrgent t.link .limitStatus 0xFF (limitStatusData t true))
    ∧ t.image = s.image ∧ t.stmReply = s.stmReply)
  ∧ (∀ (s : State) (d : Ms), s.cfg.joinTimer = some d → ∃ (first : Bool) (v : State),
      v = { (s.arriveAt d).startRun with freeCount := v.freeCount }
      ∧ exec .joinTimerExpiry s = .next ((anyOrder (runThreads first) v).reportEntry (s.arriveAt d)))
  ∧ (∀ s : State, s.startRun = { s with
      cfg := { s.cfg with node := .run, joinTimer := none, statusTimer := some (after s.now 1000) }
      pose := { s.pose with timer := some (after s.now 20) }
      streams := s.streams.map fun e =>
        if e.state = .neverSeen then { e with absence := some (after s.now (e.staleMult * e.period)) } else e
      lim := { s.lim with statusTimer := some (after s.now 100) }
      hold := { s.hold with quantumTimer := some (after s.now 10) }
      eco := { s.eco with requestTimer := some (after s.now 100), secondTimer := some (after s.now 1000)
                          reportTimer := some (after s.now 10000), fuelMark := none }
      svc := { s.svc with secondTimer := some (after s.now 1000), summaryTimer := some (after s.now 10000)
                          items := s.svc.items.map fun i => { i with remind := none } }
      ntc := { s.ntc with summaryTimer := some (after s.now 1000) } })
  ∧ (∀ first : Bool, runThreads first = [[State.raiseFaults],
      (fun s => s.evaluateStates fun _ => true) ::
        (if first then [State.rebuild, State.writeLimitDemands] else [State.writeLimitDemands, State.rebuild]),
      [fun s => s.beginPeriod .boomUp], [fun s => s.beginPeriod .boomDown], [fun s => s.beginPeriod .armIn],
      [fun s => s.beginPeriod .armOut], [fun s => s.beginPeriod .slewLeft], [fun s => s.beginPeriod .slewRight],
      [State.ecoEnterRun], [State.svcEnterRun], [State.formNtc], [State.raiseClash], [State.raiseLost]])
  ∧ (∀ s : State, s.raiseFaults = s.streams.foldl (fun (u : State) e =>
      e.faultCause.elim u fun c => u.raiseNotice (0x20 + e.number) none (.stream c)) s)
  ∧ (∀ s u : State, s.cfg.node = .run → s.image.isSome = true → NoticesOrdered s → (s.streams.map (·.number)).Nodup →
      u = s.raiseFaults → ∀ e ∈ s.streams, e.number < 12 → ∀ c, e.faultCause = some c →
      ∃ r ∈ u.ntc.held, r.id = 0x20 + e.number ∧ r.detail = .stream c)
  ∧ (∀ s : State, s.ecoEnterRun = (s.formNeutral s.now).reform.engineCondition)
  ∧ (∀ s u : State, u = s.svcEnterRun → ItemsEvaluated s u (fun _ => true) (fun _ _ => True))
  ∧ (∀ s : State, s.formNtc =
      s.takeTimestamp.setConditions fun n => { n with displayAvailable := (s.streamState .display).heard })
  ∧ (∀ s : State, (s.link.clashMark = none → s.raiseClash = s)
      ∧ ∀ m, s.link.clashMark = some m → s.raiseClash =
        State.raiseNotice { s with link := { s.link with clashMark := none } } 0x71 none (.clash m.1 m.2 s.link.clashes))
  ∧ (∀ s : State, (s.cfg.recordLost = none → s.raiseLost = s)
      ∧ ∀ c, s.cfg.recordLost = some c → s.raiseLost = s.raiseNotice 0x70 none (.record c))
  ∧ (∀ s : State, s.image.isSome = true →
      s.catalogue 0x70 = some (.warning, .display) ∧ s.catalogue 0x71 = some (.warning, .display))
  ∧ ∀ (s : State) (c : Channel), ∃ t, exec (.periodStart c) s = .next t ∧ s.beginPeriod c = { s with vch := t.vch }

/-- The five timers that report: each restarts from its expiry and offers its frame, formed then (R61, R135, R153, R166,
R193). A BACKGROUND frame is looked for where its class has room. The data fields of the five frames, byte by byte, with the codes of
their states (10.7, R193): NODE STATUS, whose fields in CONFIG_FAULT are 0 and its entries 0xF; LIMIT STATUS with its reason;
NOTICE SUMMARY with its queue of at most eight; SERVICE SUMMARY with the item of the least remaining share, the lower number of two
equal (R153; log 36); and ECONOMY REPORT, whose granted source and speed without an ENGINE_GRANT entry, and whose governors of an
absent value, are free values, as are the state and share of no items (logs 26, 42, 50).
The model's choices here: logs 2, 26, 34, 36, 37, 42, 50. -/
def Obligations.ReportTimersReport : Prop :=
  (∀ (s : State) (d : Ms), s.cfg.statusTimer = some d → ∃ t, exec .nodeStatusTimerExpiry s = .next t
    ∧ t.cfg = { s.cfg with statusTimer := some (after d (if s.cfg.node = .quiet then 5000 else 1000)) }
    ∧ t = { s.arriveAt d with cfg := t.cfg, stmReply := t.stmReply, rule := t.rule, svc := t.svc, link := t.link }
    ∧ (takesOffer s.cfg.node .nodeStatus = true → s.link.background.length < 8 →
        Queued t.link .background .nodeStatus 0xFF (nodeStatusData s)))
  ∧ (∀ (s : State) (d : Ms), s.lim.statusTimer = some d → ∃ t, exec .limitStatusTimerExpiry s = .next t
    ∧ t = { s.arriveAt d with lim := { s.lim with statusTimer := some (after d 100) }, link := t.link }
    ∧ (takesOffer s.cfg.node .limitStatus = true →
        Queued t.link .normal .limitStatus 0xFF (limitStatusData s false)))
  ∧ (∀ (s : State) (d : Ms), s.ntc.summaryTimer = some d → ∃ t, exec .noticeSummaryTimerExpiry s = .next t
    ∧ t.ntc = { s.ntc with summaryTimer := some (after d 1000) }
    ∧ t = { s.arriveAt d with ntc := t.ntc, stmReply := t.stmReply, rule := t.rule, svc := t.svc, link := t.link }
    ∧ (takesOffer s.cfg.node .noticeSummary = true → s.link.background.length < 8 →
        Queued t.link .background .noticeSummary 0xFF (noticeSummary (s.arriveAt d))))
  ∧ (∀ (s : State) (d : Ms), s.svc.summaryTimer = some d → ∃ t, exec .serviceSummaryTimerExpiry s = .next t
    ∧ t.svc = { s.svc with summaryTimer := some (after d 10000), reply := t.svc.reply }
    ∧ t = { s.arriveAt d with stmReply := t.stmReply, rule := t.rule, svc := t.svc, link := t.link }
    ∧ (takesOffer s.cfg.node .serviceSummary = true → s.link.background.length < 8 →
        Queued t.link .background .serviceSummary 0xFF (summaryData (s.arriveAt d))))
  ∧ (∀ (s : State) (d : Ms), s.eco.reportTimer = some d → ∃ t, exec .economyReportTimerExpiry s = .next t
    ∧ t.eco = { s.eco with reportTimer := some (after d 10000) }
    ∧ t = { s.arriveAt d with eco := t.eco, stmReply := t.stmReply, rule := t.rule, svc := t.svc, link := t.link }
    ∧ (takesOffer s.cfg.node .economyReport = true → s.link.background.length < 8 →
        Queued t.link .background .economyReport 0xFF (economyData (s.arriveAt d))))
  ∧ (∀ s : State, s.cfg.node ≠ .configFault → nodeStatusData s =
      [byteOf (nodeCode s.cfg.node), byteOf ((s.cfg.fault.map faultNumber).getD 0),
        byteOf (bit s.svc.lastFailed + 2 * bit s.cfg.recordLost.isSome), byteOf (linkStateCode s.link.state)]
      ++ be2 s.svc.writeFails ++ be4 s.svc.unaccounted
      ++ [byteOf (s.entryCode 0 + 16 * s.entryCode 1), byteOf (s.entryCode 2 + 16 * s.entryCode 3),
        byteOf (s.entryCode 4 + 16 * s.entryCode 5), byteOf (s.entryCode 6 + 16 * s.entryCode 7),
        byteOf (s.entryCode 8 + 16 * s.entryCode 9), byteOf (s.entryCode 10 + 16 * s.entryCode 11)]
      ++ be2 s.link.overruns ++ be2 s.link.malformed ++ be2 s.link.clashes ++ be2 s.link.ageDiscards ++ be2 s.link.overflows
      ++ be2 s.link.thinned ++ be2 s.link.failedAttempts ++ be2 s.link.failures)
  ∧ (∀ (s : State) (c : FaultCode), s.cfg.node = .configFault → s.cfg.fault = some c → s.streams = [] → s.svc = Svc.reset →
      s.cfg.recordLost = none → nodeStatusData s = [1, byteOf (faultNumber c), 0, byteOf (linkStateCode s.link.state)]
        ++ List.replicate 6 0 ++ List.replicate 6 0xFF ++ List.replicate 16 0)
  ∧ (∀ (s : State) (n : Nat), (s.entry n = none → s.entryCode n = 15)
      ∧ ∀ e, s.entry n = some e → s.entryCode n = streamStateCode e.state)
  ∧ (∀ (s : State) (b : Bool), limitStatusData s b =
      [byteOf (limitStateCode s.lim.records.floor.state), byteOf (limitStateCode s.lim.records.ceiling.state),
        byteOf (limitStateCode s.lim.records.reach.state), byteOf (limitStateCode s.lim.records.slewLeft.state),
        byteOf (limitStateCode s.lim.records.slewRight.state), byteOf (channelStateCode s.vch.boomUp.state),
        byteOf (channelStateCode s.vch.boomDown.state), byteOf (channelStateCode s.vch.armIn.state),
        byteOf (channelStateCode s.vch.armOut.state), byteOf (channelStateCode s.vch.slewLeft.state),
        byteOf (channelStateCode s.vch.slewRight.state), if b then 1 else 0])
  ∧ (∀ (s : State) (left : Nat), s.ntc.queue.length ≤ 8 →
      (left = 0 ∧ (∀ d, s.snd.silence = some d → reached s.now d = true)
        ∨ ∃ d, s.snd.silence = some d ∧ reached s.now d = false ∧ elapsed d s.now ≤ 1000 * left
          ∧ 1000 * left < elapsed d s.now + 1000) →
      noticeSummary s = (s.ntc.queue.flatMap fun r => [byteOf r.id, byteOf (severityCode r.severity)])
        ++ List.replicate (16 - 2 * s.ntc.queue.length) 0
        ++ [byteOf s.ntc.pending.length,
          byteOf (bit s.ntc.operatorInhibit + 2 * bit s.ntc.busyInhibit + 4 * bit s.ntc.displayAvailable + 8 * left)]
        ++ be2 s.ntc.logCount ++ be2 s.ntc.ignoredAcks ++ be2 s.snd.dropped)
  ∧ (∀ s : State, summaryData s = be4 (s.svc.engineSeconds / 360 : Nat) ++ be4 (s.svc.weighted / 2880 : Nat) ++ be4 s.svc.cycles
      ++ be4 s.svc.unaccounted ++ [byteOf (bit s.svc.derate + 2 * bit s.svc.lastFailed)] ++ be2 s.svc.writeFails
      ++ s.nearestReport ++ [0])
  ∧ (∀ (v : Svc) (i : ServiceItem), i.share v = clampInt (-32768) 32767
      ((((i.duePoint : Int) - v.reading i) * 1000) / (i.config.interval * basisMultiplier i.basis : Nat)))
  ∧ (∀ (s : State) (i : ServiceItem), (s.svc.items.map (·.config.number)).Nodup → i ∈ s.svc.items →
      (∀ x ∈ s.svc.items, i.share s.svc < x.share s.svc
        ∨ i.share s.svc = x.share s.svc ∧ i.config.number ≤ x.config.number) →
      s.nearestReport = [byteOf i.config.number, byteOf (itemStateCode i.state)] ++ be2 (i.share s.svc))
  ∧ (∀ s : State, s.svc.items = [] → ∃ a b c, s.nearestReport = [0, a, b, c])
  ∧ (∀ s : State, economyData s = be2 (min 65535 (s.eco.fuelTotal.toNat / 100) : Nat) ++ be4 s.eco.idleSeconds.toNat
      ++ be4 s.eco.workSeconds.toNat ++ be4 s.svc.cycles
      ++ [byteOf (ecoStateCode s.eco.state), byteOf (s.eco.mode.code + 4 * bit s.eco.autoIdle)]
      ++ be2 (s.eco.requested.getD 0) ++ [byteOf (governorCode s.eco.speedGov), byteOf (s.eco.pumpLimit.getD 0),
        byteOf (governorCode s.eco.pumpGov), byteOf (grantCode s.eco.grant)] ++ s.grantReport ++ List.replicate 7 0)
  ∧ (∀ s : State, (∀ e, s.stream .engineGrant = some e →
        s.grantReport = e.mailbox.grantSource :: be2 e.mailbox.grantSpeed)
      ∧ (s.stream .engineGrant = none → ∃ x a b, (x = 0xFE ∨ x = 0xFF) ∧ s.grantReport = [x, a, b]))
  ∧ [NodeState.configFault, .run, .store, .quiet].map nodeCode = [1, 4, 5, 6]
  ∧ [FaultCode.crc, .version, .geometry, .subscription, .thresholds, .rule, .channel, .economy, .service].map faultNumber
      = [1, 2, 3, 4, 5, 6, 7, 8, 9]
  ∧ [LinkState.active, .suspect, .silent].map linkStateCode = [0, 1, 2]
  ∧ [StreamState.neverSeen, .fresh, .late, .stale, .recovering].map streamStateCode = [0, 1, 2, 3, 4]
  ∧ [LimitState.off, .fault, .clear, .approach, .stop].map limitStateCode = [0, 1, 2, 3, 4]
  ∧ [ChannelState.unused, .pass, .cutting, .releasing, .full].map channelStateCode = [0, 1, 2, 3, 4]
  ∧ [Severity.info, .caution, .warning, .stop].map severityCode = [0, 1, 2, 3]
  ∧ [ItemState.ok, .dueSoon, .due, .overdue].map itemStateCode = [0, 1, 2, 3]
  ∧ [EcoState.off, .work, .neutralWait, .idleLow, .recover, .yielded].map ecoStateCode = [0, 1, 2, 3, 4, 5]
  ∧ [Governor.mode, .ruleCap, .derate, .idle].map governorCode = [0, 1, 2, 3]
  ∧ [WorkMode.heavy, .standard, .economy, .lift].map WorkMode.code = [0, 1, 2, 3]
  ∧ [Grant.own, .none, .foreign].map grantCode = [0, 1, 2]

/-! ## Pose -/

/-- The sine table: each of its 257 entries is 16384 times the exact sine of its angle rounded to the nearest integer, none lying
at a half (R4); and the interpolated sine (R5). -/
def Obligations.InterpolatedSine : Prop :=
  sineTable.length = 257 ∧ (∀ k, sineTable[k]? = if k ≤ 256 then some (sineEntry k) else none)
  ∧ (∀ k : Nat, k ≤ 256 → |16384 * Real.sin ((k : ℝ) * (Real.pi / 2 / 256)) - (sineEntry k : ℝ)| < 1 / 2)
  ∧ sineEntry 0 = 0 ∧ sineEntry 1 = 101 ∧ sineEntry 64 = 6270 ∧ sineEntry 128 = 11585 ∧ sineEntry 255 = 16384
  ∧ sineEntry 256 = 16384
  ∧ (∀ k, k < 256 → 0 ≤ sineEntry (k + 1) - sineEntry k ∧ sineEntry (k + 1) - sineEntry k ≤ 101)
  ∧ (∀ u, u ≤ 16384 → (u / 64 = 256 ↔ u = 16384))
  ∧ (∀ u, u ≤ 16384 → interpolated u =
      if u / 64 = 256 then sineEntry 256
      else sineEntry (u / 64) + ((sineEntry (u / 64 + 1) - sineEntry (u / 64)) * ((u % 64 : Nat) : Int) + 32) / 64)
  ∧ interpolated 0 = 0 ∧ interpolated 16384 = 16384
  ∧ (∀ u, u ≤ 16384 → 0 ≤ interpolated u ∧ interpolated u ≤ 16384)
  ∧ (∀ u v, u ≤ v → v ≤ 16384 → interpolated u ≤ interpolated v)
  ∧ ∀ i, i ≤ 256 → interpolated (64 * i) = sineEntry i

/-- Sine and cosine of a binary angle (R6, R7). -/
def Obligations.SineAndCosine : Prop :=
  (∀ q r, q < 4 → r < 16384 → sine (q * 16384 + r) =
      if q = 0 then interpolated r else if q = 1 then interpolated (16384 - r)
      else if q = 2 then -interpolated r else -interpolated (16384 - r))
  ∧ sine 0 = 0 ∧ sine 32768 = 0 ∧ sine 16384 = 16384 ∧ sine 49152 = -16384
  ∧ (∀ a, a < 65536 → -16384 ≤ sine a ∧ sine a ≤ 16384)
  ∧ (∀ a, a < 65536 → cosine a = sine ((a + 16384) % 65536))
  ∧ ∀ a, a < 65536 → -16384 ≤ cosine a ∧ cosine a ≤ 16384

/-- The three points from the cumulative sums, each rounded once, half up (R8, R9). -/
def Obligations.PointsOfPose : Prop :=
  ∀ (g : Geometry) (a1 a2 a3 : Nat) (r : PoseRecord), a1 < 65536 → a2 < 65536 → a3 < 65536 →
    500 ≤ g.l1 → 500 ≤ g.l2 → 500 ≤ g.l3 → g.l1 + g.l2 + g.l3 ≤ 28000 → -2000 ≤ g.xf → g.xf ≤ 2000 → 0 ≤ g.zf → g.zf ≤ 4000 →
    ∀ x1 z1 x2 z2 x3 z3 : Int, x1 = g.l1 * cosine a1 → z1 = g.l1 * sine a1 → x2 = x1 + g.l2 * cosine a2 →
    z2 = z1 + g.l2 * sine a2 → x3 = x2 + g.l3 * cosine a3 → z3 = z2 + g.l3 * sine a3 →
    (computePoints g a1 a2 a3 r).p1Reach = g.xf + (x1 + 8192) / 16384
    ∧ (computePoints g a1 a2 a3 r).p1Height = g.zf + (z1 + 8192) / 16384
    ∧ (computePoints g a1 a2 a3 r).p2Reach = g.xf + (x2 + 8192) / 16384
    ∧ (computePoints g a1 a2 a3 r).p2Height = g.zf + (z2 + 8192) / 16384
    ∧ (computePoints g a1 a2 a3 r).p3Reach = g.xf + (x3 + 8192) / 16384
    ∧ (computePoints g a1 a2 a3 r).p3Height = g.zf + (z3 + 8192) / 16384
    ∧ (∀ v ∈ [x1, z1, x2, z2, x3, z3], -458752000 ≤ v ∧ v ≤ 458752000)
    ∧ (∀ v ∈ [(x1 + 8192) / 16384, (z1 + 8192) / 16384], -g.l1 ≤ v ∧ v ≤ g.l1)
    ∧ (∀ v ∈ [(x2 + 8192) / 16384, (z2 + 8192) / 16384], -(g.l1 + g.l2) ≤ v ∧ v ≤ g.l1 + g.l2)
    ∧ (∀ v ∈ [(x3 + 8192) / 16384, (z3 + 8192) / 16384], -(g.l1 + g.l2 + g.l3) ≤ v ∧ v ≤ g.l1 + g.l2 + g.l3)
    ∧ (∀ v ∈ [(computePoints g a1 a2 a3 r).p1Reach, (computePoints g a1 a2 a3 r).p2Reach,
        (computePoints g a1 a2 a3 r).p3Reach], -30000 ≤ v ∧ v ≤ 30000)
    ∧ ∀ v ∈ [(computePoints g a1 a2 a3 r).p1Height, (computePoints g a1 a2 a3 r).p2Height,
        (computePoints g a1 a2 a3 r).p3Height], -28000 ≤ v ∧ v ≤ 32000

/-- POSE_PERIOD_EXPIRY: the quality by the first line of R13 that applies, the record by R14, the timer restarted (R11), and
what the consumers leave alone. The computation runs its consumers in a free order, among them the offers of POSE and, after
the evaluation of the limits, GUIDANCE: each frame is queued with the record and the margins as they stand, or counted as
thinned where its sequence is odd and thinning is on (R16, R17, R60, R181). That RULE's rebuild for a changed limit state comes before
GUIDANCE is the model's choice.
The model's choices here: logs 2, 6, 7. -/
def Obligations.PosePeriodComputes : Prop :=
  (∀ (s : State) (d : Ms), s.pose.timer = some d → ∃ t, exec .posePeriodExpiry s = .next t
    ∧ t.pose.timer = some (after d 20)
    ∧ t.pose.record.sequence = s.pose.record.sequence + 1 ∧ t.pose.record.time = (s.arriveAt d).now
    ∧ t.pose.record.slew = s.psi ∧ t.pose.record.slewValid = s.slewValid
    ∧ (t.pose.record.quality = .invalid ↔ ∃ r ∈ linkRoles, s.usable r = false)
    ∧ (t.pose.record.quality = .held ↔ (∀ r ∈ linkRoles, s.usable r = true) ∧ ∃ r ∈ linkRoles, s.streamState r = .late)
    ∧ (t.pose.record.quality = .degraded ↔ (∀ r ∈ linkRoles, s.usable r = true ∧ s.streamState r ≠ .late)
        ∧ ∃ r ∈ linkRoles, (s.mailbox r).status = .degraded)
    ∧ (t.pose.record.quality = .good ↔ ∀ r ∈ linkRoles, s.usable r = true ∧ s.streamState r ≠ .late
        ∧ (s.mailbox r).status ≠ .degraded)
    ∧ (t.pose.record.quality = .invalid →
        t.pose.record.p1Reach = s.pose.record.p1Reach ∧ t.pose.record.p1Height = s.pose.record.p1Height
        ∧ t.pose.record.p2Reach = s.pose.record.p2Reach ∧ t.pose.record.p2Height = s.pose.record.p2Height
        ∧ t.pose.record.p3Reach = s.pose.record.p3Reach ∧ t.pose.record.p3Height = s.pose.record.p3Height)
    ∧ (t.pose.record.quality ≠ .invalid →
        ∃ p, p = computePoints s.img.geometry (pitch (s.mailbox .boomAngle).angle s.img.geometry.offset1)
            (pitch (s.mailbox .armAngle).angle s.img.geometry.offset2)
            (pitch (s.mailbox .bucketAngle).angle s.img.geometry.offset3) s.pose.record
          ∧ t.pose.record.p1Reach = p.p1Reach ∧ t.pose.record.p1Height = p.p1Height
          ∧ t.pose.record.p2Reach = p.p2Reach ∧ t.pose.record.p2Height = p.p2Height
          ∧ t.pose.record.p3Reach = p.p3Reach ∧ t.pose.record.p3Height = p.p3Height)
    ∧ t.lim.set = s.lim.set ∧ t.rule.profile = s.rule.profile ∧ t.eco.mode = s.eco.mode
    ∧ t.svc.engineSeconds = s.svc.engineSeconds
    ∧ t.cfg = s.cfg ∧ t.image = s.image ∧ t.streams = s.streams ∧ t.hold = s.hold)
  ∧ (∀ (s : State) (d : Ms), s.pose.timer = some d → exec .posePeriodExpiry s = .next (anyOrder poseConsumers
      { s.arriveAt d with pose := ⟨(s.arriveAt d).computePose, some (after d 20)⟩ }))
  ∧ (∃ thread ∈ poseConsumers, State.offerPose ∈ thread)
  ∧ (∃ thread ∈ poseConsumers, (fun s => (s.evaluateLimits fun _ => true).offerGuidance) ∈ thread)
  ∧ (∀ s : State, s.cfg.node = .run → (s.link.thinning = false ∨ s.pose.record.sequence.toNat % 2 = 0) →
      Queued s.offerPose.link .normal .pose 0xFF (poseData s.pose.record)
        ∧ Queued s.offerGuidance.link .normal .guidance 0xFF (guidanceData s))
  ∧ (∀ s : State, s.cfg.node = .run → s.link.thinning = true → s.pose.record.sequence.toNat % 2 = 1 →
      s.offerPose = { s with link := { s.link with thinned := min 65535 (s.link.thinned + 1) } }
        ∧ s.offerGuidance = { s with link := { s.link with thinned := min 65535 (s.link.thinned + 1) } })
  ∧ (∀ r : PoseRecord, poseData r =
      [r.sequence, byteOf ((match r.quality with | .good => 0 | .held => 1 | .degraded => 2 | .invalid => 3)
          + if r.slewValid then 4 else 0)]
        ++ be2 r.p1Reach ++ be2 r.p1Height ++ be2 r.p2Reach ++ be2 r.p2Height ++ be2 r.p3Reach ++ be2 r.p3Height
        ++ be2 r.slew ++ be4 r.time.toNat)
  ∧ ∀ (s : State) (l : Limit) (r : LimitRecord), r = s.lim.records.get l →
      (guidanceData s).length = 16 ∧ byteAt (guidanceData s) 0 = s.pose.record.sequence
      ∧ ((r.state = .off ∨ r.state = .fault) → s16At (guidanceData s) (1 + 2 * l.num) = 32767)
      ∧ (r.state ≠ .off → r.state ≠ .fault → ∀ m, r.margin = some m →
          s16At (guidanceData s) (1 + 2 * l.num) = clampInt (-32768) 32766 m)
      ∧ byteAt (guidanceData s) (11 + l.num) = (match r.state with
          | .off => 0 | .fault => 1 | .clear => 2 | .approach => 3 | .stop => 4)

/-! ## Streams -/

/-- FRAME_RECEIVED (R174 to R176): ignored frames change nothing, a frame of the part's own address is a clash, a frame for
another station is ignored, a full queue drops the frame and counts it, and any other frame joins the queue. One that no block
takes leaves an empty queue empty: of no owner, too short and counted, or an OPERATOR SETTING of no whole item (R177). A clash is
counted in every state that receives; in RUN it raises notice 0x71 with the frame's kind and destination and the count, in RECORD_READ
and JOIN it sets the mark, and in STORE and QUIET it does no more (R175).
The model's choices here: logs 4, 5, 18, 22. -/
def Obligations.FrameReceivedJudged : Prop :=
  ∀ (f : BusFrame) (s : State), ∃ t, exec (.frameReceived f) s = .next t
    ∧ ((f.extended = false ∨ f.remote = true ∨ receivesIn s.cfg.node = false) → t = s)
    ∧ (f.extended = true → f.remote = false → receivesIn s.cfg.node = true →
        ((rxOfBus f).source = s.link.address → t.link.clashes = min 65535 (s.link.clashes + 1) ∧ t.link.rx = s.link.rx
            ∧ t = { s with ntc := t.ntc, snd := t.snd, link := t.link }
            ∧ ((s.cfg.node = .recordRead ∨ s.cfg.node = .join) →
                t.link.clashMark = some ((rxOfBus f).kind, (rxOfBus f).destination))
            ∧ ∀ (n : Nat) (x : Detail), n = min 65535 (s.link.clashes + 1) →
                x = .clash (rxOfBus f).kind (rxOfBus f).destination n →
                (s.cfg.node = .run →
                  t = State.raiseNotice { s with link := { s.link with clashes := n } } 0x71 none x
                  ∧ (s.image.isSome = true → s.catalogue 0x71 = some (.warning, .display)
                    ∧ (NoticesOrdered s → ∃ r ∈ t.ntc.held, r.id = 0x71 ∧ r.detail = x)))
                ∧ ((s.cfg.node = .recordRead ∨ s.cfg.node = .join) → t = { s with link := { s.link with
                    clashes := n, clashMark := some ((rxOfBus f).kind, (rxOfBus f).destination) } })
                ∧ ((s.cfg.node = .store ∨ s.cfg.node = .quiet) → t = { s with link := { s.link with clashes := n } }))
        ∧ ((rxOfBus f).source ≠ s.link.address → (rxOfBus f).destination ≠ s.link.address →
            (rxOfBus f).destination ≠ 0xFF → t = s)
        ∧ ((rxOfBus f).source ≠ s.link.address →
            ((rxOfBus f).destination = s.link.address ∨ (rxOfBus f).destination = 0xFF) →
            (16 ≤ s.link.rx.length →
              t = { s with link := { s.link with overruns := min 65535 (s.link.overruns + 1) } })
            ∧ (s.link.rx.length < 16 →
                (∀ h, (s.link.rx ++ [rxOfBus f]).head? = some h → rxOwner s.streams h ≠ .nobody
                  ∧ rxOwner s.streams h ≠ .tooShort
                  ∧ (rxOwner s.streams h = .setting → s.link.itemsTaken < itemCount h)) →
                t.link.rx = s.link.rx ++ [rxOfBus f] ∧ t.link.malformed = min 65535 s.link.malformed)
            ∧ (s.link.rx = [] → rxOwner s.streams (rxOfBus f) = .nobody →
                t.link.rx = [] ∧ t.link.malformed = min 65535 s.link.malformed)
            ∧ (s.link.rx = [] → rxOwner s.streams (rxOfBus f) = .tooShort →
                t.link.rx = [] ∧ t.link.malformed = min 65535 (s.link.malformed + 1))
            ∧ (s.link.rx = [] → rxOwner s.streams (rxOfBus f) = .setting → itemCount (rxOfBus f) = 0 →
                t.link.rx = [] ∧ t.link.malformed = min 65535 s.link.malformed)))

/-- STREAM_FRAME_ARRIVAL (R25 to R27, R29 to R32, R34, R35). In every state but JOIN and RUN the frame leaves the receive queue
and no more. In JOIN and RUN a short frame is counted malformed, a repeat is
counted duplicate, and any other frame is accepted: mailbox, arrival time, sequence, state and fault cause written, a skip
counted. An arrival in STALE, or in RECOVERING past the instant at which its window ends, begins a recovery; every other one
makes the entry FRESH, at that instant too. With an accepted frame the stream-fault notice follows the cause (R35) and the readers
of the role take the event (R34); that the notice precedes the readers is the model's choice. In JOIN nothing but the entry, the
grant that ECO re-reads, and the receive queue changes.
The model's choices here: logs 4, 7, 16, 35, 44. -/
def Obligations.StreamArrivalTaken : Prop :=
  (∀ (s : State) (f : RxFrame), s.cfg.node ≠ .join → s.cfg.node ≠ .run → s.headFor .stm = some f →
    exec .streamFrameArrival s = .next s.takeFrame)
  ∧ ∀ (s : State) (f : RxFrame) (e : Stream) (begins : Bool), (s.cfg.node = .join ∨ s.cfg.node = .run) →
    s.headFor .stm = some f → matchingEntry s.streams f = some e →
    (begins = true ↔ e.state = .stale ∨ e.state = .recovering ∧ 2 * e.period + 1 < elapsed s.now e.recoveryStart) →
    ∃ t e', exec .streamFrameArrival s = .next t
      ∧ t.streams = s.streams.map (fun x => if x.number = e.number then e' else x)
      ∧ t.now = s.now ∧ t.cfg = s.cfg ∧ t.image = s.image ∧ t.pose = s.pose ∧ t.hold = s.hold ∧ t.lim.set = s.lim.set
      ∧ (e'.number = e.number ∧ e'.role = e.role ∧ e'.source = e.source ∧ e'.kind = e.kind ∧ e'.period = e.period
          ∧ e'.staleMult = e.staleMult)
      ∧ (f.data.length < roleLength e.role →
          e' = { e with malformed := min 65535 (e.malformed + 1) } ∧ t = s.takeFrame.setEntry e')
      ∧ (roleLength e.role ≤ f.data.length → e.lastSeq = some (payloadSeq f.data) → begins = false →
          e' = { e with duplicates := min 65535 (e.duplicates + 1) } ∧ t = s.takeFrame.setEntry e')
      ∧ (roleLength e.role ≤ f.data.length → (e.lastSeq ≠ some (payloadSeq f.data) ∨ begins = true) →
          e'.mailbox = readPayload e.role f.data ∧ e'.arrival = s.now ∧ e'.lastSeq = some (payloadSeq f.data)
          ∧ e'.duplicates = e.duplicates ∧ e'.malformed = e.malformed ∧ e'.staleEpisodes = e.staleEpisodes
          ∧ e'.absence = none ∧ e'.frozen = e.frozen
          ∧ (∃ u, FaultTold (s.takeFrame.setEntry e') u e e' ∧ t = u.streamEvent e' true (e'.state != e.state))
          ∧ (begins = true → e'.gaps = e.gaps ∧ e'.state = .recovering ∧ e'.recoveryStart = s.now
              ∧ e'.faultCause = e.faultCause)
          ∧ (begins = false → e'.state = .fresh ∧ e'.recoveryStart = e.recoveryStart ∧ e'.faultCause =
              if e.role.isAngle && e'.mailbox.status == .failed then some .failed else none)
          ∧ (begins = false → ∀ l, e.lastSeq = some l →
              e'.gaps = if payloadSeq f.data = l + 1 then e.gaps else min 65535 (e.gaps + 1))
          ∧ (e.lastSeq = none → e'.gaps = e.gaps)
          ∧ (e.role = .engineGrant → t.eco.grant = t.readGrant))
      ∧ (s.cfg.node = .join → t = { s with
          streams := t.streams, eco := { s.eco with grant := t.eco.grant }, link := t.link })

/-- The four timers of an entry (R28 to R32): FRESH to LATE with the value kept, LATE to STALE with an episode counted,
RECOVERING back to STALE without one, and NEVER_SEEN to STALE with cause ABSENT; the first three run in JOIN and RUN, and go on in
QUIET reached from JOIN (R28, R39; log 41). At each the stream-fault notice follows the cause (R35) and the readers of the role
take the event (R34); that the notice precedes the readers is the model's choice.
The model's choices here: logs 2, 7, 41. -/
def Obligations.StreamTimersAge : Prop :=
  (∀ (s : State) (e : Stream), s.timersRun e = true ↔
    s.cfg.node = .join ∨ s.cfg.node = .run ∨ s.cfg.node = .quiet ∧ e.frozen = false)
  ∧ (∀ (s : State) (n : Nat) (e e' : Stream), s.timersRun e = true → s.entry n = some e → e.state = .fresh →
    e' = { e with state := .late
                  faultCause := if e.role.isAngle && e.mailbox.status == .failed then some .failed else none } →
    ∃ t u, exec (.lateTimerExpiry n) s = .next t ∧ t.now = (s.arriveAt (after e.arrival (2 * e.period + 1))).now
      ∧ t.streams = s.streams.map (fun x => if x.number = e.number then e' else x)
      ∧ FaultTold ((s.arriveAt (after e.arrival (2 * e.period + 1))).setEntry e') u e e' ∧ t = u.streamEvent e' false true
      ∧ t.cfg = s.cfg ∧ t.image = s.image ∧ t.pose = s.pose ∧ t.hold = s.hold ∧ t.lim = s.lim ∧ t.svc = s.svc)
  ∧ (∀ (s : State) (n : Nat) (e e' : Stream), s.timersRun e = true → s.entry n = some e → e.state = .late →
    e' = { e with state := .stale, staleEpisodes := min 65535 (e.staleEpisodes + 1), absence := none
                  faultCause := some .lost } →
    ∃ t u, exec (.staleTimerExpiry n) s = .next t
      ∧ t.now = (s.arriveAt (after e.arrival (e.staleMult * e.period + 1))).now
      ∧ t.streams = s.streams.map (fun x => if x.number = e.number then e' else x)
      ∧ FaultTold ((s.arriveAt (after e.arrival (e.staleMult * e.period + 1))).setEntry e') u e e'
      ∧ t = u.streamEvent e' false true
      ∧ t.cfg = s.cfg ∧ t.image = s.image ∧ t.pose = s.pose ∧ t.hold = s.hold ∧ t.lim = s.lim ∧ t.svc = s.svc)
  ∧ (∀ (s : State) (n : Nat) (e e' : Stream), s.timersRun e = true → s.entry n = some e → e.state = .recovering →
    e' = { e with state := .stale } →
    ∃ t, exec (.recoveryWindowExpiry n) s = .next t
      ∧ t.now = (s.arriveAt (after e.recoveryStart (2 * e.period + 1))).now
      ∧ t.streams = s.streams.map (fun x => if x.number = e.number then e' else x)
      ∧ t = ((s.arriveAt (after e.recoveryStart (2 * e.period + 1))).setEntry e').streamEvent e' false true
      ∧ t.cfg = s.cfg ∧ t.image = s.image ∧ t.pose = s.pose ∧ t.hold = s.hold ∧ t.lim = s.lim ∧ t.svc = s.svc)
  ∧ ∀ (s : State) (n : Nat) (e e' : Stream) (d : Ms), s.cfg.node = .run → s.entry n = some e → e.state = .neverSeen →
    e.absence = some d →
    e' = { e with state := .stale, staleEpisodes := min 65535 (e.staleEpisodes + 1), absence := none
                  faultCause := some .absent } →
    ∃ t u, exec (.absenceWatchExpiry n) s = .next t ∧ t.now = (s.arriveAt d).now
      ∧ t.streams = s.streams.map (fun x => if x.number = e.number then e' else x)
      ∧ FaultTold ((s.arriveAt d).setEntry e') u e e' ∧ t = u.streamEvent e' false true
      ∧ t.cfg = s.cfg ∧ t.image = s.image ∧ t.pose = s.pose ∧ t.hold = s.hold ∧ t.lim = s.lim ∧ t.svc = s.svc

/-! ## Limits -/

/-- The floor height and the floor margin, with their bounds for the values the part can hold (R50); the ceiling and reach
margins (R51); the slew margins, on the signed difference of slew angle and limit at the radius in force (R52). -/
def Obligations.MarginsOfPose : Prop :=
  (∀ (f : Floor) (r : Int), floorHeight f r = f.f0 + (f.s * (r - f.r0)) / 1000)
  ∧ (∀ f : Floor, floorHeight f f.r0 = f.f0)
  ∧ (∀ (f : Floor) (a b : Int), 0 ≤ f.s → a ≤ b → floorHeight f a ≤ floorHeight f b)
  ∧ (∀ (f : Floor) (p : PoseRecord), floorMargin f p =
      min (p.p2Height - floorHeight f p.p2Reach) (p.p3Height - floorHeight f p.p3Reach))
  ∧ (∀ (f : Floor) (r h : Int), -20000 ≤ f.f0 → f.f0 ≤ 10000 → -500 ≤ f.s → f.s ≤ 500 → -32768 ≤ f.r0 → f.r0 ≤ 32767 →
      -30000 ≤ r → r ≤ 30000 → -28000 ≤ h → h ≤ 32000 →
      (-31384000 ≤ f.s * (r - f.r0) ∧ f.s * (r - f.r0) ≤ 31384000)
        ∧ (-51384 ≤ floorHeight f r ∧ floorHeight f r ≤ 41384)
        ∧ (-84000 ≤ h - floorHeight f r ∧ h - floorHeight f r ≤ 84000))
  ∧ (∀ (s : State) (f : Floor), s.poseUsable = true → s.lim.set.floor = some f →
      s.marginOf .floor = some (floorMargin f s.pose.record))
  ∧ (∀ (s : State) (c : Int), s.poseUsable = true → s.lim.set.ceiling = some c →
      s.marginOf .ceiling = some (c - max s.pose.record.p1Height (max s.pose.record.p2Height s.pose.record.p3Height)))
  ∧ (∀ (s : State) (r : Int), s.poseUsable = true → s.lim.set.reach = some r →
      s.marginOf .reach = some (r - max s.pose.record.p1Reach (max s.pose.record.p2Reach s.pose.record.p3Reach)))
  ∧ (∀ s : State, s.slewRadius = if s.poseUsable then
      max 1000 (max s.pose.record.p1Reach (max s.pose.record.p2Reach s.pose.record.p3Reach)) else s.img.geometry.maxReach)
  ∧ (∀ g : Geometry, g.maxReach = (g.xf.natAbs : Int) + g.l1 + g.l2 + g.l3)
  ∧ (∀ (s : State) (l : Int), s.slewValid = true → s.lim.set.slewLeft = some l →
      s.marginOf .slewLeft = some ((s.slewRadius * wrapAngle (l - s.psi) * 25736) / 268435456))
  ∧ (∀ (s : State) (r : Int), s.slewValid = true → s.lim.set.slewRight = some r →
      s.marginOf .slewRight = some ((s.slewRadius * wrapAngle (s.psi - r) * 25736) / 268435456))
  ∧ (∀ v : Int, -32768 ≤ wrapAngle v ∧ wrapAngle v ≤ 32767 ∧ (wrapAngle v - v) % 65536 = 0)
  ∧ (∀ radius v : Int, 1000 ≤ radius → radius ≤ 30000 → -32768 ≤ v → v ≤ 32767 →
      (-25300000000000 ≤ radius * v * 25736 ∧ radius * v * 25736 ≤ 25300000000000)
        ∧ (0 ≤ v → 0 ≤ (radius * v * 25736) / 268435456) ∧ (v < 0 → (radius * v * 25736) / 268435456 ≤ -1)
        ∧ (-94249 ≤ (radius * v * 25736) / 268435456 ∧ (radius * v * 25736) / 268435456 ≤ 94249))
  ∧ ∀ (s : State) (l : Limit), (l = .slewLeft ∨ l = .slewRight) → s.slewValid = false → s.marginOf l = none

/-- The state of a margin in its band and the cut of the state: CLEAR cuts nothing, APPROACH cuts by the straight ramp,
STOP cuts by 1000 less the stop allowance (R53, R55). The evaluation of a limit: OFF with no margin for an absent limit, FAULT with no
margin for a present one whose basis is unusable (the pose of FLOOR, CEILING and REACH, the slew angle of the slew limits), and
else its margin with the state of the margin in the limit's band (R50 to R53). -/
def Obligations.LimitStatesAndCuts : Prop :=
  (∀ (b : Band) (m : Int), 100 ≤ b.b → b.b ≤ 3000 → 0 ≤ b.aStop → b.aStop ≤ 200 →
    (b.b ≤ m → marginState b.b m = .clear ∧ cutOf b ⟨.clear, some m⟩ = some 0)
    ∧ (0 < m → m < b.b → marginState b.b m = .approach
        ∧ ∃ k : Nat, cutOf b ⟨.approach, some m⟩ = some k
          ∧ (k : Int) = 1000 - (b.aStop + ((1000 - b.aStop) * m) / b.b) ∧ (k : Int) ≤ 1000 - b.aStop)
    ∧ (m ≤ 0 → marginState b.b m = .stop
        ∧ ∃ k : Nat, cutOf b ⟨.stop, some m⟩ = some k ∧ (k : Int) = 1000 - b.aStop)
    ∧ cutOf b ⟨.fault, none⟩ = none ∧ cutOf b ⟨.off, none⟩ = none)
  ∧ (∀ (s : State) (l : Limit) (basis : Bool),
      basis = (if l = .slewLeft ∨ l = .slewRight then s.slewValid else s.poseUsable) →
      (s.lim.set.has l = false → s.evaluateLimit l = ⟨.off, none⟩)
      ∧ (s.lim.set.has l = true → basis = false → s.evaluateLimit l = ⟨.fault, none⟩)
      ∧ (s.lim.set.has l = true → basis = true → ∃ m, s.marginOf l = some m ∧ s.evaluateLimit l =
          ⟨if (bandOf s.img.limits l).b ≤ m then .clear else if 0 < m then .approach else .stop, some m⟩))
  ∧ (∀ u : LimitSet, u.has .floor = u.floor.isSome ∧ u.has .ceiling = u.ceiling.isSome ∧ u.has .reach = u.reach.isSome
      ∧ u.has .slewLeft = u.slewLeft.isSome ∧ u.has .slewRight = u.slewRight.isSome)
  ∧ ∀ c : LimitConfig, bandOf c .floor = c.floor ∧ bandOf c .ceiling = c.ceiling ∧ bandOf c .reach = c.reach
      ∧ bandOf c .slewLeft = c.slew ∧ bandOf c .slewRight = c.slew

/-- The four floor items in RUN: the set after the item, the floor's record evaluated on it, and the response
(R43 to R45, R48, R49).
The model's choices here: logs 4, 7. -/
def Obligations.FloorItems : Prop :=
  (∀ (s : State) (i : SettingItem) (f : Floor), s.cfg.node = .run → s.itemFor 0x01 = some i →
    f = ⟨clampInt (-20000) 10000 i.value, 0, if s.poseUsable then s.pose.record.maxReach else 0⟩ →
    ∃ t, exec .setFloor s = .next t
      ∧ (∀ c, s.lim.set.ceiling = some c → c < f.f0 + 500 → t.lim.set = s.lim.set
          ∧ ItemAnswered t i (.refused .conflict) (s.lim.set.floor.map (·.f0)) (s.lim.set.floor.map (·.s))
              (s.lim.set.floor.map (·.r0)))
      ∧ ((∀ c, s.lim.set.ceiling = some c → f.f0 + 500 ≤ c) → t.lim.set = { s.lim.set with floor := some f }
          ∧ t.lim.records.floor = State.evaluateLimit { s with lim := { s.lim with set := t.lim.set } } .floor
          ∧ ItemAnswered t i (if f.f0 = i.value then .accepted else .clamped none) (some f.f0) (some 0) (some f.r0)))
  ∧ (∀ (s : State) (i : SettingItem) (f : Floor), s.cfg.node = .run → s.itemFor 0x02 = some i →
    f = ⟨clampInt (-20000) 10000 s.pose.record.p3Height, (s.lim.set.floor.map (·.s)).getD 0, s.pose.record.p3Reach⟩ →
    ∃ t, exec .setFloorAtTip s = .next t
      ∧ (s.poseUsable = false → t.lim.set = s.lim.set
          ∧ ItemAnswered t i (.refused .noPose) (s.lim.set.floor.map (·.f0)) (s.lim.set.floor.map (·.s))
              (s.lim.set.floor.map (·.r0)))
      ∧ (s.poseUsable = true → ∀ c, s.lim.set.ceiling = some c → c < f.f0 + 500 → t.lim.set = s.lim.set
          ∧ ItemAnswered t i (.refused .conflict) (s.lim.set.floor.map (·.f0)) (s.lim.set.floor.map (·.s))
              (s.lim.set.floor.map (·.r0)))
      ∧ (s.poseUsable = true → (∀ c, s.lim.set.ceiling = some c → f.f0 + 500 ≤ c) →
          t.lim.set = { s.lim.set with floor := some f }
          ∧ t.lim.records.floor = State.evaluateLimit { s with lim := { s.lim with set := t.lim.set } } .floor
          ∧ ItemAnswered t i (if f.f0 = s.pose.record.p3Height then .accepted else .clamped none) (some f.f0) (some f.s)
              (some f.r0)))
  ∧ (∀ (s : State) (i : SettingItem) (v : Int), s.cfg.node = .run → s.itemFor 0x03 = some i →
    v = clampInt s.img.limits.slopeMin s.img.limits.slopeMax i.value →
    ∃ t, exec .setGradeSlope s = .next t
      ∧ (s.lim.set.floor = none → t.lim.set = s.lim.set ∧ ItemAnswered t i (.refused .absent) none none none)
      ∧ (∀ f, s.lim.set.floor = some f → t.lim.set = { s.lim.set with floor := some { f with s := v } }
          ∧ t.lim.records.floor = State.evaluateLimit { s with lim := { s.lim with set := t.lim.set } } .floor
          ∧ ItemAnswered t i (if v = i.value then .accepted else .clamped none) (some f.f0) (some v) (some f.r0)))
  ∧ ∀ (s : State) (i : SettingItem), s.cfg.node = .run → s.itemFor 0x04 = some i →
    ∃ t, exec .clearFloor s = .next t ∧ t.lim.set = { s.lim.set with floor := none }
      ∧ t.lim.records.floor = ⟨.off, none⟩ ∧ ItemAnswered t i .accepted none none none

/-- The four ceiling and reach items in RUN (R43, R46, R48, R49).
The model's choices here: logs 4, 7. -/
def Obligations.CeilingAndReachItems : Prop :=
  (∀ (s : State) (i : SettingItem) (c : Int), s.cfg.node = .run → s.itemFor 0x05 = some i →
    c = clampInt (-5000) 20000 i.value →
    ∃ t, exec .setCeiling s = .next t
      ∧ (∀ f, s.lim.set.floor = some f → c < f.f0 + 500 → t.lim.set = s.lim.set
          ∧ ItemAnswered t i (.refused .conflict) s.lim.set.ceiling none none)
      ∧ ((∀ f, s.lim.set.floor = some f → f.f0 + 500 ≤ c) → t.lim.set = { s.lim.set with ceiling := some c }
          ∧ t.lim.records.ceiling = State.evaluateLimit { s with lim := { s.lim with set := t.lim.set } } .ceiling
          ∧ ItemAnswered t i (if c = i.value then .accepted else .clamped none) (some c) none none))
  ∧ (∀ (s : State) (i : SettingItem), s.cfg.node = .run → s.itemFor 0x06 = some i →
    ∃ t, exec .clearCeiling s = .next t ∧ t.lim.set = { s.lim.set with ceiling := none }
      ∧ t.lim.records.ceiling = ⟨.off, none⟩ ∧ ItemAnswered t i .accepted none none none)
  ∧ (∀ (s : State) (i : SettingItem) (r : Int), s.cfg.node = .run → s.itemFor 0x07 = some i →
    r = clampInt 1000 30000 i.value →
    ∃ t, exec .setReach s = .next t ∧ t.lim.set = { s.lim.set with reach := some r }
      ∧ t.lim.records.reach = State.evaluateLimit { s with lim := { s.lim with set := t.lim.set } } .reach
      ∧ ItemAnswered t i (if r = i.value then .accepted else .clamped none) (some r) none none)
  ∧ ∀ (s : State) (i : SettingItem), s.cfg.node = .run → s.itemFor 0x08 = some i →
    ∃ t, exec .clearReach s = .next t ∧ t.lim.set = { s.lim.set with reach := none }
      ∧ t.lim.records.reach = ⟨.off, none⟩ ∧ ItemAnswered t i .accepted none none none

/-- The five slew items in RUN: the set after the item, the record of the limit evaluated on it, and the response (R43, R47,
R48). That the response to CLEAR_SLEW carries no value is what both absent limits
give (log 23).
The model's choices here: logs 4, 7. -/
def Obligations.SlewItems : Prop :=
  (∀ (s : State) (i : SettingItem) (v : Int), s.cfg.node = .run →
    (s.itemFor 0x09 = some i ∧ v = i.value ∨ s.itemFor 0x0B = some i ∧ v = s.psi) →
    ∃ t, exec (if i.code = 0x09 then .setSlewLeft else .setSlewLeftHere) s = .next t
      ∧ (i.code = 0x0B → s.slewValid = false →
          t.lim = s.lim ∧ ItemAnswered t i (.refused .noSlew) s.lim.set.slewLeft none none)
      ∧ ((i.code = 0x09 ∨ s.slewValid = true) →
          (∀ r, s.lim.set.slewRight = some r → v - r < 1820 →
            t.lim = s.lim ∧ ItemAnswered t i (.refused .conflict) s.lim.set.slewLeft none none)
          ∧ ((∀ r, s.lim.set.slewRight = some r → 1820 ≤ v - r) →
            t.lim.set = { s.lim.set with slewLeft := some v } ∧ ItemAnswered t i .accepted (some v) none none
              ∧ t.lim.records.slewLeft = State.evaluateLimit { s with lim := { s.lim with set := t.lim.set } } .slewLeft)))
  ∧ (∀ (s : State) (i : SettingItem) (v : Int), s.cfg.node = .run →
    (s.itemFor 0x0A = some i ∧ v = i.value ∨ s.itemFor 0x0C = some i ∧ v = s.psi) →
    ∃ t, exec (if i.code = 0x0A then .setSlewRight else .setSlewRightHere) s = .next t
      ∧ (i.code = 0x0C → s.slewValid = false →
          t.lim = s.lim ∧ ItemAnswered t i (.refused .noSlew) s.lim.set.slewRight none none)
      ∧ ((i.code = 0x0A ∨ s.slewValid = true) →
          (∀ l, s.lim.set.slewLeft = some l → l - v < 1820 →
            t.lim = s.lim ∧ ItemAnswered t i (.refused .conflict) s.lim.set.slewRight none none)
          ∧ ((∀ l, s.lim.set.slewLeft = some l → 1820 ≤ l - v) →
            t.lim.set = { s.lim.set with slewRight := some v } ∧ ItemAnswered t i .accepted (some v) none none
              ∧ t.lim.records.slewRight = State.evaluateLimit { s with lim := { s.lim with set := t.lim.set } } .slewRight)))
  ∧ ∀ (s : State) (i : SettingItem), s.cfg.node = .run → s.itemFor 0x0D = some i →
    ∃ t, exec .clearSlew s = .next t ∧ t.lim.set = { s.lim.set with slewLeft := none, slewRight := none }
      ∧ t.lim.records.slewLeft = ⟨.off, none⟩ ∧ t.lim.records.slewRight = ⟨.off, none⟩
      ∧ ItemAnswered t i .accepted none none none

/-- What every limit item leaves unchanged, in every node state: the frame of the thirteen.
The model's choices here: logs 4, 7. -/
def Obligations.LimitItemsFrame : Prop :=
  ∀ x ∈ limitItems, ∀ s t : State, exec x.2 s = .next t → AgreeOutsideLimits s t

/-- In JOIN and STORE every answered setting item is refused STATE, with nothing changed but LINK (R43, R75, R116, R117,
R148, R157, R172), and NOTICE_ACK changes nothing but LINK and is not answered (R164). SETTING_ITEM_UNKNOWN: an item whose
code names no setting is refused RANGE with all applied values 0, where offers are taken (R177).
The model's choices here: logs 4, 23. -/
def Obligations.SettingItemsRefused : Prop :=
  (∀ x ∈ answeredItems, ∀ (s : State) (i : SettingItem), (s.cfg.node = .join ∨ s.cfg.node = .store) →
    s.itemFor x.1 = some i → ∃ t, exec x.2 s = .next t ∧ t = { s with link := t.link } ∧ ItemRefusedState t i)
  ∧ (∀ (s : State) (i : SettingItem), s.cfg.node ≠ .run → s.itemFor 0x29 = some i →
    ∃ t, exec .noticeAck s = .next t ∧ t = { s with link := t.link } ∧ t.link.urgent = s.link.urgent)
  ∧ ∀ (s : State) (i : SettingItem), takesOffer s.cfg.node .settingResponse = true → s.nextItem = some i →
    i.code ∉ settingCodes → ∃ t, exec .settingItemUnknown s = .next t ∧ t = { s with link := t.link }
      ∧ LastUrgent t.link .settingResponse i.source
          ([byteOf i.code, 2, 6, 0] ++ List.replicate 12 0)

/-- After an evaluation in RUN a limit in STOP cuts every channel of its mask by at least 1000 less the stop allowance, a
limit in FAULT gives the channel's fail per-mille, and where no covering limit is in FAULT there is no FAIL demand
(R56, R57). The sounder's class 1 request is live while a limit is in STOP, that of class 3 while one is in APPROACH, with
the period of the smallest margin (R58, R59); and each limit that enters STOP raises its notice with the margin, each that
leaves it clears it (R58). The order of the notices of several limits, by limit number, is the model's. A stream event of the
SLEW_ANGLE entry in RUN: at an arrival both slew limits are evaluated, the others stand, and the key is rebuilt, in a free order; at
any other event nothing (R34, R54, R66; log 6).
The model's choices here: logs 6, 7. -/
def Obligations.StopAndFaultCut : Prop :=
  (∀ (s : State) (p : Limit → Bool), s.cfg.node = .run →
    ∀ (l : Limit) (c : Channel), (s.img.limits.masks.get l).getLsbD c.num = true →
      (((s.evaluateLimits p).lim.records.get l).state = .stop →
        ∃ n, ((s.evaluateLimits p).vch.get c).limit = some n ∧ (1000 - (bandOf s.img.limits l).aStop).toNat ≤ n)
      ∧ (((s.evaluateLimits p).lim.records.get l).state = .fault →
        ((s.evaluateLimits p).vch.get c).fail = some (s.img.channels.get c).fail)
      ∧ ((∀ l' : Limit, (s.img.limits.masks.get l').getLsbD c.num = true →
          ((s.evaluateLimits p).lim.records.get l').state ≠ .fault) → ((s.evaluateLimits p).vch.get c).fail = none))
  ∧ (∀ (s u : State) (p : Limit → Bool), s.cfg.node = .run → u = s.evaluateLimits p →
      (∀ l : Limit, u.lim.records.get l = if p l then s.evaluateLimit l else s.lim.records.get l)
      ∧ (u.snd.class1 = true ↔ ∃ l : Limit, (u.lim.records.get l).state = .stop)
      ∧ (u.snd.class3 = none ↔ ∀ (l : Limit) (m : Int), u.lim.records.get l ≠ ⟨.approach, some m⟩)
      ∧ (∀ n, u.snd.class3 = some n → ∃ (l : Limit) (m : Int), u.lim.records.get l = ⟨.approach, some m⟩
          ∧ n = (100 + (700 * m) / (bandOf s.img.limits l).b).toNat
          ∧ ∀ (l' : Limit) (m' : Int), u.lim.records.get l' = ⟨.approach, some m'⟩ →
              m < m' ∨ m = m' ∧ n ≤ (100 + (700 * m') / (bandOf s.img.limits l').b).toNat))
  ∧ (∀ (b m : Int), 0 < m → m < b → 100 ≤ 100 + (700 * m) / b ∧ 100 + (700 * m) / b ≤ 799)
  ∧ (∀ (s : State) (p : Limit → Bool), (s.evaluateStates p).ntc =
      (Limit.all.foldl (fun (t : State) l => t.stopNotice s.lim.records l)
        { s with lim := { s.lim with records := (s.evaluateStates p).lim.records } }).ntc)
  ∧ (∀ (s : State) (l : Limit), s.image.isSome = true → s.catalogue (0x30 + l.num) = some (.caution, .display))
  ∧ (∀ (s : State) (e : Stream) (a c : Bool), s.cfg.node = .run → e.role = .slewAngle → s.streamEvent e a c =
      if a then anyOrder [[fun v => v.evaluateLimits isSlew], [State.rebuild]] s else s)
  ∧ (∀ (s u : State) (e : Stream) (c : Bool), s.cfg.node = .run → e.role = .slewAngle → u = s.streamEvent e true c →
      u.lim.records.slewLeft = s.evaluateLimit .slewLeft ∧ u.lim.records.slewRight = s.evaluateLimit .slewRight
      ∧ u.lim.records.floor = s.lim.records.floor ∧ u.lim.records.ceiling = s.lim.records.ceiling
      ∧ u.lim.records.reach = s.lim.records.reach ∧ u.rule.key = some u.zoneKey)
  ∧ (∀ l : Limit, isSlew l = true ↔ l = .slewLeft ∨ l = .slewRight)
  ∧ ∀ (s : State) (old : PerLimit LimitRecord) (l : Limit),
      ((s.lim.records.get l).state = .stop → (old.get l).state ≠ .stop → ∀ m, (s.lim.records.get l).margin = some m →
        s.stopNotice old l = s.raiseNotice (0x30 + l.num) none (.margin m))
      ∧ ((s.lim.records.get l).state ≠ .stop → (old.get l).state = .stop →
        s.stopNotice old l = s.clearNotice (0x30 + l.num))
      ∧ (((s.lim.records.get l).state = .stop ↔ (old.get l).state = .stop) → s.stopNotice old l = s)

/-! ## Rules -/

/-- Each zone counts the thresholds at or below its value, 0 where its basis is unusable (R64); and the zone key, field by field
(R65). -/
def Obligations.ZoneKeyFields : Prop :=
  ∀ (s : State) (k : Nat), k = s.zoneKey.toNat →
    (s.poseUsable = false → s.heightZone = 0 ∧ s.reachZone = 0) ∧ (s.slewValid = false → s.slewZone = 0)
    ∧ (s.poseUsable = true →
        s.heightZone = (s.img.zones.height.filter fun t => decide (t ≤ s.pose.record.p3Height)).length
        ∧ s.reachZone = (s.img.zones.reach.filter fun t => decide
            (t ≤ max s.pose.record.p1Reach (max s.pose.record.p2Reach s.pose.record.p3Reach))).length)
    ∧ (s.slewValid = true → s.slewZone = (s.img.zones.slew.filter fun t => decide (t ≤ s.psi)).length)
    ∧ (s.img.zones.height.length ≤ 7 → k % 8 = s.heightZone)
    ∧ (s.img.zones.reach.length ≤ 7 → k / 8 % 8 = s.reachZone)
    ∧ (s.img.zones.slew.length ≤ 7 → k / 64 % 8 = s.slewZone)
    ∧ s.zoneKey.getLsbD 9 = s.poseUsable ∧ s.zoneKey.getLsbD 10 = s.slewValid ∧ k / 2048 % 4 = s.eco.mode.code
    ∧ s.zoneKey.getLsbD 13 = (s.usable .hydraulicState && (s.mailbox .hydraulicState).travel)
    ∧ s.zoneKey.getLsbD 14 = s.engineRunning
    ∧ (∀ n, n < 4 → s.zoneKey.getLsbD (15 + n) =
        (s.usable .hydraulicState && (s.mailbox .hydraulicState).levers.getLsbD n))
    ∧ s.zoneKey.getLsbD 19 = (!s.hold.entries.isEmpty || s.hold.overflow.isSome)
    ∧ (∀ l : Limit, s.zoneKey.getLsbD (20 + l.num) =
        ((s.lim.records.get l).state == .approach || (s.lim.records.get l).state == .stop))
    ∧ (s.rule.profile ≤ 3 → k / 33554432 = s.rule.profile)

/-- The lookup: the highest-index matching slot, else the default rule, 32; a slot matches where the key equals its key value
in every bit under its care mask (R68, R70). -/
def Obligations.LookupTakesHighest : Prop :=
  (∀ (k : Key) (r : RuleSlot), slotMatches k r = true ↔ ∀ n, r.care.getLsbD n = true → k.getLsbD n = r.key.getLsbD n)
  ∧ ∀ (slots : List RuleSlot) (k : Key), slots.Pairwise (fun a b => a.index < b.index) →
    ((∀ r ∈ slots, slotMatches k r = false) → lookup slots k = 32)
    ∧ ∀ r ∈ slots, slotMatches k r = true → (∀ r' ∈ slots, slotMatches k r' = true → r'.index ≤ r.index) →
        lookup slots k = r.index

/-- A lookup in RUN: a rule already winning leaves everything as it was; another becomes the winner, its counter advances
by 1 up to 65535, and its cuts and caps replace the old ones, absent where it holds none (R70, R71, R74); its class 2 request
replaces the old winner's, the old winner's notice is cleared, and its own is raised with the zones of the key (R72, R73).
A rebuild in RUN holds the zone key as it stands: an equal key changes nothing, another is looked up; outside RUN there is
none (R66, R67). A one-shot that replaces the old winner's sound plays at once, also where another waited, for the withdrawal and
the placing act as one (R169 to R171; log 19).
The model's choices here: logs 7, 19. -/
def Obligations.WinnerChangeReplaces : Prop :=
  (∀ (s : State) (k : Key) (w : Nat), s.cfg.node = .run → w = lookup s.img.rules k →
    (s.rule.winner = some w → s.lookupKey k = s)
    ∧ (s.rule.winner ≠ some w →
        (s.lookupKey k).rule.winner = some w
        ∧ (s.lookupKey k).rule.hits = s.rule.hits.set w (min 65535 (s.rule.hits.getD w 0 + 1))
        ∧ (∀ c : Channel, (s.lookupKey k).vch.get c = { s.vch.get c with rule := (s.actions w).cuts.get c })
        ∧ (s.lookupKey k).eco.speedCap = (s.actions w).speedCap ∧ (s.lookupKey k).eco.pumpCap = (s.actions w).pumpCap
        ∧ (s.lookupKey k).eco.idleInhibit = (s.actions w).idleInhibit
        ∧ ∃ t, t = s.lookupKey k ∧ t.rule.profile = s.rule.profile ∧ t.eco.mode = s.eco.mode
          ∧ t = { s with rule := t.rule, vch := t.vch, eco := t.eco, ntc := t.ntc, snd := t.snd, link := t.link }))
  ∧ (∀ s u : State, u = s.rebuild →
      (s.cfg.node ≠ .run → u = s)
      ∧ (s.cfg.node = .run → u.rule.key = some s.zoneKey ∧ u.zoneKey = s.zoneKey
        ∧ (s.rule.key = some s.zoneKey → u = s)
        ∧ (s.rule.key ≠ some s.zoneKey →
            u = State.lookupKey { s with rule := { s.rule with key := some s.zoneKey } } s.zoneKey)))
  ∧ (∀ (s u : State) (k : Key) (w : Nat) (x : Option Pattern), s.cfg.node = .run → w = lookup s.img.rules k →
      s.rule.winner ≠ some w → x = soundOf (s.actions w) → u = s.lookupKey k →
      (x = some .cadence500 → u.snd.class2 = some .cadence500) ∧ (x = some .continuous → u.snd.class2 = some .continuous)
      ∧ ((x = some .oneShotShort ∨ x = some .oneShotLong) → u.snd.class2 = none)
      ∧ (x = none → (∃ o ∈ s.rule.winner, soundOf (s.actions o) ≠ none) → u.snd.class2 = none)
      ∧ (NoticesOrdered s → s.image.isSome = true → w < 32 → (s.actions w).notice = true → ∃ r ∈ u.ntc.held, r.id = 0x40 + w
          ∧ r.detail = .zones (k.toNat % 8) (k.toNat / 8 % 8) (k.toNat / 64 % 8))
      ∧ (NoticesOrdered s → ∀ o ∈ s.rule.winner, (s.actions o).notice = true → ∀ r ∈ u.ntc.held, r.id ≠ 0x40 + o))
  ∧ ∀ (s u : State) (old : Option Pattern) (long : Bool), s.cfg.node = .run → s.snd.class1 = false →
      (∀ o d, s.snd.playing = .oneShot o d → o.cls = 2) →
      u = s.ruleSound old (some (if long then .oneShotLong else .oneShotShort)) →
      u.snd.playing = .oneShot ⟨2, long, 0⟩ (after s.now (if long then 300 else 80))
        ∧ u.snd.class1 = s.snd.class1 ∧ u.snd.class3 = s.snd.class3 ∧ u.snd.class4 = s.snd.class4

/-- SET_PROFILE in RUN, with the rebuild of the key for a profile that changes (R66, R75).
The model's choices here: logs 4, 7. -/
def Obligations.SetProfileItem : Prop :=
  ∀ (s : State) (i : SettingItem), s.cfg.node = .run → s.itemFor 0x18 = some i → ∃ t, exec .setProfile s = .next t
    ∧ ((i.value < 0 ∨ 3 < i.value) → t.rule = s.rule ∧ t.vch = s.vch
        ∧ ItemAnswered t i (.refused .range) (some s.rule.profile) none none)
    ∧ (0 ≤ i.value → i.value ≤ 3 → (t.rule.profile : Int) = i.value
        ∧ ItemAnswered t i .accepted (some i.value) none none)
    ∧ (i.value = s.rule.profile → s.rule.profile ≤ 3 → t.rule = s.rule ∧ t.vch = s.vch ∧ t.eco = s.eco)
    ∧ (0 ≤ i.value → i.value ≤ 3 → i.value ≠ s.rule.profile →
        t = (State.rebuild { s.takeItem with rule := { s.rule with profile := i.value.toNat } }).respond i .accepted
          (some i.value) none none)
    ∧ t.eco.mode = s.eco.mode
    ∧ t = { s with rule := t.rule, vch := t.vch, eco := t.eco, ntc := t.ntc, snd := t.snd, link := t.link }

/-! ## Holds -/

/-- How a request is decided in RUN, case by case (R84 to R90). The last value of a decision says whether it places an entry: a new one
or a merge does, which R93 answers with the chirp and 0x38 (HoldRequestTaken); a refresh, a release and a refusal do not. -/
def Obligations.HoldDecision : Prop :=
  ∀ (cfg : HoldConfig) (now : Ms) (h : HoldTable) (r : HoldRequest) (m : Mask) (granted : Nat),
    m = r.mask &&& cfg.mask → granted = min r.time cfg.tmax →
    ((r.level = 0 ∨ 1000 < r.level) → decideHold cfg now h r = ⟨h, .refused .level, 0, 0, 0, false⟩)
    ∧ (1 ≤ r.level → r.level ≤ 1000 → m = 0 → decideHold cfg now h r = ⟨h, .refused .mask, 0, 0, 0, false⟩)
    ∧ (1 ≤ r.level → r.level ≤ 1000 → m ≠ 0 →
        (r.time = 0 →
          (h.entryOf r.requester = none → decideHold cfg now h r = ⟨h, .notHeld, 0, 0, 0, false⟩)
          ∧ ∀ e, h.entryOf r.requester = some e → decideHold cfg now h r =
              ⟨{ h with entries := h.entries.filter fun x => x.requester != r.requester }, .released, e.mask, 0,
                min 65535 (elapsed now e.accept / 10), false⟩)
        ∧ (r.time ≠ 0 →
          (h.entryOf r.requester ≠ none →
            decideHold cfg now h r =
              ⟨{ h with entries := h.entries.map fun e => if e.requester = r.requester then
                  { e with mask := m, level := r.level, remaining := granted } else e },
                if m = r.mask ∧ granted = r.time then .accepted else .clamped, m, granted, 0, false⟩)
          ∧ (h.entryOf r.requester = none → h.entries.length < 8 →
            decideHold cfg now h r =
              ⟨{ h with entries := h.entries ++ [⟨r.requester, m, r.level, granted, now⟩] },
                if m = r.mask ∧ granted = r.time then .accepted else .clamped, m, granted, 0, true⟩)
          ∧ (h.entryOf r.requester = none → 8 ≤ h.entries.length →
            (decideHold cfg now h r).result = .merged ∧ (decideHold cfg now h r).mask = m
            ∧ (decideHold cfg now h r).granted = granted ∧ (decideHold cfg now h r).held = 0
            ∧ (decideHold cfg now h r).placed = true
            ∧ (decideHold cfg now h r).table.entries = h.entries
            ∧ (decideHold cfg now h r).table.quantumTimer = h.quantumTimer
            ∧ (h.overflow = none → (decideHold cfg now h r).table.overflow = some ⟨m, r.level, granted⟩)
            ∧ ∀ o, h.overflow = some o → (decideHold cfg now h r).table.overflow =
                some ⟨o.mask ||| m, max o.level r.level, max o.remaining granted⟩)))

/-- HOLD_REQUEST: in RUN the table and the HOLD demands become those of the decision and one HOLD RESPONSE answers; in JOIN
and STORE the request is refused STATE; a source of 0xFE or 0xFF gets nothing (R83, R90, R92). In RUN a new entry or a merge
places the chirp of class 5 and raises 0x38 with its detail, the table emptied clears 0x38, and a change between empty and active
rebuilds the key (R93). That the rebuild comes before the chirp and the notice, and the notice before the response, is the
model's choice (log 7).
The model's choices here: logs 4, 7. -/
def Obligations.HoldRequestTaken : Prop :=
  ∀ (s : State) (f : RxFrame) (r : HoldRequest), s.headFor .hold = some f → r = readHoldRequest f →
    ∃ t, exec .holdRequest s = .next t
      ∧ (f.source ≠ 0xFE → f.source ≠ 0xFF → s.cfg.node = .run →
          t.hold = (decideHold s.img.holds s.now s.hold r).table
          ∧ (∀ c : Channel, (t.vch.get c).hold = t.hold.demand c)
          ∧ LastUrgent t.link .holdResponse f.source
              (holdResultBytes (decideHold s.img.holds s.now s.hold r).result
                ++ [(decideHold s.img.holds s.now s.hold r).mask.setWidth 8]
                ++ be2 (decideHold s.img.holds s.now s.hold r).granted
                ++ be2 (decideHold s.img.holds s.now s.hold r).held ++ [byteOf r.reason]))
      ∧ (f.source ≠ 0xFE → f.source ≠ 0xFF → (s.cfg.node = .join ∨ s.cfg.node = .store) →
          t = { s with link := t.link }
          ∧ LastUrgent t.link .holdResponse f.source [5, 1, 0, 0, 0, 0, 0, byteOf r.reason])
      ∧ (∀ d, d = decideHold s.img.holds s.now s.hold r → f.source ≠ 0xFE → f.source ≠ 0xFF → s.cfg.node = .run →
          ∃ v w x : State, v = { s with hold := d.table, vch := v.vch, link := s.takeFrame.link }
            ∧ (∀ c : Channel, v.vch.get c = { s.vch.get c with hold := d.table.demand c })
            ∧ w = (if d.table.active = s.hold.active then v else v.rebuild)
            ∧ x = (if d.placed then
                  State.raiseNotice { w with snd := sndPlaceOneShot s.now ⟨5, false, 0⟩ w.snd } 0x38 none
                    (.hold f.source r.reason d.table.entries.length d.table.overflow.isSome)
                else if s.hold.active = true ∧ d.table.active = false then w.clearNotice 0x38 else w)
            ∧ t = { x with link := t.link })
      ∧ (s.image.isSome = true → s.catalogue 0x38 = some (.info, .display))
      ∧ (∀ h : HoldTable, h.active = true ↔ h.entries ≠ [] ∨ h.overflow ≠ none)
      ∧ ((f.source = 0xFE ∨ f.source = 0xFF) → t = { s with link := t.link } ∧ t.link.urgent = s.link.urgent)
      ∧ t.eco.mode = s.eco.mode ∧ t.rule.profile = s.rule.profile
      ∧ t = { s with rule := t.rule, hold := t.hold, vch := t.vch, eco := t.eco, ntc := t.ntc, snd := t.snd,
                     link := t.link }

/-- QUANTUM_TIMER_EXPIRY takes one quantum from every entry and removes those that reach 0; HOLD_ENTRY_EXPIRY removes the
entry that has one quantum left (R91; log 14); and in RUN the demands follow the table (R92). Where the table has become empty the
key is rebuilt and 0x38 is cleared (R93), in that order, the model's choice (log 7).
The model's choices here: logs 2, 7, 14. -/
def Obligations.HoldsCountDown : Prop :=
  (∀ (s : State) (d : Ms), s.hold.quantumTimer = some d → ∃ t, exec .quantumTimerExpiry s = .next t
    ∧ t.hold.quantumTimer = some (after d 10)
    ∧ t.hold.entries = (s.hold.entries.filter fun e => 1 < e.remaining).map
        (fun e => { e with remaining := e.remaining - 1 })
    ∧ (∀ o, s.hold.overflow = some o → t.hold.overflow =
        if 1 < o.remaining then some { o with remaining := o.remaining - 1 } else none)
    ∧ (s.hold.overflow = none → t.hold.overflow = none)
    ∧ (s.cfg.node = .run → ∀ c : Channel, (t.vch.get c).hold = t.hold.demand c)
    ∧ t = { s.arriveAt d with rule := t.rule, hold := t.hold, vch := t.vch, eco := t.eco, ntc := t.ntc, snd := t.snd,
                              link := t.link }
    ∧ (s.cfg.node = .run → HoldsTold (s.arriveAt d) t))
  ∧ (∀ (s : State) (d : Ms) (a : Byte) (e : HoldEntry), s.hold.quantumTimer = some d → s.hold.entryOf a = some e →
    e.remaining = 1 → ∃ t, exec (.holdEntryExpiry (some a)) s = .next t
      ∧ t.hold = { s.hold with entries := s.hold.entries.filter fun x => x.requester != a }
      ∧ (s.cfg.node = .run → (∀ c : Channel, (t.vch.get c).hold = t.hold.demand c) ∧ HoldsTold (s.arriveAt d) t))
  ∧ (∀ (s : State) (d : Ms) (o : Overflow), s.hold.quantumTimer = some d → s.hold.overflow = some o → o.remaining = 1 →
    ∃ t, exec (.holdEntryExpiry none) s = .next t ∧ t.hold = { s.hold with overflow := none }
      ∧ (s.cfg.node = .run → (∀ c : Channel, (t.vch.get c).hold = t.hold.demand c) ∧ HoldsTold (s.arriveAt d) t))
  ∧ ∀ (h : HoldTable) (c : Channel),
      (h.demand c = none ↔ ∀ l ∈ h.leases, l.1.getLsbD c.num = false)
      ∧ ∀ n, h.demand c = some n → (∃ l ∈ h.leases, l.1.getLsbD c.num = true ∧ l.2 = n)
          ∧ ∀ l ∈ h.leases, l.1.getLsbD c.num = true → l.2 ≤ n

/-! ## Channels -/

/-- PERIOD_START of a used channel in RUN: target, target duty, adopted duty by the release ramp, state and pin, the demands
and the other channels as they were, and a LIMIT STATUS when the state changes (R101 to R103, R105, R106);
DUTY_END lowers the output at its count (R103); an unused channel and a channel outside RUN take neither (R97, R109). That either
command acts at a counter before its due point too is the model's (log 46).
The model's choices here: logs 3, 25, 46. -/
def Obligations.ChannelPeriods : Prop :=
  (∀ (s : State) (c : Channel) (r : ChannelRecord) (g : ChannelConfig), s.cfg.node = .run → r = s.vch.get c →
    g = s.img.channels.get c → g.used = true →
    ∃ t k, exec (.periodStart c) s = .next t
      ∧ (∀ n, (r.limit = some n ∨ r.rule = some n ∨ r.hold = some n ∨ r.fail = some n) → n ≤ k)
      ∧ (k = 0 ∨ r.limit = some k ∨ r.rule = some k ∨ r.hold = some k ∨ r.fail = some k)
      ∧ (t.vch.get c).target = k ∧ (t.vch.get c).targetDuty = (k * g.modulus + 500) / 1000
      ∧ (t.vch.get c).duty = max (t.vch.get c).targetDuty (r.duty - g.release)
      ∧ (t.vch.get c).counter = 0 ∧ (t.vch.get c).pin = decide (0 < (t.vch.get c).duty)
      ∧ ((t.vch.get c).duty = 0 → (t.vch.get c).state = .pass)
      ∧ ((t.vch.get c).duty ≠ 0 → (t.vch.get c).duty = g.modulus → (t.vch.get c).state = .full)
      ∧ ((t.vch.get c).duty ≠ 0 → (t.vch.get c).duty ≠ g.modulus → (t.vch.get c).duty = (t.vch.get c).targetDuty →
          (t.vch.get c).state = .cutting)
      ∧ ((t.vch.get c).duty ≠ 0 → (t.vch.get c).duty ≠ g.modulus → (t.vch.get c).targetDuty < (t.vch.get c).duty →
          (t.vch.get c).state = .releasing)
      ∧ ((t.vch.get c).limit = r.limit ∧ (t.vch.get c).rule = r.rule ∧ (t.vch.get c).hold = r.hold
          ∧ (t.vch.get c).fail = r.fail)
      ∧ (∀ c', c' ≠ c → t.vch.get c' = s.vch.get c')
      ∧ ((t.vch.get c).state = r.state → t = { s with vch := t.vch })
      ∧ ((t.vch.get c).state ≠ r.state → t = { s with vch := t.vch, link := t.link }
          ∧ LastUrgent t.link .limitStatus 0xFF (limitStatusData t true)))
  ∧ (∀ (s : State) (c : Channel), s.cfg.node = .run → (s.img.channels.get c).used = true → (s.vch.get c).pin = true →
    0 < (s.vch.get c).duty → (s.vch.get c).duty < (s.img.channels.get c).modulus →
    ∃ t, exec (.dutyEnd c) s = .next t ∧ t = { s with vch := t.vch }
      ∧ t.vch.get c = { s.vch.get c with counter := (s.vch.get c).duty, subCount := 0, pin := false }
      ∧ ∀ c', c' ≠ c → t.vch.get c' = s.vch.get c')
  ∧ ∀ (s : State) (c : Channel), (s.cfg.node ≠ .run ∨ (s.img.channels.get c).used = false) →
      exec (.periodStart c) s = .next s ∧ exec (.dutyEnd c) s = .next s

/-! ## Economy -/

/-- WORK_MODE in RUN (R116), with the target speed formed at once for a mode that changes (R129), its frames and the test of RECOVER, and
RULE's rebuild after it; and AUTO_IDLE_ENABLE and AUTO_IDLE_DELAY (R117): a changed enable acts on the economy state at once, as a change
of the permit does (R122, R124 to R126). An item that changes no value changes nothing but LINK. That ECO forms before RULE rebuilds, and
that both come before the response, is the model's choice (log 7).
The model's choices here: logs 4, 7. -/
def Obligations.EconomyItems : Prop :=
  (∀ (s : State) (i : SettingItem), s.cfg.node = .run → s.itemFor 0x10 = some i → ∃ t, exec .workMode s = .next t
    ∧ ((i.value < 0 ∨ 3 < i.value) → t.eco = s.eco
        ∧ ItemAnswered t i (.refused .range) (some s.eco.mode.code) none none)
    ∧ (s.svc.derate = true → (i.value = 0 ∨ i.value = 1) → t.eco.mode = .economy
        ∧ ItemAnswered t i (.clamped (some .derate)) (some 2) none none)
    ∧ ((s.svc.derate = false ∧ 0 ≤ i.value ∧ i.value ≤ 3 ∨ i.value = 2 ∨ i.value = 3) →
        (t.eco.mode.code : Int) = i.value ∧ ItemAnswered t i .accepted (some i.value) none none)
    ∧ (t.eco.mode = s.eco.mode → t = { s with link := t.link })
    ∧ (t.eco.mode ≠ s.eco.mode → t.eco.target = t.eco.formTarget s.img.economy s.svc.derate
        ∧ t = (State.rebuild (State.reformTarget { s.takeItem with eco := { s.eco with mode := t.eco.mode } })).respond i
          (if s.svc.derate = true ∧ (i.value = 0 ∨ i.value = 1) then .clamped (some .derate) else .accepted)
          (some t.eco.mode.code) none none)
    ∧ t.eco.autoIdle = s.eco.autoIdle ∧ t.eco.delay = s.eco.delay ∧ t.eco.fuelTotal = s.eco.fuelTotal
    ∧ t.rule.profile = s.rule.profile
    ∧ t = { s with rule := t.rule, vch := t.vch, eco := t.eco, ntc := t.ntc, snd := t.snd, link := t.link })
  ∧ (∀ (s : State) (i : SettingItem), s.cfg.node = .run → s.itemFor 0x11 = some i →
    ∃ t, exec .autoIdleEnable s = .next t
      ∧ (i.value = 0 → t.eco.autoIdle = false ∧ ItemAnswered t i .accepted (some 0) none none)
      ∧ (i.value = 1 → t.eco.autoIdle = true ∧ ItemAnswered t i .accepted (some 1) none none)
      ∧ (i.value ≠ 0 → i.value ≠ 1 → t.eco = s.eco
          ∧ ItemAnswered t i (.refused .range) (some (if s.eco.autoIdle then 1 else 0)) none none)
      ∧ (t.eco.autoIdle = s.eco.autoIdle → t = { s with link := t.link })
      ∧ (t.eco.autoIdle ≠ s.eco.autoIdle →
          t = (State.permitEvent { s.takeItem with eco := { s.eco with autoIdle := decide (i.value = 1) } }).respond i .accepted
            (some i.value) none none)
      ∧ t.eco.mode = s.eco.mode ∧ t.eco.delay = s.eco.delay
      ∧ t = { s with eco := t.eco, ntc := t.ntc, snd := t.snd, link := t.link })
  ∧ ∀ (s : State) (i : SettingItem) (n : Nat), s.cfg.node = .run → s.itemFor 0x12 = some i →
    (n : Int) = clampInt 4 30 i.value →
    ∃ t, exec .autoIdleDelay s = .next t ∧ t.eco.delay = n
      ∧ ItemAnswered t i (if (n : Int) = i.value then .accepted else .clamped none) (some n) none none
      ∧ (n ≠ s.eco.delay → s.eco.state = .neutralWait →
          if reached s.now (after s.eco.delayStart (n * 1000)) then t.eco.state = .idleLow ∧ t.eco.delayTimer = none
            ∧ t.eco.requested = some s.img.economy.idleSpeed
          else t.eco.state = .neutralWait ∧ t.eco.delayTimer = some (after s.eco.delayStart (n * 1000))
            ∧ t.eco = { s.eco with delay := n, delayTimer := t.eco.delayTimer })
      ∧ ((s.eco.state ≠ .neutralWait ∨ n = s.eco.delay) → t.eco = { s.eco with delay := n })
      ∧ t = { s with eco := t.eco, link := t.link }

/-- IDLE_DELAY_EXPIRY brings IDLE_LOW with the idle speed requested (R124, R125, R129), YIELD_TIMER_EXPIRY brings YIELDED with
no speed request left unsent (R127, R130), RECOVERY_TIMER_EXPIRY brings WORK, or from it NEUTRAL_WAIT where the permit
holds, and raises 0x73 with Nt and the engine speed; the recovery that passes its test clears it (R126, R124). On stream events: the
engine condition moves the state into and out of OFF (R118, R123), the lever-neutral timestamp and the idle permit move it among WORK,
NEUTRAL_WAIT, IDLE_LOW and RECOVER (R119, R122, R124 to R126), and the grant runs the yield timer and ends YIELDED (R120, R127);
the events of the angle and spare entries have no reader, those of SLEW_ANGLE and DISPLAY are stated in StopAndFaultCut and
NoticeAndSounderTimers; outside RUN the grant alone is re-read (R34). An ENGINE_STATE arrival takes its fuel (R132, R133: FuelOfArrival),
forms the engine condition and makes the test of RECOVER (R118, R126), in that order, the model's choice (log 54); a state event that brings
STALE or NEVER_SEEN clears the fuel mark and any other keeps it (R132), and then forms the condition. A change of Nt in RECOVER is tested
at once (R126).
The model's choices here: logs 2, 7, 35, 54. -/
def Obligations.EconomyTimersMove : Prop :=
  (∀ (s : State) (d : Ms), s.eco.delayTimer = some d → ∃ t, exec .idleDelayExpiry s = .next t
    ∧ t.eco.state = .idleLow ∧ t.eco.delayTimer = none ∧ t.eco.recoveryTimer = none
    ∧ t.eco.requested = some s.img.economy.idleSpeed ∧ t.eco.speedGov = .idle
    ∧ t.eco.mode = s.eco.mode ∧ t = { s.arriveAt d with eco := t.eco, link := t.link })
  ∧ (∀ (s : State) (d : Ms), s.eco.yieldTimer = some d → ∃ t, exec .yieldTimerExpiry s = .next t
    ∧ t.eco.state = .yielded ∧ t.eco.delayTimer = none ∧ t.eco.recoveryTimer = none ∧ t.eco.yieldTimer = none
    ∧ t.eco.requested = none ∧ t.eco.pumpLimit.isSome = true
    ∧ (s.eco.requested ≠ none → NoneQueued t.link .speedRequest)
    ∧ t.eco.mode = s.eco.mode ∧ t = { s.arriveAt d with eco := t.eco, link := t.link })
  ∧ (∀ (s : State) (d : Ms), s.eco.recoveryTimer = some d → ∃ t, exec .recoveryTimerExpiry s = .next t
    ∧ t.eco.state = (if s.idlePermit then .neutralWait else .work) ∧ t.eco.recoveryTimer = none
    ∧ t.eco.requested = some t.eco.target ∧ t.eco.target = s.eco.formTarget s.img.economy s.svc.derate
    ∧ t.eco.mode = s.eco.mode
    ∧ t = { s.arriveAt d with eco := t.eco, ntc := t.ntc, snd := t.snd, link := t.link }
    ∧ (∃ u, u = (s.arriveAt d).raiseNotice 0x73 none (.recovery s.eco.target (s.mailbox .engineState).speed)
        ∧ t.ntc = u.ntc ∧ t.snd = u.snd)
    ∧ (s.image.isSome = true → s.catalogue 0x73 = some (.caution, .display))
    ∧ (s.cfg.node = .run → s.image.isSome = true → NoticesOrdered s → ∃ r ∈ t.ntc.held, r.id = 0x73
        ∧ r.detail = .recovery s.eco.target (s.mailbox .engineState).speed))
  ∧ (∀ s : State, (s.engineRunning = true ↔ s.usable .engineState = true
      ∧ s.img.economy.runThreshold ≤ (s.mailbox .engineState).speed))
  ∧ (∀ s u : State, u = s.engineCondition → u.eco.running = s.engineRunning
      ∧ (s.engineRunning = true → s.eco.state = .off → u.eco.state = if s.idlePermit then .neutralWait else .work)
      ∧ (s.engineRunning = true → s.eco.state ≠ .off → u.eco = { s.eco with running := true } ∧ u.link = s.link)
      ∧ (s.engineRunning = false → u.eco.state = .off)
      ∧ (s.engineRunning = false → s.eco.state ≠ .off → u.eco.requested = none ∧ u.eco.pumpLimit = none
          ∧ u.eco.delayTimer = none ∧ u.eco.recoveryTimer = none ∧ u.eco.yieldTimer = none
          ∧ u.eco.requestTimer = s.eco.requestTimer ∧ u.eco.secondTimer = s.eco.secondTimer
          ∧ u.eco.reportTimer = s.eco.reportTimer ∧ u.eco.neutralSince = s.eco.neutralSince
          ∧ (s.eco.requested ≠ none → NoneQueued u.link .speedRequest)
          ∧ (s.eco.pumpLimit ≠ none → NoneQueued u.link .pumpLimit)))
  ∧ (∀ (s u : State) (d : Ms), u = s.formNeutral d →
      u.eco = { s.eco with neutralSince :=
        if s.neutral then (if s.eco.neutralSince.isSome then s.eco.neutralSince else some d) else none })
  ∧ (∀ s : State, (s.idlePermit = true ↔ s.eco.neutralSince ≠ none ∧ s.eco.autoIdle = true
      ∧ s.usable .hydraulicState = true ∧ s.img.economy.warmUp ≤ (s.mailbox .hydraulicState).oil
      ∧ s.eco.idleInhibit = false))
  ∧ (∀ s u : State, u = s.permitEvent →
      (s.eco.state = .work → s.idlePermit = true → u.eco.state = .neutralWait
        ∧ u.eco.delayTimer = some (after s.now (s.eco.delay * 1000)) ∧ u.eco.delayStart = s.now)
      ∧ (s.eco.state = .neutralWait → s.idlePermit = false → u.eco.state = .work ∧ u.eco.delayTimer = none)
      ∧ (s.eco.state = .idleLow → s.idlePermit = false →
          ((s.eco.formTarget s.img.economy s.svc.derate : Int) - s.img.economy.tolerance
              ≤ (s.mailbox .engineState).speed → u.eco.state = .work ∧ u.eco.recoveryTimer = none)
          ∧ ((s.mailbox .engineState).speed
              < (s.eco.formTarget s.img.economy s.svc.derate : Int) - s.img.economy.tolerance → u.eco.state = .recover
              ∧ u.eco.recoveryTimer = some (after s.now (s.img.economy.recoveryTimeout.toNat * 1000))))
      ∧ ((s.eco.state = .off ∨ s.eco.state = .recover ∨ s.eco.state = .yielded
          ∨ s.eco.state = .work ∧ s.idlePermit = false
          ∨ (s.eco.state = .neutralWait ∨ s.eco.state = .idleLow) ∧ s.idlePermit = true) → u = s))
  ∧ (∀ s u : State, s.eco.state = .recover → u = s.recoveryTest →
      ((s.eco.target : Int) - s.img.economy.tolerance ≤ (s.mailbox .engineState).speed →
        u.eco.state = (if s.idlePermit then .neutralWait else .work) ∧ u.eco.recoveryTimer = none
        ∧ u.ntc = (s.clearNotice 0x73).ntc ∧ u.snd = (s.clearNotice 0x73).snd)
      ∧ ((s.mailbox .engineState).speed < (s.eco.target : Int) - s.img.economy.tolerance → u = s))
  ∧ (∀ s : State, (s.usable .engineGrant = false → s.readGrant = .none)
      ∧ (s.usable .engineGrant = true → ∀ src, src = (s.mailbox .engineGrant).grantSource →
        (src = s.link.address → s.readGrant = .own)
        ∧ (src ≠ s.link.address → (src = 0xFE ∨ src = 0xFF) → s.readGrant = .none)
        ∧ (src ≠ s.link.address → src ≠ 0xFE → src ≠ 0xFF → s.readGrant = .foreign)))
  ∧ (∀ s u : State, u = s.ecoGrant → u.eco.grant = s.readGrant
      ∧ (s.eco.state.requesting = true → u.eco.state = s.eco.state ∧ u.eco.yieldTimer =
          if s.readGrant = .foreign then (if s.eco.yieldTimer.isSome then s.eco.yieldTimer
            else some (after s.now s.img.economy.yieldConfirm.toNat)) else none)
      ∧ (s.eco.state = .yielded → s.readGrant = .foreign → u.eco.state = .yielded)
      ∧ (s.eco.state = .yielded → s.readGrant ≠ .foreign →
          u.eco.state = if s.idlePermit then .neutralWait else .work)
      ∧ (s.eco.state = .off → u.eco.state = .off))
  ∧ (∀ (s : State) (e : Stream), s.ecoEngineArrival e = (s.fuelArrival e).engineCondition.recoveryTest
      ∧ s.ecoEngineState e = State.engineCondition { s with eco := { s.eco with
          fuelMark := if e.state = .stale ∨ e.state = .neverSeen then none else s.eco.fuelMark } })
  ∧ (∀ s : State, s.eco.state ≠ .recover → s.recoveryTest = s)
  ∧ (∀ s : State, s.reform.eco.target = s.eco.formTarget s.img.economy s.svc.derate
      ∧ (s.reform.eco.target = s.eco.target → s.reformTarget = s.reform)
      ∧ (s.reform.eco.target ≠ s.eco.target → s.reformTarget = s.reform.recoveryTest))
  ∧ ∀ (s : State) (e : Stream) (a c : Bool),
      (s.cfg.node = .run → e.role = .engineState →
        s.streamEvent e a c = (if a then s.ecoEngineArrival e else s.ecoEngineState e).rebuild)
      ∧ (s.cfg.node = .run → e.role = .hydraulicState →
        s.streamEvent e a c = (s.formNeutral s.now).permitEvent.rebuild)
      ∧ (s.cfg.node = .run → e.role = .engineGrant → s.streamEvent e a c = s.ecoGrant)
      ∧ (s.cfg.node = .run → (e.role = .boomAngle ∨ e.role = .armAngle ∨ e.role = .bucketAngle ∨ e.role = .spare) →
        s.streamEvent e a c = s)
      ∧ (s.cfg.node ≠ .run → e.role = .engineGrant →
        s.streamEvent e a c = { s with eco := { s.eco with grant := s.readGrant } })
      ∧ (s.cfg.node ≠ .run → e.role ≠ .engineGrant → s.streamEvent e a c = s)

/-- REQUEST_TIMER_EXPIRY offers the speed request in the requesting states and the pump limit in every state but OFF (R130,
R131); ECO_SECOND_EXPIRY counts one second by the state (R135); and the target is the least of the mode speed, the
cap and the derate speed (R129). The pump limit is the least of the mode's, the cap and ECONOMY's while derated, and the governing
limit of each is the first of mode, cap and derate that gives the value, IDLE in IDLE_LOW (R129, R131); a forming that changes
the requested speed or the pump limit offers its frame at once, the speed request looked for where NORMAL has room, and one that ends it
leaves no such frame queued (R130, R131; log 7); the two data fields stand byte by byte (10.7). That the speed request is offered
first, so that the pump limit stays queued whatever room NORMAL has, is the model's choice.
The model's choices here: logs 2, 7, 26, 37. -/
def Obligations.RequestsAndSeconds : Prop :=
  (∀ (s : State) (d : Ms), s.eco.requestTimer = some d → ∃ t, exec .requestTimerExpiry s = .next t
    ∧ t = { s.arriveAt d with eco := { s.eco with requestTimer := some (after d 100) }, link := t.link }
    ∧ (TransmitterSound s → takesOffer s.cfg.node .speedRequest = true → s.link.normal.length < 8 →
        s.eco.state.requesting = true →
        Queued t.link .normal .speedRequest s.img.economy.engineAddress (speedData s.eco))
    ∧ (takesOffer s.cfg.node .pumpLimit = true → s.eco.state ≠ .off →
        Queued t.link .normal .pumpLimit 0xFF (pumpData s.eco)))
  ∧ (∀ (s : State) (d : Ms), s.eco.secondTimer = some d →
    exec .ecoSecondExpiry s = .next { s.arriveAt d with eco := { s.eco with
      secondTimer := some (after d 1000)
      idleSeconds := if s.eco.state = .idleLow then s.eco.idleSeconds + 1 else s.eco.idleSeconds
      workSeconds := if s.eco.state = .idleLow ∨ s.eco.state = .off then s.eco.workSeconds
        else s.eco.workSeconds + 1 } })
  ∧ (∀ (p : EcoConfig) (derate : Bool) (e : Eco) (n : Int), n = e.formPump p derate → (∀ m, 0 ≤ p.modePump.get m) →
      n ≤ p.modePump.get e.mode ∧ (∀ c, e.pumpCap = some c → n ≤ c) ∧ (derate = true → n ≤ p.modePump.economy)
      ∧ (n = p.modePump.get e.mode ∨ (∃ c, e.pumpCap = some c ∧ n = c) ∨ derate = true ∧ n = p.modePump.economy))
  ∧ (∀ (p : EcoConfig) (derate : Bool) (e r : Eco) (n k : Nat), r = e.formRecord p derate → n = e.formTarget p derate →
      k = e.formPump p derate →
      r.target = n
      ∧ r.requested = (if e.state = .off ∨ e.state = .yielded then none
          else some (if e.state = .idleLow then p.idleSpeed else n))
      ∧ (e.state = .idleLow → r.speedGov = .idle)
      ∧ ((e.state = .work ∨ e.state = .neutralWait ∨ e.state = .recover) → r.speedGov =
          if p.modeSpeed.get e.mode = n then .mode else if e.speedCap = some n then .ruleCap else .derate)
      ∧ r.pumpLimit = (if e.state = .off then none else some k)
      ∧ ((∀ m, 0 ≤ p.modePump.get m) → e.state ≠ .off → r.pumpGov =
          if p.modePump.get e.mode = k then .mode else if e.pumpCap = some k then .ruleCap else .derate)
      ∧ r = { e with target := r.target, requested := r.requested, speedGov := r.speedGov, pumpLimit := r.pumpLimit
                     pumpGov := r.pumpGov })
  ∧ (∀ s u : State, u = s.reform → u.eco = s.eco.formRecord s.img.economy s.svc.derate
      ∧ (TransmitterSound s → takesOffer s.cfg.node .speedRequest = true → s.link.normal.length < 8 →
          u.eco.requested ≠ s.eco.requested → u.eco.requested ≠ none →
          Queued u.link .normal .speedRequest s.img.economy.engineAddress (speedData u.eco))
      ∧ (u.eco.requested ≠ s.eco.requested → u.eco.requested = none → NoneQueued u.link .speedRequest)
      ∧ (takesOffer s.cfg.node .pumpLimit = true → u.eco.pumpLimit ≠ s.eco.pumpLimit → u.eco.pumpLimit ≠ none →
          Queued u.link .normal .pumpLimit 0xFF (pumpData u.eco))
      ∧ (u.eco.pumpLimit ≠ s.eco.pumpLimit → u.eco.pumpLimit = none → NoneQueued u.link .pumpLimit)
      ∧ (u.eco.requested = s.eco.requested → u.eco.pumpLimit = s.eco.pumpLimit → u.link = s.link)
      ∧ u = { s with eco := u.eco, link := u.link })
  ∧ (∀ e : Eco, speedData e = be2 (e.requested.getD 0)
        ++ [byteOf (governorCode e.speedGov), byteOf (ecoStateCode e.state), byteOf e.mode.code]
      ∧ pumpData e = [byteOf (e.pumpLimit.getD 0), byteOf (governorCode e.pumpGov)])
  ∧ [Governor.mode, .ruleCap, .derate, .idle].map governorCode = [0, 1, 2, 3]
  ∧ [EcoState.off, .work, .neutralWait, .idleLow, .recover, .yielded].map ecoStateCode = [0, 1, 2, 3, 4, 5]
  ∧ [WorkMode.heavy, .standard, .economy, .lift].map WorkMode.code = [0, 1, 2, 3]
  ∧ ∀ (p : EcoConfig) (derate : Bool) (e : Eco),
      e.formTarget p derate ≤ p.modeSpeed.get e.mode ∧ (∀ n, e.speedCap = some n → e.formTarget p derate ≤ n)
      ∧ (derate = true → e.formTarget p derate ≤ p.modeSpeed.economy)
      ∧ (e.formTarget p derate = p.modeSpeed.get e.mode ∨ e.speedCap = some (e.formTarget p derate)
          ∨ derate = true ∧ e.formTarget p derate = p.modeSpeed.economy)

/-- The fuel of an ENGINE_STATE arrival: with no mark nothing is counted; up to two periods after the mark the interval is
burnt at the mark's rate; a longer one is a gap, counted as unaccounted seconds; and the mark becomes the arrival's where it
leaves the entry FRESH (R132, R133). -/
def Obligations.FuelOfArrival : Prop :=
  ∀ (s t : State) (e : Stream), t = s.fuelArrival e →
    (s.eco.fuelMark = none → t.eco.fuelTotal = s.eco.fuelTotal ∧ t.eco.fuelRem = s.eco.fuelRem
      ∧ t.eco.gapRem = s.eco.gapRem ∧ t.svc = s.svc)
    ∧ (∀ (m : FuelMark) (dt : Nat), s.eco.fuelMark = some m → dt = elapsed e.arrival m.time →
      (dt ≤ 2 * e.period →
        t.eco.fuelTotal = s.eco.fuelTotal + BitVec.ofNat 32 ((s.eco.fuelRem + m.rate * dt) / 72000)
        ∧ t.eco.fuelRem = (s.eco.fuelRem + m.rate * dt) % 72000 ∧ t.eco.gapRem = s.eco.gapRem ∧ t.svc = s.svc)
      ∧ (2 * e.period < dt → t.eco.fuelTotal = s.eco.fuelTotal ∧ t.eco.fuelRem = s.eco.fuelRem
        ∧ t.eco.gapRem = (s.eco.gapRem + dt) % 1000
        ∧ t.svc = { s.svc with unaccounted := min 4294967295 (s.svc.unaccounted + (s.eco.gapRem + dt) / 1000) }))
    ∧ t.eco.fuelMark = (if e.state = .fresh then some ⟨e.arrival, e.mailbox.fuelRate⟩ else none)
    ∧ t = { s with eco := t.eco, svc := t.svc }

/-! ## Service -/

/-- SERVICE_DONE in RUN (R148, R150). A refused item changes nothing but LINK. An accepted one clears the item's notice: none that is held
keeps the item's number as its id; it re-forms the derate flag, which re-forms ECO's target where it changes and leaves ECO as it was
where it does not (R147, R129); and it requests the record write. The clear, the derate flag, the write and the response come in that
order, the model's choice (log 7).
The model's choices here: logs 4, 7, 23. -/
def Obligations.ServiceDoneItem : Prop :=
  ∀ (s : State) (i : SettingItem), s.cfg.node = .run → s.itemFor 0x20 = some i → ∃ t, exec .serviceDone s = .next t
    ∧ (s.svc.itemOf i.value = none → t = { s with link := t.link }
        ∧ ItemAnswered t i (.refused .range) (some i.value) none none)
    ∧ (∀ x, s.svc.itemOf i.value = some x → s.engineRunning = true → t = { s with link := t.link }
        ∧ ItemAnswered t i (.refused .engineRunning) (some i.value) (some (x.inReport x.lastDone))
            (some (x.inReport x.duePoint)))
    ∧ (∀ x, s.svc.itemOf i.value = some x → s.engineRunning = false →
        t.svc.items = s.svc.items.map (fun y => if (y.config.number : Int) = i.value then
            { y with lastDone := s.svc.reading y, state := .ok, remind := none } else y)
        ∧ t.svc.derate = derateOf t.svc.items
        ∧ t.svc = { s.svc with
            items := t.svc.items, derate := t.svc.derate, write := t.svc.write, again := t.svc.again }
        ∧ (s.svc.write = none → t.svc.again = s.svc.again)
        ∧ (NoticesOrdered s → ∀ r ∈ t.ntc.held, r.id ≠ x.config.number)
        ∧ (t.svc.derate ≠ s.svc.derate → t.eco.target = t.eco.formTarget s.img.economy t.svc.derate)
        ∧ (t.svc.derate = s.svc.derate → t.eco = s.eco)
        ∧ (∃ v w : State, v = State.clearNotice { s.takeItem with svc := { s.svc with items := t.svc.items } } x.config.number
          ∧ w = (if t.svc.derate = s.svc.derate then v
              else State.reformTarget { v with svc := { v.svc with derate := t.svc.derate } })
          ∧ t = State.respond { w with svc := t.svc } i .accepted (some i.value) (some (x.inReport (s.svc.reading x)))
              (some (x.inReport (s.svc.reading x + x.config.interval * basisMultiplier x.basis))))
        ∧ (s.svc.write = none → t.svc.write = some ⟨recordBlock t, after s.now 50⟩)
        ∧ (∀ w, s.svc.write = some w → t.svc.write = some w ∧ t.svc.again = true)
        ∧ ItemAnswered t i .accepted (some i.value) (some (x.inReport (s.svc.reading x)))
            (some (x.inReport (s.svc.reading x + x.config.interval * basisMultiplier x.basis))))
    ∧ t.svc.engineSeconds = s.svc.engineSeconds ∧ t.svc.weighted = s.svc.weighted ∧ t.svc.cycles = s.svc.cycles
    ∧ t.eco.mode = s.eco.mode ∧ t = { s with eco := t.eco, svc := t.svc, ntc := t.ntc, snd := t.snd, link := t.link }

/-- SVC_SECOND_EXPIRY counts the second by the first line of R138 that applies and requests a record write at each whole
multiple of 360 (R149); REREMIND_EXPIRY ends the re-remind time that has one second left, and raises the notice of an item that is
DUE or OVERDUE (R146; log 15). The evaluation after a counted second: the state of an item by its soon, due and over points
(R142 to R144), those of engine-hours and weighted-hours items; a rise raises the item's notice with the severity of its state (R145)
and ends its re-remind time, else the time counts down and at its end the notice of an item DUE or OVERDUE is raised (R146); and the
derate flag, with the target speed re-formed at its change (R147, R129). A raise of a held id may leave a higher severity (log 18); that the
items are evaluated first, in the order of their numbers, is the model's choice (logs 7, 53, 55).
The model's choices here: logs 2, 7, 18, 37, 53, 55. -/
def Obligations.ServiceSeconds : Prop :=
  (∀ (s : State) (d : Ms), s.svc.secondTimer = some d → ∃ t, exec .svcSecondExpiry s = .next t
    ∧ t.svc.secondTimer = some (after d 1000) ∧ t.svc.cycles = s.svc.cycles
    ∧ (s.engineRunning = true → s.svc.engineSeconds < 357913941 →
        t.svc.engineSeconds = s.svc.engineSeconds + 1
        ∧ t.svc.weighted = s.svc.weighted + (4 + ((s.mailbox .engineState).load * 8) / 100)
        ∧ t.svc.unaccounted = s.svc.unaccounted
        ∧ ((s.svc.engineSeconds + 1) % 360 = 0 → t.svc.write ≠ none ∧ (s.svc.write ≠ none → t.svc.again = true))
        ∧ t.svc.items = s.svc.items.map (fun i => { i with
            state := if i.basis = .cycles then i.state else i.stateAt (t.svc.reading i)
            remind := if i.basis ≠ .cycles ∧ itemStateCode i.state < itemStateCode (i.stateAt (t.svc.reading i)) then none
              else (i.remind.map (· - 1)).filter (0 < ·) })
        ∧ (t.svc.derate = true ↔ ∃ i ∈ t.svc.items, i.config.derate = true ∧ i.state = .overdue)
        ∧ (s.cfg.node = .run → t.svc.derate ≠ s.svc.derate →
            t.eco.target = t.eco.formTarget s.img.economy t.svc.derate)
        ∧ (t.svc.derate = s.svc.derate → t.eco = s.eco)
        ∧ (s.cfg.node = .run → s.image.isSome = true → NoticesOrdered s → (s.svc.items.map (·.config.number)).Nodup →
            ∀ i ∈ s.svc.items, 1 ≤ i.config.number → i.config.number ≤ 16 → ∀ st v,
            st = (if i.basis = .cycles then i.state else i.stateAt (t.svc.reading i)) → itemSeverity st = some v →
            (itemStateCode i.state < itemStateCode st ∨ i.remind = some 1 ∧ (st = .due ∨ st = .overdue)) →
            ∃ r ∈ t.ntc.held, r.id = i.config.number ∧ v.rank ≤ r.severity.rank
              ∧ r.detail = .service i.config.name st (i.inReport (t.svc.reading i)) (i.inReport i.duePoint)
              ∧ ((∀ x ∈ s.ntc.held, x.id ≠ i.config.number) → r.severity = v)))
    ∧ (s.engineRunning = true → 357913941 ≤ s.svc.engineSeconds →
        t.svc = { s.svc with secondTimer := some (after d 1000) })
    ∧ (s.engineRunning = false → (s.streamState .engineState).heard = true →
        t.svc = { s.svc with secondTimer := some (after d 1000) })
    ∧ (s.engineRunning = false → (s.streamState .engineState).heard = false →
        t.svc = { s.svc with secondTimer := some (after d 1000)
                             unaccounted := min 4294967295 (s.svc.unaccounted + 1) })
    ∧ t = { s.arriveAt d with eco := t.eco, svc := t.svc, ntc := t.ntc, snd := t.snd, link := t.link })
  ∧ (∀ (i : ServiceItem) (m n : Nat) (due soon past : Int), m = basisMultiplier i.basis →
      due = i.lastDone + i.config.interval * m → soon = due - i.config.lead * m → past = due + i.config.grace * m →
      (i.duePoint : Int) = due
      ∧ ((n : Int) < soon → i.stateAt n = .ok) ∧ (soon ≤ n → (n : Int) < due → i.stateAt n = .dueSoon)
      ∧ (due ≤ n → (n : Int) < past → i.stateAt n = .due) ∧ (past ≤ n → i.stateAt n = .overdue))
  ∧ (∀ (v : Svc) (i : ServiceItem),
      (i.config.basis = some .engineHours → i.basis = .engineHours ∧ v.reading i = v.engineSeconds
        ∧ basisMultiplier i.basis = 3600 ∧ ∀ n, i.inReport n = n / 360)
      ∧ (i.config.basis = some .weightedHours → i.basis = .weightedHours ∧ v.reading i = v.weighted
        ∧ basisMultiplier i.basis = 28800 ∧ ∀ n, i.inReport n = n / 2880)
      ∧ (i.config.basis = some .cycles → i.basis = .cycles ∧ v.reading i = v.cycles ∧ basisMultiplier i.basis = 1
        ∧ ∀ n, i.inReport n = n))
  ∧ [ItemState.ok, .dueSoon, .due, .overdue].map itemSeverity = [none, some .info, some .caution, some .warning]
  ∧ [ItemState.ok, .dueSoon, .due, .overdue].map itemStateCode = [0, 1, 2, 3]
  ∧ (∀ (s : State) (n : Nat), s.image.isSome = true → 1 ≤ n → n ≤ 16 → ∃ route, s.catalogue n = some (.info, route))
  ∧ ∀ (s : State) (d : Ms) (n : Nat) (x : ServiceItem), s.svc.secondTimer = some d → s.svc.itemOf n = some x →
    s.engineRunning = true → s.svc.engineSeconds < 357913941 → x.remind = some 1 →
    ∃ t u, u = { s.arriveAt d with svc := { s.svc with
          items := s.svc.items.map fun y => if y.config.number = n then { y with remind := none } else y } }
      ∧ t = (if x.state = .due ∨ x.state = .overdue then u.raiseNotice n (itemSeverity x.state)
          (.service x.config.name x.state (x.inReport (s.svc.reading x)) (x.inReport x.duePoint)) else u)
      ∧ exec (.reremindExpiry n) s = .next t
      ∧ t.svc = { s.svc with items := s.svc.items.map fun y => if y.config.number = n then { y with remind := none } else y }
      ∧ t = { s.arriveAt d with svc := t.svc, ntc := t.ntc, snd := t.snd, link := t.link }

/-- One step of the dig cycle detector, from each state (R141), and the cycle it completes: counted; the items of basis CYCLES are
evaluated at the new count, with the notices of those that rise and the derate flag (R142, R144, R145, R147); and ECO offers a CYCLE
REPORT of class BACKGROUND with the new count and the fuel burnt since the last cycle, and sets its cycle mark to the fuel total (R134;
10.7). A cycle that is not counted evaluates and reports nothing. The report is looked for where BACKGROUND has room; offerBackground
itself is stated in QueriesReply. A held id may keep a higher severity (log 18); that a rise is told in the order of item numbers and
before the derate flag, and both before the report, is the model's choice (logs 7, 53), and so is when a discarded reply frame is
reported (log 57).
The model's choices here: logs 7, 18, 53, 57. -/
def Obligations.DetectorSteps : Prop :=
  (∀ (c : ServiceConfig) (u v : Bool) (h psi : Int) (d : DetectorState) (psi0 : Option Int), u = false ∨ v = false →
    detectorStep c u v h psi d psi0 = (.ready, none, false))
  ∧ (∀ (c : ServiceConfig) (h psi : Int) (psi0 : Option Int),
    (h < c.digLevel → detectorStep c true true h psi .ready psi0 = (.dig, none, false))
    ∧ (c.digLevel ≤ h → detectorStep c true true h psi .ready psi0 = (.ready, none, false))
    ∧ (c.liftLevel < h → detectorStep c true true h psi .dig psi0 = (.lifted, some psi, false))
    ∧ (h ≤ c.liftLevel → detectorStep c true true h psi .dig psi0 = (.dig, none, false)))
  ∧ (∀ (c : ServiceConfig) (h psi z : Int),
    (c.minSwing ≤ (wrapAngle (psi - z)).natAbs → detectorStep c true true h psi .lifted (some z) = (.ready, none, true))
    ∧ ((wrapAngle (psi - z)).natAbs < c.minSwing → h < c.digLevel →
        detectorStep c true true h psi .lifted (some z) = (.dig, none, false))
    ∧ ((wrapAngle (psi - z)).natAbs < c.minSwing → c.digLevel ≤ h →
        detectorStep c true true h psi .lifted (some z) = (.lifted, some z, false)))
  ∧ ∀ (s t : State) (d : DetectorState) (z : Option Int) (done : Bool), t = s.digStep →
    (d, z, done) = detectorStep s.img.service s.poseUsable s.pose.record.slewValid s.pose.record.p3Height
      s.pose.record.slew s.svc.detector s.svc.psi0 →
    t.svc.detector = d ∧ t.svc.psi0 = z ∧ t.eco.fuelTotal = s.eco.fuelTotal ∧ t.svc.engineSeconds = s.svc.engineSeconds
    ∧ (done = true → s.svc.cycles < 4294967295 → t.svc.cycles = s.svc.cycles + 1 ∧ t.eco.cycleMark = s.eco.fuelTotal
      ∧ (takesOffer s.cfg.node .cycleReport = true → s.link.background.length < 8 →
          Queued t.link .background .cycleReport 0xFF
            (be4 (s.svc.cycles + 1 : Nat) ++ be4 (s.eco.fuelTotal - s.eco.cycleMark).toNat))
      ∧ ∃ u v : State,
          ItemsEvaluated { s with svc := { s.svc with detector := d, psi0 := z, cycles := s.svc.cycles + 1 } } u
            (fun i => i.basis == .cycles) (fun before now => itemStateCode before < itemStateCode now)
          ∧ v = u.offerBackground ⟨.cycleReport, 0xFF,
              be4 (s.svc.cycles + 1 : Nat) ++ be4 (s.eco.fuelTotal - s.eco.cycleMark).toNat, s.now, false, none⟩
          ∧ t = { v with eco := { u.eco with cycleMark := s.eco.fuelTotal } })
    ∧ ((done = false ∨ 4294967295 ≤ s.svc.cycles) → t = { s with svc := { s.svc with detector := d, psi0 := z } })
    ∧ t.lim = s.lim ∧ t.pose = s.pose ∧ t.streams = s.streams ∧ t.hold = s.hold ∧ t.vch = s.vch
    ∧ kindNumber .cycleReport = 0x261 ∧ periodic .background .cycleReport = true
    ∧ t = { s with
        stmReply := t.stmReply, rule := t.rule, eco := t.eco, svc := t.svc, ntc := t.ntc, snd := t.snd, link := t.link }

/-- SERVICE QUERY in RUN, where class BACKGROUND has room. RULE_STATS: the header of a reply with the frames to come;
RULE_STATS_CLEAR: the clear, refused while the key's engine-running field is 1 (R76, R77). STREAM_STATS and ITEM_TABLE: the first
frame of the reply, formed now, and the rest to come; a reply of no items has no frames (R38, R152). Outside RUN all four are
discarded (R38, R76, R77, R152). LINK's report of a frame of a reply, sent or discarded: the frame of the next number, formed then, is
offered, and a reply with none left ends (R38, R76, R152); where the class is full the oldest frame that is not on the wire goes, counted, and its
own reply, if any, is told once the new frame has joined, the model's choice (R180; log 57), while the replies have at most
61 frames left among them, more than three replies ever have. The frames of the five forms, byte by byte (10.7), with free values for the role and basis
codes (log 10), the state codes of NODE STATUS and SERVICE SUMMARY (log 30) and 1 for yes or present (log 61).
The model's choices here: logs 4, 10, 30, 57, 61. -/
def Obligations.QueriesReply : Prop :=
  (∀ (s : State) (f : RxFrame), s.cfg.node = .run → s.headFor .ruleStats = some f → s.link.background.length < 8 →
    ∃ t, exec .ruleStats s = .next t
      ∧ Queued t.link .background .statsReply f.source (ruleHeader s)
      ∧ t = { s with rule := { s.rule with reply := some ⟨f.source, s.img.rules.map (·.index) ++ [32]⟩ }, link := t.link })
  ∧ (∀ (s : State) (f : RxFrame), s.cfg.node = .run → s.headFor .ruleStatsClear = some f → s.link.background.length < 8 →
    ∃ t, exec .ruleStatsClear s = .next t ∧ t = { s with rule := t.rule, link := t.link }
      ∧ ((∃ k, s.rule.key = some k ∧ k.getLsbD 14 = true) → t.rule = s.rule
          ∧ Queued t.link .background .statsReply f.source (replyData 4 [1]))
      ∧ ((∀ k, s.rule.key = some k → k.getLsbD 14 = false) → t.rule = { s.rule with hits := List.replicate 33 0 }
          ∧ Queued t.link .background .statsReply f.source (replyData 4 [0])))
  ∧ (∀ (s : State) (f : RxFrame), s.cfg.node ≠ .run →
    (s.headFor .ruleStats = some f → ∃ t, exec .ruleStats s = .next t ∧ t = { s with link := t.link }
      ∧ t.link.background = s.link.background)
    ∧ (s.headFor .ruleStatsClear = some f → ∃ t, exec .ruleStatsClear s = .next t ∧ t = { s with link := t.link }
      ∧ t.link.background = s.link.background)
    ∧ (s.headFor .streamStats = some f → ∃ t, exec .streamStats s = .next t ∧ t = { s with link := t.link }
      ∧ t.link.background = s.link.background)
    ∧ (s.headFor .itemTable = some f → ∃ t, exec .itemTable s = .next t ∧ t = { s with link := t.link }
      ∧ t.link.background = s.link.background))
  ∧ (∀ (s : State) (f : RxFrame) (e : Stream) (es : List Stream), s.cfg.node = .run → s.headFor .streamStats = some f →
    s.link.background.length < 8 → s.streams = e :: es →
    ∃ t, exec .streamStats s = .next t ∧ Queued t.link .background .statsReply f.source (streamFrame e)
      ∧ t = { s with stmReply := some ⟨f.source, es.map (·.number)⟩, link := t.link })
  ∧ (∀ (s : State) (f : RxFrame) (i : ServiceItem) (is : List ServiceItem), s.cfg.node = .run →
    s.headFor .itemTable = some f → s.link.background.length < 8 → s.svc.items = i :: is →
    ∃ t, exec .itemTable s = .next t ∧ Queued t.link .background .statsReply f.source (itemFrame s.svc i)
      ∧ t = { s with svc := { s.svc with reply := some ⟨f.source, is.map (·.config.number)⟩ }, link := t.link })
  ∧ (∀ (s : State) (f : RxFrame), s.cfg.node = .run → s.headFor .itemTable = some f → s.svc.items = [] →
    ∃ t, exec .itemTable s = .next t ∧ t = { s with svc := { s.svc with reply := none }, link := t.link }
      ∧ t.link.background.length = s.link.background.length)
  ∧ (∀ (s : State) (o : ReplyOwner), s.report none = s ∧ (s.replyOf o = none → s.report (some o) = s)
      ∧ (∀ dst, s.replyOf o = some ⟨dst, []⟩ → s.report (some o) = s.setReply o none)
      ∧ (∀ dst n rest f, s.cfg.node = .run → s.replyOf o = some ⟨dst, n :: rest⟩ →
          f = ⟨.statsReply, dst, s.replyFrame o n, s.now, false, some o⟩ →
          (s.link.background.length < 8 → s.report (some o) = State.setReply
            { s with link := { s.link with background := s.link.background ++ [f] } } o (some ⟨dst, rest⟩))
          ∧ (s.link.background.length = 8 →
              (s.stmReply.elim 0 (·.todo.length)) + (s.rule.reply.elim 0 (·.todo.length))
                + (s.svc.reply.elim 0 (·.todo.length)) ≤ 61 →
              ∃ u before g after, s.link.background = before ++ g :: after
                ∧ (∀ x ∈ before, x.current = true ∧ s.link.onWire = true)
                ∧ ((g.current = true → s.link.onWire = false) ∨ after = [])
                ∧ u = State.setReply { s with link := { s.link with
                    background := before ++ after ++ [f], overflows := min 65535 (s.link.overflows + 1) } } o (some ⟨dst, rest⟩)
                ∧ s.report (some o) = u.report g.reply)))
  ∧ (∀ (s : State) (f : TxFrame), takesOffer s.cfg.node f.kind = true → (s.link.thinning = false ∨ oddSequence f = false) →
      (periodic .background f.kind = false ∨ ∀ g ∈ s.link.background, g.kind ≠ f.kind) →
      (s.link.background.length < 8 →
        s.offerBackground f = { s with link := { s.link with background := s.link.background ++ [f] } })
      ∧ (s.link.background.length = 8 → ∃ u before g after, s.link.background = before ++ g :: after
          ∧ (∀ x ∈ before, x.current = true ∧ s.link.onWire = true)
          ∧ ((g.current = true → s.link.onWire = false) ∨ after = [])
          ∧ u = { s with link := { s.link with
              background := before ++ after ++ [f], overflows := min 65535 (s.link.overflows + 1) } }
          ∧ s.offerBackground f = u.report g.reply))
  ∧ (∀ s : State, s.replyOf .stm = s.stmReply ∧ s.replyOf .rule = s.rule.reply ∧ s.replyOf .svc = s.svc.reply
      ∧ (∀ r, s.setReply .stm r = { s with stmReply := r } ∧ s.setReply .rule r = { s with rule := { s.rule with reply := r } }
        ∧ s.setReply .svc r = { s with svc := { s.svc with reply := r } })
      ∧ (∀ n e, s.entry n = some e → s.replyFrame .stm n = streamFrame e) ∧ (∀ n, s.replyFrame .rule n = ruleFrame s n)
      ∧ ∀ (n : Nat) (i : ServiceItem), s.svc.itemOf n = some i → s.replyFrame .svc n = itemFrame s.svc i)
  ∧ (∀ e : Stream, streamFrame e = [1, byteOf e.number, Config.roleCode e.role, byteOf (streamStateCode e.state)]
      ++ be2 e.gaps ++ be2 e.duplicates ++ be2 e.staleEpisodes ++ be2 e.malformed ++ List.replicate 4 0)
  ∧ (∀ (s : State) (k : Key) (w : Nat), s.rule.key = some k → s.rule.winner = some w → ruleHeader s =
      [2] ++ be4 k.toNat ++ [byteOf w, byteOf (s.img.rules.length + 1)] ++ List.replicate 9 0)
  ∧ (∀ (s : State) (n : Nat), ruleFrame s n = [3, byteOf n] ++ be2 (s.rule.hits.getD n 0)
      ++ [if s.rule.winner = some n then 1 else 0] ++ List.replicate 11 0)
  ∧ (∀ r : Byte, replyData 4 [r] = [4, r] ++ List.replicate 14 0)
  ∧ (∀ (v : Svc) (i : ServiceItem), itemFrame v i = [5, byteOf i.config.number, i.config.name, Config.basisCode i.basis,
        if i.config.derate then 1 else 0, byteOf (itemStateCode i.state), if i.remind.isSome then 1 else 0]
      ++ be4 (min 4294967295 (i.inReport (v.reading i))) ++ be4 (min 4294967295 (i.inReport i.duePoint)) ++ [0])
  ∧ [StreamState.neverSeen, .fresh, .late, .stale, .recovering].map streamStateCode = [0, 1, 2, 3, 4]
  ∧ [ItemState.ok, .dueSoon, .due, .overdue].map itemStateCode = [0, 1, 2, 3]

/-- RECORD_WRITE_DONE and RECORD_WRITE_TIMEOUT end the write: outcome and failure count, the follow-up write with a fresh
snapshot where the mark is set, the record-lost flag cleared by a success, in RUN with its notice 0x70, and STORE left by the key when
the store is complete (R150, R151, R192; the report's operand: log 24). At an entry to JOIN ECO re-reads the grant (R34, R39, R120;
log 35; `EntersJoin`); an entry to QUIET is the one that KeyMovesNode speaks of (`EntersQuiet`). Else nothing but CFG's flag and SVC
changes.
The model's choices here: logs 2, 7, 20, 24, 35, 39. -/
def Obligations.RecordWritesEnd : Prop :=
  (∀ (s : State) (w : RecordWrite) (answered ok : Bool), s.svc.write = some w →
    ok = (answered && reached w.deadline s.now) → ∃ t, exec (.recordWriteDone answered) s = .next t
      ∧ t.svc.lastFailed = !ok
      ∧ t.svc.writeFails = (if ok then s.svc.writeFails else min 65535 (s.svc.writeFails + 1))
      ∧ t.cfg.recordLost = (if ok then none else s.cfg.recordLost)
      ∧ (s.svc.again = true → t.svc.write = some ⟨recordBlock s, after s.now 50⟩ ∧ t.svc.again = false
          ∧ t.cfg.node = s.cfg.node)
      ∧ (s.svc.again = false → t.svc.write = none ∧ t.cfg.node =
          if s.cfg.node = .store then (if s.cfg.key then .join else .quiet) else s.cfg.node)
      ∧ t.svc.engineSeconds = s.svc.engineSeconds ∧ t.svc.items = s.svc.items
      ∧ t = { s with cfg := t.cfg, streams := t.streams, lim := t.lim, eco := { s.eco with grant := t.eco.grant },
                     svc := t.svc, ntc := t.ntc, snd := t.snd, link := t.link }
      ∧ (t.cfg.node = s.cfg.node ∨ t.cfg.node = .quiet → t.eco = s.eco)
      ∧ (s.cfg.node = .store → t.cfg.node = .join → t.eco.grant = .none)
      ∧ t.svc = { s.svc with
          write := t.svc.write, again := t.svc.again, writeFails := t.svc.writeFails, lastFailed := t.svc.lastFailed }
      ∧ (ok = true → s.cfg.recordLost ≠ none → s.cfg.node = .run → ∃ v : State,
          v = State.clearNotice { s with cfg := { s.cfg with recordLost := none }
                                         svc := { s.svc with write := none, lastFailed := false } } 0x70
          ∧ t = { v with svc := t.svc } ∧ (NoticesOrdered s → ∀ r ∈ t.ntc.held, r.id ≠ 0x70))
      ∧ ∀ u : State, u = { s with cfg := { s.cfg with recordLost := t.cfg.recordLost }, svc := t.svc } →
        (t.cfg.node = s.cfg.node → (ok = false ∨ s.cfg.recordLost = none ∨ s.cfg.node ≠ .run) → t = u)
        ∧ (s.cfg.node = .store → s.svc.again = false →
          (s.cfg.key = true → EntersJoin u t) ∧ (s.cfg.key = false → EntersQuiet u t)))
  ∧ ∀ (s : State) (w : RecordWrite), s.svc.write = some w → ∃ t, exec .recordWriteTimeout s = .next t
      ∧ t.svc.lastFailed = true ∧ t.svc.writeFails = min 65535 (s.svc.writeFails + 1)
      ∧ t.cfg.recordLost = s.cfg.recordLost
      ∧ (s.svc.again = true → t.svc.write = some ⟨recordBlock s, after (s.arriveAt w.deadline).now 50⟩
          ∧ t.svc.again = false ∧ t.cfg.node = s.cfg.node)
      ∧ (s.svc.again = false → t.svc.write = none ∧ t.cfg.node =
          if s.cfg.node = .store then (if s.cfg.key then .join else .quiet) else s.cfg.node)
      ∧ t.svc.engineSeconds = s.svc.engineSeconds ∧ t.svc.items = s.svc.items
      ∧ t = { s.arriveAt w.deadline with
          cfg := t.cfg, streams := t.streams, lim := t.lim, eco := { s.eco with grant := t.eco.grant }
          svc := t.svc, ntc := t.ntc, snd := t.snd, link := t.link }
      ∧ (t.cfg.node = s.cfg.node ∨ t.cfg.node = .quiet → t.eco = s.eco)
      ∧ (s.cfg.node = .store → t.cfg.node = .join → t.eco.grant = .none)
      ∧ t.svc = { s.svc with
          write := t.svc.write, again := t.svc.again, writeFails := t.svc.writeFails, lastFailed := t.svc.lastFailed }
      ∧ ∀ u : State, u = { s.arriveAt w.deadline with svc := t.svc } →
        (t.cfg.node = s.cfg.node → t = u)
        ∧ (s.cfg.node = .store → s.svc.again = false →
          (s.cfg.key = true → EntersJoin u t) ∧ (s.cfg.key = false → EntersQuiet u t))

/-! ## Notices and the sounder -/

/-- NOTICE_INHIBIT, NOTICE_ACK and SILENCE in RUN (R157, R164, R172); that the response to SILENCE carries no value is the
model's choice (log 23). An acknowledgement of a service notice sets the re-remind time of an item that is DUE or OVERDUE to the
image's interval (R146). NOTICE_INHIBIT with 0 or 1 is a change of conditions (R158, R162), stated in NoticeAndSounderTimers, followed by
the response (log 7).
The model's choices here: logs 4, 7, 23. -/
def Obligations.NoticeItems : Prop :=
  (∀ (s : State) (i : SettingItem), s.cfg.node = .run → s.itemFor 0x28 = some i →
    ∃ t, exec .noticeInhibit s = .next t
      ∧ (i.value = 0 → t.ntc.operatorInhibit = false ∧ ItemAnswered t i .accepted (some 0) none none)
      ∧ (i.value = 1 → t.ntc.operatorInhibit = true ∧ ItemAnswered t i .accepted (some 1) none none)
      ∧ ((i.value = 0 ∨ i.value = 1) → t = (s.takeItem.setConditions fun n =>
          { n with operatorInhibit := decide (i.value = 1) }).respond i .accepted (some i.value) none none)
      ∧ (i.value ≠ 0 → i.value ≠ 1 → t.ntc = s.ntc ∧ t.snd = s.snd
          ∧ ItemAnswered t i (.refused .range) (some (if s.ntc.operatorInhibit then 1 else 0)) none none)
      ∧ t.ntc.busyInhibit = s.ntc.busyInhibit ∧ t.ntc.locals = s.ntc.locals
      ∧ t = { s with ntc := t.ntc, snd := t.snd, link := t.link })
  ∧ (∀ (s : State) (i : SettingItem), s.cfg.node = .run → s.itemFor 0x29 = some i → NoticesOrdered s →
    ∃ t, exec .noticeAck s = .next t ∧ t.link.urgent = s.link.urgent
      ∧ (∀ r, s.ntc.queued i.value = some r → (∀ x ∈ t.ntc.queue ++ t.ntc.pending ++ t.ntc.locals, x.id ≠ r.id)
          ∧ t.ntc.ignoredAcks = s.ntc.ignoredAcks
          ∧ (1 ≤ r.id → r.id ≤ 16 → t.svc = { s.svc with items := s.svc.items.map fun x =>
              if x.config.number = r.id ∧ (x.state = .due ∨ x.state = .overdue) then
                { x with remind := some s.img.service.remind.toNat } else x })
          ∧ ((r.id < 1 ∨ 16 < r.id) → t.svc = s.svc))
      ∧ (s.ntc.queued i.value = none →
          t.ntc = { s.ntc with ignoredAcks := min 65535 (s.ntc.ignoredAcks + 1) } ∧ t.snd = s.snd ∧ t.svc = s.svc)
      ∧ t.svc.engineSeconds = s.svc.engineSeconds
      ∧ t = { s with svc := t.svc, ntc := t.ntc, snd := t.snd, link := t.link })
  ∧ ∀ (s : State) (i : SettingItem), s.cfg.node = .run → s.itemFor 0x2A = some i →
    ∃ t, exec .silence s = .next t ∧ t.snd.silence = some (after s.now 30000)
      ∧ (∀ n, t.snd.waiting = some n → n.cls ≤ 2) ∧ ItemAnswered t i .accepted none none none
      ∧ t = { s with snd := t.snd, link := t.link } ∧ t.snd.class1 = s.snd.class1 ∧ t.snd.class2 = s.snd.class2 ∧ t.snd.class3 = s.snd.class3
      ∧ t.snd.class4 = s.snd.class4

/-- A new notice in RUN goes where its method says: the local set, the pending set, or the queue where it has room
(R159 to R161). Beside it: a raise of an id that is held updates its detail and raises its severity where that is higher, and
re-offers a queued one (R160); a clear ends the id and leaves every other (R165); a record that outranks the last of a full
queue displaces it into the pending set, and one that does not waits there (R161); a presentation pass leaves no
presentable pending record that the queue would take (R162); and the method, with its sound, by route, severity, display
availability, inhibit and escalation (R159). A raise of a held id with a lower severity keeps the severity (log 18). The detail bytes of
the NOTICE frame are a free value, since the spec lays out no detail field: the frame holds `Config.detailBytes` of the detail (log 9).
A displacement's clear is offered before the new NOTICE, the model's choice (log 7).
The model's choices here: logs 7, 9, 18. -/
def Obligations.NewNoticePlaced : Prop :=
  (∀ (s : State) (id : Nat) (sv : Option Severity) (v c : Severity) (route : Route) (d : Detail), s.cfg.node = .run →
    s.catalogue id = some (c, route) → v = sv.getD c → findId id s.ntc.queue = none → findId id s.ntc.pending = none →
    findId id s.ntc.locals = none →
    (route = .locally → ∃ r, r ∈ (s.raiseNotice id sv d).ntc.locals ∧ r.id = id ∧ r.severity = v ∧ r.detail = d
        ∧ r.raised = s.now ∧ (s.raiseNotice id sv d).ntc.queue = s.ntc.queue
        ∧ (s.raiseNotice id sv d).ntc.logCount =
            if v = .info then min 65535 (s.ntc.logCount + 1) else s.ntc.logCount)
    ∧ (route = .display → (methodFor .display s.ntc.displayAvailable s.ntc.inhibited false v).1 = false →
        ∃ r, r ∈ (s.raiseNotice id sv d).ntc.pending ∧ r.id = id ∧ r.severity = v ∧ r.detail = d ∧ r.raised = s.now
          ∧ r.escalationStart = (if v = .caution then some s.now else none)
          ∧ (s.raiseNotice id sv d).ntc.queue = s.ntc.queue)
    ∧ (route = .display → (methodFor .display s.ntc.displayAvailable s.ntc.inhibited false v).1 = true →
        s.ntc.queue.length < 8 →
        ∃ r, r ∈ (s.raiseNotice id sv d).ntc.queue ∧ r.id = id ∧ r.severity = v ∧ r.detail = d ∧ r.raised = s.now
          ∧ (s.raiseNotice id sv d).ntc.queue.length = s.ntc.queue.length + 1
          ∧ (s.raiseNotice id sv d).ntc.pending = s.ntc.pending)
    ∧ ∃ t, t = s.raiseNotice id sv d ∧ t = { s with ntc := t.ntc, snd := t.snd, link := t.link })
  ∧ (∀ (s u : State) (id : Nat) (sv : Option Severity) (v c : Severity) (route : Route) (d : Detail), s.cfg.node = .run →
      s.catalogue id = some (c, route) → v = sv.getD c → NoticesOrdered s → u = s.raiseNotice id sv d →
      (∀ r, findId id s.ntc.queue = some r →
        (v.rank ≤ r.severity.rank → u.snd = s.snd ∧ u.ntc = { s.ntc with
            queue := s.ntc.queue.map fun x => if x.id = id then { r with detail := d } else x })
        ∧ (r.severity.rank < v.rank → u.ntc.queue.length = s.ntc.queue.length ∧ u.ntc.pending = s.ntc.pending
            ∧ ∃ x ∈ u.ntc.queue, x.id = id ∧ x.severity = v ∧ x.detail = d ∧ x.raised = r.raised)
        ∧ Queued u.link .normal .notice 0xFF ([byteOf id, byteOf (max v.rank r.severity.rank : Nat)]
            ++ be6 (Config.detailBytes d)))
      ∧ (∀ r, findId id s.ntc.pending = some r →
        (v.rank ≤ r.severity.rank → u.snd = s.snd ∧ u.link = s.link ∧ u.ntc.queue = s.ntc.queue
            ∧ { r with detail := d } ∈ u.ntc.pending)
        ∧ (r.severity.rank < v.rank →
            ∃ x ∈ u.ntc.queue ++ u.ntc.pending, x.id = id ∧ x.severity = v ∧ x.detail = d ∧ x.raised = r.raised))
      ∧ ∀ r, findId id s.ntc.locals = some r → u.link = s.link ∧ ∃ x ∈ u.ntc.locals, x.id = id ∧ x.detail = d
          ∧ x.raised = r.raised ∧ x.severity = if v.rank ≤ r.severity.rank then r.severity else v)
  ∧ (∀ (s u : State) (id : Nat), s.cfg.node = .run → NoticesOrdered s → u = s.clearNotice id →
      (∀ x ∈ u.ntc.held, x.id ≠ id) ∧ ((∀ x ∈ s.ntc.held, x.id ≠ id) → u = s)
      ∧ (∀ x ∈ s.ntc.held, x.id ≠ id → ∃ y ∈ u.ntc.held, y.id = x.id ∧ y.severity = x.severity ∧ y.raised = x.raised)
      ∧ (findId id s.ntc.queue = none → u.link = s.link)
      ∧ (findId id s.ntc.queue ≠ none → s.ntc.pending = [] → Queued u.link .normal .noticeCleared 0xFF [byteOf id, 0]))
  ∧ (∀ (s u : State) (r last : NoticeRecord), s.cfg.node = .run → s.ntc.queue.length = 8 →
      s.ntc.queue.getLast? = some last → u = s.offerQueue r →
      (last.severity.rank < r.severity.rank → u.ntc.queue.length = 8
        ∧ (∃ x ∈ u.ntc.queue, x.id = r.id ∧ x.severity = r.severity ∧ x.escalationStart = none)
        ∧ (∃ y ∈ u.ntc.pending, y.id = last.id ∧ y.severity = last.severity ∧ y.sound = none ∧ y.escalationStart =
            if last.severity = .caution ∧ last.escalated = false then some s.now else none)
        ∧ (s.link.normal.length ≤ 6 → Queued u.link .normal .noticeCleared 0xFF [byteOf last.id, 1]))
      ∧ (r.severity.rank ≤ last.severity.rank → u.ntc.queue = s.ntc.queue ∧ u.snd = s.snd ∧ u.link = s.link
        ∧ ∃ y ∈ u.ntc.pending, y.id = r.id ∧ y.severity = r.severity ∧ y.sound = none))
  ∧ (∀ s u : State, s.cfg.node = .run → NoticesOrdered s → u = s.pass →
      (∀ x ∈ u.ntc.pending, u.ntc.presentable x = true → u.ntc.takes x = false)
      ∧ ((∀ x ∈ s.ntc.pending, s.ntc.presentable x = false) → u = s)
      ∧ (∀ x ∈ s.ntc.queue ++ s.ntc.pending, ∃ y ∈ u.ntc.queue ++ u.ntc.pending,
          y.id = x.id ∧ y.severity = x.severity ∧ y.detail = x.detail ∧ y.raised = x.raised)
      ∧ u.ntc.locals = s.ntc.locals ∧ u = { s with ntc := u.ntc, snd := u.snd, link := u.link })
  ∧ (∀ (avail inh esc : Bool),
      [Severity.info, .caution, .warning, .stop].map (methodFor .locally avail inh esc)
          = [(false, none), (false, some .oneShotShort), (false, some .cadence500), (false, some .continuous)]
      ∧ [Severity.info, .caution, .warning, .stop].map (methodFor .display true inh esc)
          = [(!inh, none), (!inh || esc, none), (true, some .oneShotShort), (true, some .oneShotLong)]
      ∧ [Severity.info, .caution, .warning, .stop].map (methodFor .display false inh esc)
          = [(false, none), (false, none), (false, some .cadence500), (false, some .continuous)])
  ∧ ∀ (s : State) (id : Nat) (sv : Option Severity) (d : Detail),
      (s.cfg.node ≠ .run ∨ s.catalogue id = none → s.raiseNotice id sv d = s) ∧ (s.cfg.node ≠ .run → s.clearNotice id = s)

/-- SETTLE_TIMER_EXPIRY turns the busy inhibit off (R158); ESCALATION_TIMER_EXPIRY marks the pending CAUTION escalated, which
stays in the pending set or joins the queue (R163). In RUN, ONE_SHOT_END gives the waiting one-shot its turn and else the
highest-ranked sustained request (R170, R171); CADENCE_PHASE_EXPIRY turns the tone off and on by the pattern (R168);
SILENCE_TIMER_EXPIRY ends the silence (R172). At a change of the lever-neutral timestamp of an image with the busy flag: levers not
neutral turn the busy inhibit on, levers neutral start the settle timer, which ends 2000 ms after the timestamp (R158); an event of the
DISPLAY entry forms the display availability (R158). A change of the combined inhibit or of the display availability re-applies the method
to every pending id, with its sound withdrawn or placed, and then makes a pass; without such a change nothing else happens (R162; ids in
rising order: log 53; withdrawal first: log 56). A one-shot that is silenced or outranked is dropped and counted, one that finds another
playing waits if none does, and else it plays at once (R170, R172).
The model's choices here: logs 2, 7, 37, 53, 56. -/
def Obligations.NoticeAndSounderTimers : Prop :=
  (∀ (s : State) (d : Ms), s.ntc.settleTimer = some d → ∃ t, exec .settleTimerExpiry s = .next t
    ∧ t.ntc.settleTimer = none ∧ t.ntc.busyInhibit = false ∧ t.ntc.operatorInhibit = s.ntc.operatorInhibit
    ∧ t.ntc.displayAvailable = s.ntc.displayAvailable ∧ t.ntc.locals = s.ntc.locals
    ∧ t = { s.arriveAt d with ntc := t.ntc, snd := t.snd, link := t.link }
    ∧ t = (s.arriveAt d).setConditions fun n => { n with settleTimer := none, busyInhibit := false })
  ∧ (∀ s u : State, u = s.takeTimestamp →
      (s.img.notices.busyFlag = false → u = s)
      ∧ (s.img.notices.busyFlag = true → s.eco.neutralSince = none →
          u = s.setConditions fun n => { n with settleTimer := none, busyInhibit := true })
      ∧ (s.img.notices.busyFlag = true → ∀ t, s.eco.neutralSince = some t →
          (reached s.now (after t 2000) = true →
            u = s.setConditions fun n => { n with settleTimer := none, busyInhibit := false })
          ∧ (reached s.now (after t 2000) = false →
            u = s.setConditions fun n => { n with settleTimer := some (after t 2000), busyInhibit := true })))
  ∧ (∀ (s : State) (d : Ms) (e : Eco), e = { s.eco with neutralSince :=
        if s.neutral then (if s.eco.neutralSince.isSome then s.eco.neutralSince else some d) else none } →
      (e = s.eco → s.formNeutral d = s) ∧ (e ≠ s.eco → s.formNeutral d = State.takeTimestamp { s with eco := e }))
  ∧ (∀ (s : State) (e : Stream) (a c : Bool), s.cfg.node = .run → e.role = .display → s.streamEvent e a c =
      if c then s.setConditions (fun n => { n with displayAvailable := (s.streamState .display).heard }) else s)
  ∧ [StreamState.neverSeen, .fresh, .late, .stale, .recovering].map StreamState.heard = [false, true, true, false, false]
  ∧ (∀ (s u : State) (f : Ntc → Ntc), u = s.setConditions f →
      ((f s.ntc).inhibited = s.ntc.inhibited → (f s.ntc).displayAvailable = s.ntc.displayAvailable →
        u = { s with ntc := f s.ntc })
      ∧ (((f s.ntc).inhibited ≠ s.ntc.inhibited ∨ (f s.ntc).displayAvailable ≠ s.ntc.displayAvailable) →
        u = ((f s.ntc).pending.foldl State.reapply { s with ntc := f s.ntc }).pass)
      ∧ u.ntc.settleTimer = (f s.ntc).settleTimer ∧ u.ntc.busyInhibit = (f s.ntc).busyInhibit
      ∧ u.ntc.operatorInhibit = (f s.ntc).operatorInhibit ∧ u.ntc.displayAvailable = (f s.ntc).displayAvailable
      ∧ u = { s with ntc := u.ntc, snd := u.snd, link := u.link })
  ∧ (∀ n : Ntc, n.inhibited = (n.operatorInhibit || n.busyInhibit))
  ∧ (∀ s : State, NoticesOrdered s → (s.ntc.pending.foldl State.reapply s).ntc =
      { s.ntc with pending := s.ntc.pending.map fun r => { r with sound := s.ntc.pendingSound r } })
  ∧ (∀ (s u : State) (r : NoticeRecord) (p : Option Pattern), s.cfg.node = .run → u = s.reapply r →
      p = s.ntc.pendingSound r →
      (p = r.sound → u = s)
      ∧ (p ≠ r.sound → u = { s with ntc := u.ntc, snd := u.snd }
        ∧ u.ntc = { s.ntc with pending := s.ntc.pending.map fun x => if x.id = r.id then { x with sound := p } else x }
        ∧ (p = some .cadence500 → (r.id, Sustained.cadence500) ∈ u.snd.class4)
        ∧ (p = some .continuous → (r.id, Sustained.continuous) ∈ u.snd.class4)
        ∧ (p = none → ∀ x ∈ u.snd.class4, x.1 ≠ r.id)))
  ∧ (∀ (n : Ntc) (r : NoticeRecord) (m : Method),
      m = methodFor r.route n.displayAvailable n.inhibited r.escalated r.severity →
      n.pendingSound r = if m.1 then none else m.2)
  ∧ (∀ (now : Ms) (o : OneShot) (d : Snd),
      ((sndMuted d o.cls = true ∨ sndOutranked d o.cls = true) →
        sndPlaceOneShot now o d = { d with dropped := min 65535 (d.dropped + 1) })
      ∧ (sndMuted d o.cls = false → sndOutranked d o.cls = false →
        (∀ p e, d.playing = .oneShot p e → d.waiting = none → sndPlaceOneShot now o d = { d with waiting := some o })
        ∧ (∀ p e w, d.playing = .oneShot p e → d.waiting = some w →
            sndPlaceOneShot now o d = { d with dropped := min 65535 (d.dropped + 1) })
        ∧ ((∀ p e, d.playing ≠ .oneShot p e) →
            sndPlaceOneShot now o d = { d with playing := .oneShot o (after now (if o.long then 300 else 80)) }))
      ∧ (sndMuted d o.cls = true ↔ d.silence ≠ none ∧ 3 ≤ o.cls)
      ∧ (sndOutranked d o.cls = true ↔ ∃ x ∈ sndLive d, x.1 < o.cls))
  ∧ (∀ (s : State) (id : Nat) (r : NoticeRecord) (start : Ms), NoticesOrdered s → findId id s.ntc.pending = some r →
    r.escalationStart = some start → ∃ t, exec (.escalationTimerExpiry id) s = .next t
      ∧ t.now = (s.arriveAt (after start s.escalationMs)).now
      ∧ (∃ x, x ∈ t.ntc.queue ++ t.ntc.pending ∧ x.id = id ∧ x.escalated = true)
      ∧ t.ntc.locals = s.ntc.locals ∧ t.ntc.operatorInhibit = s.ntc.operatorInhibit
      ∧ t = { s.arriveAt (after start s.escalationMs) with ntc := t.ntc, snd := t.snd, link := t.link })
  ∧ (∀ (s : State) (o : OneShot) (d : Ms), s.cfg.node = .run → s.snd.playing = .oneShot o d →
    ∃ t, exec .oneShotEnd s = .next t ∧ t.snd.waiting = none
      ∧ (∀ w, s.snd.waiting = some w → sndOutranked s.snd w.cls = false →
          t.snd.playing = .oneShot w (after (s.arriveAt d).now (if w.long then 300 else 80))
          ∧ t.snd.dropped = s.snd.dropped)
      ∧ (∀ w, s.snd.waiting = some w → sndOutranked s.snd w.cls = true →
          t.snd.dropped = min 65535 (s.snd.dropped + 1)
          ∧ ∃ x, (sndLive s.snd).head? = some x ∧ ∃ e, t.snd.playing = .sustained x.1 x.2 true e)
      ∧ (s.snd.waiting = none → t.snd.dropped = s.snd.dropped
          ∧ ((sndLive s.snd).head? = none → t.snd.playing = .nothing)
          ∧ ∀ x, (sndLive s.snd).head? = some x → ∃ e, t.snd.playing = .sustained x.1 x.2 true e)
      ∧ t = { s.arriveAt d with snd := t.snd })
  ∧ (∀ (s : State) (cls : Nat) (p : Sustained) (d : Ms), s.cfg.node = .run → s.snd.playing = .sustained cls p true (some d) →
    ∃ t, exec .cadencePhaseExpiry s = .next t ∧ sndTone t.snd = none
      ∧ t.snd.playing = .sustained cls p false ((phaseLength p false).map (after d))
      ∧ t = { s.arriveAt d with snd := t.snd })
  ∧ (∀ (s : State) (cls : Nat) (p : Sustained) (d : Ms), s.cfg.node = .run → s.snd.playing = .sustained cls p false (some d) →
    ∃ t p' e, exec .cadencePhaseExpiry s = .next t ∧ t.snd.playing = .sustained cls p' true e
      ∧ sndTone t.snd = some (classTone cls)
      ∧ (∀ n T, p = .approach n → s.snd.class3 = some T → p' = .approach T ∧ e = some (after d (T / 2)))
      ∧ (p = .cadence500 → p' = .cadence500 ∧ e = some (after d 250))
      ∧ t = { s.arriveAt d with snd := t.snd })
  ∧ ∀ (s : State) (d : Ms), s.cfg.node = .run → s.snd.silence = some d →
    ∃ t, exec .silenceTimerExpiry s = .next t ∧ t.snd.silence = none ∧ t.snd.class3 = s.snd.class3
      ∧ t.snd.class4 = s.snd.class4 ∧ t = { s.arriveAt d with snd := t.snd }

/-! ## LINK -/

/-- How LINK takes an offered frame (R179 to R181, R185), and thinning, which begins as NORMAL comes to hold six frames and
ends as it comes to hold three (R181). -/
def Obligations.OfferTaken : Prop :=
  (∀ (node : NodeState) (cls : TxClass) (f : TxFrame) (l : LinkUnit),
    (takesOffer node f.kind = false → (offerFrame node cls f l).1 = l)
    ∧ (takesOffer node f.kind = true → l.thinning = true → oddSequence f = true →
        (offerFrame node cls f l).1 = { l with thinned := min 65535 (l.thinned + 1) })
    ∧ (takesOffer node f.kind = true → (l.thinning = false ∨ oddSequence f = false) →
        ((periodic cls f.kind = false ∨ ∀ g ∈ classOf l cls, g.kind ≠ f.kind) →
          ((classOf l cls).length < capacity cls → classOf (offerFrame node cls f l).1 cls = classOf l cls ++ [f]
            ∧ (offerFrame node cls f l).1.overflows = l.overflows)
          ∧ ((classOf l cls).length = capacity cls →
            (∃ before g rest, classOf l cls = before ++ g :: rest
              ∧ (∀ x ∈ before, x.current = true ∧ l.onWire = true)
              ∧ ((g.current = true → l.onWire = false) ∨ rest = [])
              ∧ classOf (offerFrame node cls f l).1 cls = before ++ rest ++ [f])
            ∧ (offerFrame node cls f l).1.overflows = min 65535 (l.overflows + 1)))
        ∧ (periodic cls f.kind = true → ∀ g, (classOf l cls).find? (fun x => x.kind == f.kind) = some g →
          (g.current = true → l.onWire = true → (offerFrame node cls f l).1 = { l with beside := some f })
          ∧ ((g.current = false ∨ l.onWire = false) →
            ∃ before rest, classOf l cls = before ++ g :: rest
              ∧ classOf (offerFrame node cls f l).1 cls = before ++ { f with current := g.current } :: rest))))
  ∧ (∀ (l : LinkUnit) (fs : List TxFrame), (setClass l .normal fs).normal = fs
      ∧ (6 ≤ fs.length → (setClass l .normal fs).thinning = true)
      ∧ (fs.length ≤ 3 → (setClass l .normal fs).thinning = false)
      ∧ (4 ≤ fs.length → fs.length ≤ 5 → (setClass l .normal fs).thinning = l.thinning))
  ∧ ∀ (node : NodeState) (f : TxFrame) (l : LinkUnit), takesOffer node f.kind = true →
      (l.thinning = false ∨ oddSequence f = false) →
      (periodic .normal f.kind = false ∨ ∀ g ∈ l.normal, g.kind ≠ f.kind) →
      (5 ≤ l.normal.length → (offerFrame node .normal f l).1.thinning = true)
      ∧ (l.normal.length ≤ 2 → (offerFrame node .normal f l).1.thinning = false)
      ∧ (3 ≤ l.normal.length → l.normal.length ≤ 4 → (offerFrame node .normal f l).1.thinning = l.thinning)

/-- The transmit commands (R179, R182 to R184): an attempt starts with the current frame when attempts are allowed; with none,
the frames past their class's age limit are discarded and counted, and the first frame of the highest-ranked class becomes
current, BACKGROUND not in RUN while SUSPECT or SILENT; a success takes the sent frame from its class, a held frame takes its
place, and the count is reset; a failure advances the count and moves the link state at 16 and 64; a lost arbitration leaves
both, and a held frame becomes current in place of the old; and the end of the hold in SILENT makes the probe. Every frame of a reply that is sent
or discarded is reported to its reply (R38, R76, R152). After a failure, a lost arbitration and the hold's end the current frame's age
is judged: past its limit it is discarded, counted and reported. That a held frame is in its place before the age is judged is the
model's choice (log 59), and so are that the reports of one selection come after all its discards, by class rank (log 57), and that 0x72 is
cleared after the report of a success and raised before the judgement of a failure (log 7). Where the link state is SILENT and a probe is due, the choice by class rank
at TRANSMIT_ATTEMPT_START is the model's choice (log 60): R184 says the first frame to become selectable.
The model's choices here: logs 2, 3, 7, 57, 58, 59, 60. -/
def Obligations.TransmitOutcomes : Prop :=
  (∀ s : State, s.mayAttempt = true → currentFrame s.link ≠ none →
    exec .transmitAttemptStart s = .next { s with link := { s.link with onWire := true, probe := false } })
  ∧ (∀ s : State, s.mayAttempt = true → currentFrame s.link = none → anySelectable s.cfg.node s.link = false →
    exec .transmitAttemptStart s = .next s)
  ∧ (∀ (s : State) (us ns bs : List TxFrame) (aged : Nat), s.mayAttempt = true → currentFrame s.link = none →
    anySelectable s.cfg.node s.link = true →
    us = s.link.urgent.filter (fun f => elapsed s.now f.queued ≤ 50) →
    ns = s.link.normal.filter (fun f => elapsed s.now f.queued ≤ 200) →
    bs = s.link.background.filter (fun f => elapsed s.now f.queued ≤ 2000) →
    aged = (s.link.urgent.length - us.length) + (s.link.normal.length - ns.length) + (s.link.background.length - bs.length) →
    ∃ t, exec .transmitAttemptStart s = .next t ∧ t.link.ageDiscards = min 65535 (s.link.ageDiscards + aged)
      ∧ t = { s with stmReply := t.stmReply, rule := t.rule, svc := t.svc, link := t.link }
      ∧ (aged = 0 → t = { s with link := t.link })
      ∧ (∀ f fs, us = f :: fs → t.link.onWire = true ∧ t.link.urgent = { f with current := true } :: fs
          ∧ t.link.normal = ns)
      ∧ (∀ f fs, us = [] → ns = f :: fs → t.link.onWire = true ∧ t.link.urgent = []
          ∧ t.link.normal = { f with current := true } :: fs)
      ∧ (∀ f fs, us = [] → ns = [] → bs = f :: fs → (∀ g ∈ s.link.urgent ++ s.link.normal, g.reply = none) →
          s.link.background.length ≤ 8 → t.link.urgent = [] ∧ t.link.normal = []
          ∧ (s.cfg.node = .run → s.link.state ≠ .active → t.link.onWire = false ∧ currentFrame t.link = none)
          ∧ (s.cfg.node ≠ .run ∨ s.link.state = .active →
              t.link.onWire = true ∧ currentFrame t.link = some (.background, { f with current := true })))
      ∧ ∃ u w : State, u = { s with link := u.link }
        ∧ u.link = { s.link with
            urgent := us, normal := ns, background := bs, thinning := u.link.thinning, ageDiscards := t.link.ageDiscards }
        ∧ w = ((s.link.urgent.filter fun f => 50 < elapsed s.now f.queued)
            ++ (s.link.normal.filter fun f => 200 < elapsed s.now f.queued)
            ++ (s.link.background.filter fun f => 2000 < elapsed s.now f.queued)).foldl
              (fun (v : State) f => v.report f.reply) u
        ∧ w.link.urgent = us ∧ w.link.normal = ns ∧ t = { w with link := t.link }
        ∧ (∀ f fs, us = f :: fs → t.link =
            { w.link with urgent := { f with current := true } :: fs, onWire := true, probe := false })
        ∧ (∀ f fs, us = [] → ns = f :: fs → t.link =
            { w.link with
              normal := { f with current := true } :: fs, thinning := t.link.thinning, onWire := true, probe := false })
        ∧ (∀ f fs, us = [] → ns = [] → w.link.background = f :: fs → (s.cfg.node = .run → s.link.state = .active) →
            t.link = { w.link with background := { f with current := true } :: fs, onWire := true, probe := false })
        ∧ (us = [] → ns = [] → (w.link.background = [] ∨ s.cfg.node = .run ∧ s.link.state ≠ .active) → t = w))
  ∧ (∀ s : State, s.mayAttempt = false → exec .transmitAttemptStart s = .next s)
  ∧ (∀ s : State, s.mayAttempt = true ↔
      (s.cfg.node = .configFault ∨ s.cfg.node = .run ∨ s.cfg.node = .store ∨ s.cfg.node = .quiet)
        ∧ s.link.onWire = false ∧ (s.link.state = .silent → s.link.probe = true))
  ∧ (∀ (node : NodeState) (l : LinkUnit), anySelectable node l = true ↔
      l.urgent ≠ [] ∨ l.normal ≠ [] ∨ l.background ≠ [] ∧ (node = .run → l.state = .active))
  ∧ (∀ s : State, s.link.onWire = true → ∃ t, exec .transmitSuccess s = .next t ∧ t.link.failures = 0
      ∧ t.link.state = .active ∧ t.link.failedAttempts = s.link.failedAttempts
      ∧ t = { s with stmReply := t.stmReply, rule := t.rule, svc := t.svc, ntc := t.ntc, snd := t.snd, link := t.link })
  ∧ (∀ (s : State) (cls : TxClass) (f : TxFrame), s.link.onWire = true → currentFrame s.link = some (cls, f) →
    ∃ u : State, u = { s with link := u.link }
      ∧ GivesPlace s.link u.link cls f (s.link.beside.map fun b => { b with current := false }).toList
      ∧ u.link = { s.link with
          urgent := u.link.urgent, normal := u.link.normal, background := u.link.background, thinning := u.link.thinning
          onWire := false, beside := none, failures := 0, state := .active, silentHold := none, probe := false }
      ∧ exec .transmitSuccess s =
          .next (if s.link.state = .active then u.report f.reply else (u.report f.reply).clearNotice 0x72)
      ∧ (s.link.state = .active → f.reply = none → exec .transmitSuccess s = .next u))
  ∧ (∀ s : State, s.link.onWire = true → ∃ t, exec .transmitFailure s = .next t
      ∧ t.link.failures = min 65535 (s.link.failures + 1)
      ∧ t.link.failedAttempts = min 65535 (s.link.failedAttempts + 1)
      ∧ (s.link.state = .active → s.link.failures + 1 < 16 → t.link.state = .active)
      ∧ (s.link.state ≠ .silent → 16 ≤ s.link.failures + 1 → s.link.failures + 1 < 64 → t.link.state = .suspect)
      ∧ ((s.link.state = .silent ∨ 64 ≤ s.link.failures + 1) → t.link.state = .silent
          ∧ t.link.silentHold = some (after s.now 1000) ∧ t.link.onWire = false)
      ∧ t = { s with stmReply := t.stmReply, rule := t.rule, svc := t.svc, ntc := t.ntc, snd := t.snd, link := t.link }
      ∧ ∃ v u : State, v = { s with link := v.link } ∧ v.link.onWire = false ∧ v.link.beside = none
        ∧ v.link.ageDiscards = s.link.ageDiscards
        ∧ (s.link.beside = none → ∀ c, classOf v.link c = classOf s.link c)
        ∧ (∀ x h, currentFrame s.link = some x → s.link.beside = some h →
            GivesPlace s.link v.link x.1 x.2 [{ h with current := true }])
        ∧ u = (if s.link.state = .active ∧ 16 ≤ s.link.failures + 1 ∧ s.link.failures + 1 < 64 then
            v.raiseNotice 0x72 none .linkSuspect else v)
        ∧ t = u.judgeCurrent)
  ∧ (∀ s : State, s.link.onWire = true → ∃ t, exec .arbitrationLost s = .next t ∧ t.link.failures = s.link.failures
      ∧ t.link.state = s.link.state ∧ t.link.failedAttempts = s.link.failedAttempts
      ∧ (s.link.state = .silent → t.link.probe = true)
      ∧ (∀ x h, currentFrame s.link = some x → s.link.beside = some h → elapsed s.now h.queued ≤ ageLimit x.1 →
          currentFrame t.link = some (x.1, { h with current := true }) ∧ t.link.beside = none)
      ∧ (∀ x, currentFrame s.link = some x → s.link.beside = none → elapsed s.now x.2.queued ≤ ageLimit x.1 →
          currentFrame t.link = some x ∧ t.link.ageDiscards = s.link.ageDiscards)
      ∧ t = { s with stmReply := t.stmReply, rule := t.rule, svc := t.svc, link := t.link }
      ∧ ∃ v : State, v = { s with link := v.link } ∧ v.link.onWire = false ∧ v.link.beside = none
        ∧ v.link.ageDiscards = s.link.ageDiscards
        ∧ (s.link.beside = none → ∀ c, classOf v.link c = classOf s.link c)
        ∧ (∀ x h, currentFrame s.link = some x → s.link.beside = some h →
            GivesPlace s.link v.link x.1 x.2 [{ h with current := true }])
        ∧ t = v.judgeCurrent)
  ∧ (∀ s : State, (currentFrame s.link = none → s.judgeCurrent = s)
      ∧ ∀ x, currentFrame s.link = some x →
        (elapsed s.now x.2.queued ≤ ageLimit x.1 → s.judgeCurrent = s)
        ∧ (ageLimit x.1 < elapsed s.now x.2.queued → ∃ u : State, u = { s with link := u.link }
            ∧ GivesPlace s.link u.link x.1 x.2 []
            ∧ u.link = { s.link with
                urgent := u.link.urgent, normal := u.link.normal, background := u.link.background
                thinning := u.link.thinning, ageDiscards := min 65535 (s.link.ageDiscards + 1) }
            ∧ s.judgeCurrent = u.report x.2.reply))
  ∧ [TxClass.urgent, .normal, .background].map ageLimit = [50, 200, 2000]
  ∧ (∀ (s : State) (d : Ms), s.link.silentHold = some d → exec .silentHoldExpiry s = exec .transmitAttemptStart
      (State.judgeCurrent { s.arriveAt d with link := { s.link with silentHold := none, probe := true } }))
  ∧ ∀ (s : State) (d : Ms) (x : TxClass × TxFrame), s.link.silentHold = some d → attemptsIn s.cfg.node = true →
      s.link.onWire = false → currentFrame s.link = some x → elapsed (s.arriveAt d).now x.2.queued ≤ ageLimit x.1 →
      exec .silentHoldExpiry s = .next { s.arriveAt d with
        link := { s.link with silentHold := none, onWire := true, probe := false } }

/-! ## Laws kept by every step -/

/-- Every law holds right after reset.
The model's choices here: logs 12, 13. -/
def Obligations.LawsHoldAtReset : Prop :=
  LinkBounded State.reset ∧ ValvesRest State.reset ∧ PinsFollowDuty State.reset ∧ UnitsRest State.reset
    ∧ HoldsBounded State.reset ∧ NoticesOrdered State.reset ∧ CountsInBand State.reset ∧ FuelInRange State.reset
    ∧ SettingsSound State.reset ∧ WinnerStands State.reset ∧ DutiesBounded State.reset ∧ SounderRanked State.reset
    ∧ TransmitterSound State.reset

/-- No step lets a transmit class or the receive queue exceed its capacity (R176, R180). -/
def Obligations.StepKeepsLinkBounded : Prop :=
  ∀ s t : State, LinkBounded s → step s = .next t → LinkBounded t

/-- Every step keeps each valve output low outside RUN, and in RUN high only in a used channel, within its adopted duty: the
counter has not passed it (R97, R102, R103, R109). -/
def Obligations.StepKeepsValvesSafe : Prop :=
  ∀ s t : State, ValvesRest s → PinsFollowDuty s → step s = .next t → ValvesRest t ∧ PinsFollowDuty t

/-- Every step keeps the other blocks at rest outside RUN (R19, R79, R94, R136, R154, R167, R173). -/
def Obligations.StepKeepsUnitsRest : Prop :=
  ∀ s t : State, UnitsRest s → step s = .next t → UnitsRest t

/-- Every step keeps the bounds of the hold table (R82), with the Tmax of the image held at least 100 (R81). -/
def Obligations.StepKeepsHoldsBounded : Prop :=
  ∀ s t : State, HoldsBounded s → step s = .next t → HoldsBounded t

/-- Every step keeps the notices apart and the queue in order, with at most eight entries (R161).
The model's choices here: logs 17, 29. -/
def Obligations.StepKeepsNoticesOrdered : Prop :=
  ∀ s t : State, NoticesOrdered s → step s = .next t → NoticesOrdered t

/-- Every step keeps the weighted count between four and twelve times the engine seconds (R137), and the fuel and gap
remainders in range (R132, R133). -/
def Obligations.StepKeepsCounts : Prop :=
  (∀ s t : State, CountsInBand s → step s = .next t → CountsInBand t)
  ∧ ∀ s t : State, FuelInRange s → step s = .next t → FuelInRange t

/-- Every step keeps the operator settings in their ranges, the grade slope in the image's and the reference reach and slew
limits in 16 bits among them, and the two separations (R41, R42, R48). -/
def Obligations.StepKeepsSettingsLegal : Prop :=
  ∀ s t : State, SettingsSound s → step s = .next t → SettingsSound t

/-- Every step keeps one winner in RUN, that of the held key, and no hit counter above 65535 (R70). -/
def Obligations.StepKeepsWinner : Prop :=
  ∀ s t : State, WinnerStands s → step s = .next t → WinnerStands t

/-- Every step keeps the adopted duty of a used channel between its target duty and its modulus (R102). That the blocks are at rest
outside RUN, which every step keeps too (`Obligations.StepKeepsUnitsRest`), rules out a state in which the pose timer runs there. -/
def Obligations.StepKeepsDutiesBounded : Prop :=
  ∀ s t : State, UnitsRest s → DutiesBounded s → step s = .next t → DutiesBounded t

/-- Every step keeps the sounder playing what its rank gives it, and no muted one-shot waiting (R170 to R172). -/
def Obligations.StepKeepsSounderRanked : Prop :=
  ∀ s t : State, SounderRanked s → step s = .next t → SounderRanked t

/-- Every step keeps the transmitter sound: one current frame, no class with two unsent frames of one periodic kind, and
thinning on with six frames in NORMAL and off with three (R180 to R182). -/
def Obligations.StepKeepsTransmitterSound : Prop :=
  ∀ s t : State, TransmitterSound s → step s = .next t → TransmitterSound t

end
end

