-- ==== Sys2Proof/Laws/State.lean ====
section
/-! SUPPORT. One lemma per field per update of State, true by rfl, so that no proof unfolds an update; and the fields of a
state that has arrived at an instant. -/

namespace Sys2Proof.Machine

/-! ## onCfg -/

@[simp] theorem onCfg_pending (s : State) f : (s.onCfg f).pending = s.pending := rfl
@[simp] theorem onCfg_freeCount (s : State) f : (s.onCfg f).freeCount = s.freeCount := rfl
@[simp] theorem onCfg_now (s : State) f : (s.onCfg f).now = s.now := rfl
@[simp] theorem onCfg_micros (s : State) f : (s.onCfg f).micros = s.micros := rfl
@[simp] theorem onCfg_cfg (s : State) f : (s.onCfg f).cfg = f s.cfg := rfl
@[simp] theorem onCfg_image (s : State) f : (s.onCfg f).image = s.image := rfl
@[simp] theorem onCfg_pose (s : State) f : (s.onCfg f).pose = s.pose := rfl
@[simp] theorem onCfg_streams (s : State) f : (s.onCfg f).streams = s.streams := rfl
@[simp] theorem onCfg_stmReply (s : State) f : (s.onCfg f).stmReply = s.stmReply := rfl
@[simp] theorem onCfg_lim (s : State) f : (s.onCfg f).lim = s.lim := rfl
@[simp] theorem onCfg_rule (s : State) f : (s.onCfg f).rule = s.rule := rfl
@[simp] theorem onCfg_hold (s : State) f : (s.onCfg f).hold = s.hold := rfl
@[simp] theorem onCfg_vch (s : State) f : (s.onCfg f).vch = s.vch := rfl
@[simp] theorem onCfg_eco (s : State) f : (s.onCfg f).eco = s.eco := rfl
@[simp] theorem onCfg_svc (s : State) f : (s.onCfg f).svc = s.svc := rfl
@[simp] theorem onCfg_ntc (s : State) f : (s.onCfg f).ntc = s.ntc := rfl
@[simp] theorem onCfg_snd (s : State) f : (s.onCfg f).snd = s.snd := rfl
@[simp] theorem onCfg_link (s : State) f : (s.onCfg f).link = s.link := rfl

/-! ## onPose -/

@[simp] theorem onPose_pending (s : State) f : (s.onPose f).pending = s.pending := rfl
@[simp] theorem onPose_freeCount (s : State) f : (s.onPose f).freeCount = s.freeCount := rfl
@[simp] theorem onPose_now (s : State) f : (s.onPose f).now = s.now := rfl
@[simp] theorem onPose_micros (s : State) f : (s.onPose f).micros = s.micros := rfl
@[simp] theorem onPose_cfg (s : State) f : (s.onPose f).cfg = s.cfg := rfl
@[simp] theorem onPose_image (s : State) f : (s.onPose f).image = s.image := rfl
@[simp] theorem onPose_pose (s : State) f : (s.onPose f).pose = f s.pose := rfl
@[simp] theorem onPose_streams (s : State) f : (s.onPose f).streams = s.streams := rfl
@[simp] theorem onPose_stmReply (s : State) f : (s.onPose f).stmReply = s.stmReply := rfl
@[simp] theorem onPose_lim (s : State) f : (s.onPose f).lim = s.lim := rfl
@[simp] theorem onPose_rule (s : State) f : (s.onPose f).rule = s.rule := rfl
@[simp] theorem onPose_hold (s : State) f : (s.onPose f).hold = s.hold := rfl
@[simp] theorem onPose_vch (s : State) f : (s.onPose f).vch = s.vch := rfl
@[simp] theorem onPose_eco (s : State) f : (s.onPose f).eco = s.eco := rfl
@[simp] theorem onPose_svc (s : State) f : (s.onPose f).svc = s.svc := rfl
@[simp] theorem onPose_ntc (s : State) f : (s.onPose f).ntc = s.ntc := rfl
@[simp] theorem onPose_snd (s : State) f : (s.onPose f).snd = s.snd := rfl
@[simp] theorem onPose_link (s : State) f : (s.onPose f).link = s.link := rfl

/-! ## onStreams -/

@[simp] theorem onStreams_pending (s : State) f : (s.onStreams f).pending = s.pending := rfl
@[simp] theorem onStreams_freeCount (s : State) f : (s.onStreams f).freeCount = s.freeCount := rfl
@[simp] theorem onStreams_now (s : State) f : (s.onStreams f).now = s.now := rfl
@[simp] theorem onStreams_micros (s : State) f : (s.onStreams f).micros = s.micros := rfl
@[simp] theorem onStreams_cfg (s : State) f : (s.onStreams f).cfg = s.cfg := rfl
@[simp] theorem onStreams_image (s : State) f : (s.onStreams f).image = s.image := rfl
@[simp] theorem onStreams_pose (s : State) f : (s.onStreams f).pose = s.pose := rfl
@[simp] theorem onStreams_streams (s : State) f : (s.onStreams f).streams = f s.streams := rfl
@[simp] theorem onStreams_stmReply (s : State) f : (s.onStreams f).stmReply = s.stmReply := rfl
@[simp] theorem onStreams_lim (s : State) f : (s.onStreams f).lim = s.lim := rfl
@[simp] theorem onStreams_rule (s : State) f : (s.onStreams f).rule = s.rule := rfl
@[simp] theorem onStreams_hold (s : State) f : (s.onStreams f).hold = s.hold := rfl
@[simp] theorem onStreams_vch (s : State) f : (s.onStreams f).vch = s.vch := rfl
@[simp] theorem onStreams_eco (s : State) f : (s.onStreams f).eco = s.eco := rfl
@[simp] theorem onStreams_svc (s : State) f : (s.onStreams f).svc = s.svc := rfl
@[simp] theorem onStreams_ntc (s : State) f : (s.onStreams f).ntc = s.ntc := rfl
@[simp] theorem onStreams_snd (s : State) f : (s.onStreams f).snd = s.snd := rfl
@[simp] theorem onStreams_link (s : State) f : (s.onStreams f).link = s.link := rfl

/-! ## onLim -/

@[simp] theorem onLim_pending (s : State) f : (s.onLim f).pending = s.pending := rfl
@[simp] theorem onLim_freeCount (s : State) f : (s.onLim f).freeCount = s.freeCount := rfl
@[simp] theorem onLim_now (s : State) f : (s.onLim f).now = s.now := rfl
@[simp] theorem onLim_micros (s : State) f : (s.onLim f).micros = s.micros := rfl
@[simp] theorem onLim_cfg (s : State) f : (s.onLim f).cfg = s.cfg := rfl
@[simp] theorem onLim_image (s : State) f : (s.onLim f).image = s.image := rfl
@[simp] theorem onLim_pose (s : State) f : (s.onLim f).pose = s.pose := rfl
@[simp] theorem onLim_streams (s : State) f : (s.onLim f).streams = s.streams := rfl
@[simp] theorem onLim_stmReply (s : State) f : (s.onLim f).stmReply = s.stmReply := rfl
@[simp] theorem onLim_lim (s : State) f : (s.onLim f).lim = f s.lim := rfl
@[simp] theorem onLim_rule (s : State) f : (s.onLim f).rule = s.rule := rfl
@[simp] theorem onLim_hold (s : State) f : (s.onLim f).hold = s.hold := rfl
@[simp] theorem onLim_vch (s : State) f : (s.onLim f).vch = s.vch := rfl
@[simp] theorem onLim_eco (s : State) f : (s.onLim f).eco = s.eco := rfl
@[simp] theorem onLim_svc (s : State) f : (s.onLim f).svc = s.svc := rfl
@[simp] theorem onLim_ntc (s : State) f : (s.onLim f).ntc = s.ntc := rfl
@[simp] theorem onLim_snd (s : State) f : (s.onLim f).snd = s.snd := rfl
@[simp] theorem onLim_link (s : State) f : (s.onLim f).link = s.link := rfl

/-! ## onRule -/

@[simp] theorem onRule_pending (s : State) f : (s.onRule f).pending = s.pending := rfl
@[simp] theorem onRule_freeCount (s : State) f : (s.onRule f).freeCount = s.freeCount := rfl
@[simp] theorem onRule_now (s : State) f : (s.onRule f).now = s.now := rfl
@[simp] theorem onRule_micros (s : State) f : (s.onRule f).micros = s.micros := rfl
@[simp] theorem onRule_cfg (s : State) f : (s.onRule f).cfg = s.cfg := rfl
@[simp] theorem onRule_image (s : State) f : (s.onRule f).image = s.image := rfl
@[simp] theorem onRule_pose (s : State) f : (s.onRule f).pose = s.pose := rfl
@[simp] theorem onRule_streams (s : State) f : (s.onRule f).streams = s.streams := rfl
@[simp] theorem onRule_stmReply (s : State) f : (s.onRule f).stmReply = s.stmReply := rfl
@[simp] theorem onRule_lim (s : State) f : (s.onRule f).lim = s.lim := rfl
@[simp] theorem onRule_rule (s : State) f : (s.onRule f).rule = f s.rule := rfl
@[simp] theorem onRule_hold (s : State) f : (s.onRule f).hold = s.hold := rfl
@[simp] theorem onRule_vch (s : State) f : (s.onRule f).vch = s.vch := rfl
@[simp] theorem onRule_eco (s : State) f : (s.onRule f).eco = s.eco := rfl
@[simp] theorem onRule_svc (s : State) f : (s.onRule f).svc = s.svc := rfl
@[simp] theorem onRule_ntc (s : State) f : (s.onRule f).ntc = s.ntc := rfl
@[simp] theorem onRule_snd (s : State) f : (s.onRule f).snd = s.snd := rfl
@[simp] theorem onRule_link (s : State) f : (s.onRule f).link = s.link := rfl

/-! ## onHold -/

@[simp] theorem onHold_pending (s : State) f : (s.onHold f).pending = s.pending := rfl
@[simp] theorem onHold_freeCount (s : State) f : (s.onHold f).freeCount = s.freeCount := rfl
@[simp] theorem onHold_now (s : State) f : (s.onHold f).now = s.now := rfl
@[simp] theorem onHold_micros (s : State) f : (s.onHold f).micros = s.micros := rfl
@[simp] theorem onHold_cfg (s : State) f : (s.onHold f).cfg = s.cfg := rfl
@[simp] theorem onHold_image (s : State) f : (s.onHold f).image = s.image := rfl
@[simp] theorem onHold_pose (s : State) f : (s.onHold f).pose = s.pose := rfl
@[simp] theorem onHold_streams (s : State) f : (s.onHold f).streams = s.streams := rfl
@[simp] theorem onHold_stmReply (s : State) f : (s.onHold f).stmReply = s.stmReply := rfl
@[simp] theorem onHold_lim (s : State) f : (s.onHold f).lim = s.lim := rfl
@[simp] theorem onHold_rule (s : State) f : (s.onHold f).rule = s.rule := rfl
@[simp] theorem onHold_hold (s : State) f : (s.onHold f).hold = f s.hold := rfl
@[simp] theorem onHold_vch (s : State) f : (s.onHold f).vch = s.vch := rfl
@[simp] theorem onHold_eco (s : State) f : (s.onHold f).eco = s.eco := rfl
@[simp] theorem onHold_svc (s : State) f : (s.onHold f).svc = s.svc := rfl
@[simp] theorem onHold_ntc (s : State) f : (s.onHold f).ntc = s.ntc := rfl
@[simp] theorem onHold_snd (s : State) f : (s.onHold f).snd = s.snd := rfl
@[simp] theorem onHold_link (s : State) f : (s.onHold f).link = s.link := rfl

/-! ## onVch -/

@[simp] theorem onVch_pending (s : State) f : (s.onVch f).pending = s.pending := rfl
@[simp] theorem onVch_freeCount (s : State) f : (s.onVch f).freeCount = s.freeCount := rfl
@[simp] theorem onVch_now (s : State) f : (s.onVch f).now = s.now := rfl
@[simp] theorem onVch_micros (s : State) f : (s.onVch f).micros = s.micros := rfl
@[simp] theorem onVch_cfg (s : State) f : (s.onVch f).cfg = s.cfg := rfl
@[simp] theorem onVch_image (s : State) f : (s.onVch f).image = s.image := rfl
@[simp] theorem onVch_pose (s : State) f : (s.onVch f).pose = s.pose := rfl
@[simp] theorem onVch_streams (s : State) f : (s.onVch f).streams = s.streams := rfl
@[simp] theorem onVch_stmReply (s : State) f : (s.onVch f).stmReply = s.stmReply := rfl
@[simp] theorem onVch_lim (s : State) f : (s.onVch f).lim = s.lim := rfl
@[simp] theorem onVch_rule (s : State) f : (s.onVch f).rule = s.rule := rfl
@[simp] theorem onVch_hold (s : State) f : (s.onVch f).hold = s.hold := rfl
@[simp] theorem onVch_vch (s : State) f : (s.onVch f).vch = f s.vch := rfl
@[simp] theorem onVch_eco (s : State) f : (s.onVch f).eco = s.eco := rfl
@[simp] theorem onVch_svc (s : State) f : (s.onVch f).svc = s.svc := rfl
@[simp] theorem onVch_ntc (s : State) f : (s.onVch f).ntc = s.ntc := rfl
@[simp] theorem onVch_snd (s : State) f : (s.onVch f).snd = s.snd := rfl
@[simp] theorem onVch_link (s : State) f : (s.onVch f).link = s.link := rfl

/-! ## onEco -/

@[simp] theorem onEco_pending (s : State) f : (s.onEco f).pending = s.pending := rfl
@[simp] theorem onEco_freeCount (s : State) f : (s.onEco f).freeCount = s.freeCount := rfl
@[simp] theorem onEco_now (s : State) f : (s.onEco f).now = s.now := rfl
@[simp] theorem onEco_micros (s : State) f : (s.onEco f).micros = s.micros := rfl
@[simp] theorem onEco_cfg (s : State) f : (s.onEco f).cfg = s.cfg := rfl
@[simp] theorem onEco_image (s : State) f : (s.onEco f).image = s.image := rfl
@[simp] theorem onEco_pose (s : State) f : (s.onEco f).pose = s.pose := rfl
@[simp] theorem onEco_streams (s : State) f : (s.onEco f).streams = s.streams := rfl
@[simp] theorem onEco_stmReply (s : State) f : (s.onEco f).stmReply = s.stmReply := rfl
@[simp] theorem onEco_lim (s : State) f : (s.onEco f).lim = s.lim := rfl
@[simp] theorem onEco_rule (s : State) f : (s.onEco f).rule = s.rule := rfl
@[simp] theorem onEco_hold (s : State) f : (s.onEco f).hold = s.hold := rfl
@[simp] theorem onEco_vch (s : State) f : (s.onEco f).vch = s.vch := rfl
@[simp] theorem onEco_eco (s : State) f : (s.onEco f).eco = f s.eco := rfl
@[simp] theorem onEco_svc (s : State) f : (s.onEco f).svc = s.svc := rfl
@[simp] theorem onEco_ntc (s : State) f : (s.onEco f).ntc = s.ntc := rfl
@[simp] theorem onEco_snd (s : State) f : (s.onEco f).snd = s.snd := rfl
@[simp] theorem onEco_link (s : State) f : (s.onEco f).link = s.link := rfl

/-! ## onSvc -/

@[simp] theorem onSvc_pending (s : State) f : (s.onSvc f).pending = s.pending := rfl
@[simp] theorem onSvc_freeCount (s : State) f : (s.onSvc f).freeCount = s.freeCount := rfl
@[simp] theorem onSvc_now (s : State) f : (s.onSvc f).now = s.now := rfl
@[simp] theorem onSvc_micros (s : State) f : (s.onSvc f).micros = s.micros := rfl
@[simp] theorem onSvc_cfg (s : State) f : (s.onSvc f).cfg = s.cfg := rfl
@[simp] theorem onSvc_image (s : State) f : (s.onSvc f).image = s.image := rfl
@[simp] theorem onSvc_pose (s : State) f : (s.onSvc f).pose = s.pose := rfl
@[simp] theorem onSvc_streams (s : State) f : (s.onSvc f).streams = s.streams := rfl
@[simp] theorem onSvc_stmReply (s : State) f : (s.onSvc f).stmReply = s.stmReply := rfl
@[simp] theorem onSvc_lim (s : State) f : (s.onSvc f).lim = s.lim := rfl
@[simp] theorem onSvc_rule (s : State) f : (s.onSvc f).rule = s.rule := rfl
@[simp] theorem onSvc_hold (s : State) f : (s.onSvc f).hold = s.hold := rfl
@[simp] theorem onSvc_vch (s : State) f : (s.onSvc f).vch = s.vch := rfl
@[simp] theorem onSvc_eco (s : State) f : (s.onSvc f).eco = s.eco := rfl
@[simp] theorem onSvc_svc (s : State) f : (s.onSvc f).svc = f s.svc := rfl
@[simp] theorem onSvc_ntc (s : State) f : (s.onSvc f).ntc = s.ntc := rfl
@[simp] theorem onSvc_snd (s : State) f : (s.onSvc f).snd = s.snd := rfl
@[simp] theorem onSvc_link (s : State) f : (s.onSvc f).link = s.link := rfl

/-! ## onNtc -/

@[simp] theorem onNtc_pending (s : State) f : (s.onNtc f).pending = s.pending := rfl
@[simp] theorem onNtc_freeCount (s : State) f : (s.onNtc f).freeCount = s.freeCount := rfl
@[simp] theorem onNtc_now (s : State) f : (s.onNtc f).now = s.now := rfl
@[simp] theorem onNtc_micros (s : State) f : (s.onNtc f).micros = s.micros := rfl
@[simp] theorem onNtc_cfg (s : State) f : (s.onNtc f).cfg = s.cfg := rfl
@[simp] theorem onNtc_image (s : State) f : (s.onNtc f).image = s.image := rfl
@[simp] theorem onNtc_pose (s : State) f : (s.onNtc f).pose = s.pose := rfl
@[simp] theorem onNtc_streams (s : State) f : (s.onNtc f).streams = s.streams := rfl
@[simp] theorem onNtc_stmReply (s : State) f : (s.onNtc f).stmReply = s.stmReply := rfl
@[simp] theorem onNtc_lim (s : State) f : (s.onNtc f).lim = s.lim := rfl
@[simp] theorem onNtc_rule (s : State) f : (s.onNtc f).rule = s.rule := rfl
@[simp] theorem onNtc_hold (s : State) f : (s.onNtc f).hold = s.hold := rfl
@[simp] theorem onNtc_vch (s : State) f : (s.onNtc f).vch = s.vch := rfl
@[simp] theorem onNtc_eco (s : State) f : (s.onNtc f).eco = s.eco := rfl
@[simp] theorem onNtc_svc (s : State) f : (s.onNtc f).svc = s.svc := rfl
@[simp] theorem onNtc_ntc (s : State) f : (s.onNtc f).ntc = f s.ntc := rfl
@[simp] theorem onNtc_snd (s : State) f : (s.onNtc f).snd = s.snd := rfl
@[simp] theorem onNtc_link (s : State) f : (s.onNtc f).link = s.link := rfl

/-! ## onSnd -/

@[simp] theorem onSnd_pending (s : State) f : (s.onSnd f).pending = s.pending := rfl
@[simp] theorem onSnd_freeCount (s : State) f : (s.onSnd f).freeCount = s.freeCount := rfl
@[simp] theorem onSnd_now (s : State) f : (s.onSnd f).now = s.now := rfl
@[simp] theorem onSnd_micros (s : State) f : (s.onSnd f).micros = s.micros := rfl
@[simp] theorem onSnd_cfg (s : State) f : (s.onSnd f).cfg = s.cfg := rfl
@[simp] theorem onSnd_image (s : State) f : (s.onSnd f).image = s.image := rfl
@[simp] theorem onSnd_pose (s : State) f : (s.onSnd f).pose = s.pose := rfl
@[simp] theorem onSnd_streams (s : State) f : (s.onSnd f).streams = s.streams := rfl
@[simp] theorem onSnd_stmReply (s : State) f : (s.onSnd f).stmReply = s.stmReply := rfl
@[simp] theorem onSnd_lim (s : State) f : (s.onSnd f).lim = s.lim := rfl
@[simp] theorem onSnd_rule (s : State) f : (s.onSnd f).rule = s.rule := rfl
@[simp] theorem onSnd_hold (s : State) f : (s.onSnd f).hold = s.hold := rfl
@[simp] theorem onSnd_vch (s : State) f : (s.onSnd f).vch = s.vch := rfl
@[simp] theorem onSnd_eco (s : State) f : (s.onSnd f).eco = s.eco := rfl
@[simp] theorem onSnd_svc (s : State) f : (s.onSnd f).svc = s.svc := rfl
@[simp] theorem onSnd_ntc (s : State) f : (s.onSnd f).ntc = s.ntc := rfl
@[simp] theorem onSnd_snd (s : State) f : (s.onSnd f).snd = f s.snd := rfl
@[simp] theorem onSnd_link (s : State) f : (s.onSnd f).link = s.link := rfl

/-! ## onLink -/

@[simp] theorem onLink_pending (s : State) f : (s.onLink f).pending = s.pending := rfl
@[simp] theorem onLink_freeCount (s : State) f : (s.onLink f).freeCount = s.freeCount := rfl
@[simp] theorem onLink_now (s : State) f : (s.onLink f).now = s.now := rfl
@[simp] theorem onLink_micros (s : State) f : (s.onLink f).micros = s.micros := rfl
@[simp] theorem onLink_cfg (s : State) f : (s.onLink f).cfg = s.cfg := rfl
@[simp] theorem onLink_image (s : State) f : (s.onLink f).image = s.image := rfl
@[simp] theorem onLink_pose (s : State) f : (s.onLink f).pose = s.pose := rfl
@[simp] theorem onLink_streams (s : State) f : (s.onLink f).streams = s.streams := rfl
@[simp] theorem onLink_stmReply (s : State) f : (s.onLink f).stmReply = s.stmReply := rfl
@[simp] theorem onLink_lim (s : State) f : (s.onLink f).lim = s.lim := rfl
@[simp] theorem onLink_rule (s : State) f : (s.onLink f).rule = s.rule := rfl
@[simp] theorem onLink_hold (s : State) f : (s.onLink f).hold = s.hold := rfl
@[simp] theorem onLink_vch (s : State) f : (s.onLink f).vch = s.vch := rfl
@[simp] theorem onLink_eco (s : State) f : (s.onLink f).eco = s.eco := rfl
@[simp] theorem onLink_svc (s : State) f : (s.onLink f).svc = s.svc := rfl
@[simp] theorem onLink_ntc (s : State) f : (s.onLink f).ntc = s.ntc := rfl
@[simp] theorem onLink_snd (s : State) f : (s.onLink f).snd = s.snd := rfl
@[simp] theorem onLink_link (s : State) f : (s.onLink f).link = f s.link := rfl

/-! ## arriveAt -/

@[simp] theorem arriveAt_pending (s : State) (d : Ms) : (s.arriveAt d).pending = s.pending := by
  unfold State.arriveAt; split <;> rfl
@[simp] theorem arriveAt_freeCount (s : State) (d : Ms) : (s.arriveAt d).freeCount = s.freeCount := by
  unfold State.arriveAt; split <;> rfl
@[simp] theorem arriveAt_cfg (s : State) (d : Ms) : (s.arriveAt d).cfg = s.cfg := by
  unfold State.arriveAt; split <;> rfl
@[simp] theorem arriveAt_image (s : State) (d : Ms) : (s.arriveAt d).image = s.image := by
  unfold State.arriveAt; split <;> rfl
@[simp] theorem arriveAt_pose (s : State) (d : Ms) : (s.arriveAt d).pose = s.pose := by
  unfold State.arriveAt; split <;> rfl
@[simp] theorem arriveAt_streams (s : State) (d : Ms) : (s.arriveAt d).streams = s.streams := by
  unfold State.arriveAt; split <;> rfl
@[simp] theorem arriveAt_stmReply (s : State) (d : Ms) : (s.arriveAt d).stmReply = s.stmReply := by
  unfold State.arriveAt; split <;> rfl
@[simp] theorem arriveAt_lim (s : State) (d : Ms) : (s.arriveAt d).lim = s.lim := by
  unfold State.arriveAt; split <;> rfl
@[simp] theorem arriveAt_rule (s : State) (d : Ms) : (s.arriveAt d).rule = s.rule := by
  unfold State.arriveAt; split <;> rfl
@[simp] theorem arriveAt_hold (s : State) (d : Ms) : (s.arriveAt d).hold = s.hold := by
  unfold State.arriveAt; split <;> rfl
@[simp] theorem arriveAt_vch (s : State) (d : Ms) : (s.arriveAt d).vch = s.vch := by
  unfold State.arriveAt; split <;> rfl
@[simp] theorem arriveAt_eco (s : State) (d : Ms) : (s.arriveAt d).eco = s.eco := by
  unfold State.arriveAt; split <;> rfl
@[simp] theorem arriveAt_svc (s : State) (d : Ms) : (s.arriveAt d).svc = s.svc := by
  unfold State.arriveAt; split <;> rfl
@[simp] theorem arriveAt_ntc (s : State) (d : Ms) : (s.arriveAt d).ntc = s.ntc := by
  unfold State.arriveAt; split <;> rfl
@[simp] theorem arriveAt_snd (s : State) (d : Ms) : (s.arriveAt d).snd = s.snd := by
  unfold State.arriveAt; split <;> rfl
@[simp] theorem arriveAt_link (s : State) (d : Ms) : (s.arriveAt d).link = s.link := by
  unfold State.arriveAt; split <;> rfl

/-! ## The blocks as the image and node state give them -/

theorem inRun_iff (s : State) : s.inRun = true ↔ s.cfg.node = .run := by
  simp [State.inRun]

end Sys2Proof.Machine
end

