-- ==== Sys2Proof/Laws/Touches.lean ====
section
/-! SUPPORT. What an operation can touch: `Touches b s t` says that `t` differs from `s` in the blocks of `b` alone. One
lemma per shared operation names its blocks; a proof that needs an untouched block cites the lemma and unfolds nothing. -/

namespace Sys2Proof.Machine

/-- A set of blocks of State. `now` stands for the time base and its microseconds. -/
structure Blocks where
  pending : Bool := false
  freeCount : Bool := false
  now : Bool := false
  cfg : Bool := false
  image : Bool := false
  pose : Bool := false
  streams : Bool := false
  stmReply : Bool := false
  lim : Bool := false
  rule : Bool := false
  hold : Bool := false
  vch : Bool := false
  eco : Bool := false
  svc : Bool := false
  ntc : Bool := false
  snd : Bool := false
  link : Bool := false

/-- The union of two sets of blocks. -/
def Blocks.or (a b : Blocks) : Blocks where
  pending := a.pending || b.pending
  freeCount := a.freeCount || b.freeCount
  now := a.now || b.now
  cfg := a.cfg || b.cfg
  image := a.image || b.image
  pose := a.pose || b.pose
  streams := a.streams || b.streams
  stmReply := a.stmReply || b.stmReply
  lim := a.lim || b.lim
  rule := a.rule || b.rule
  hold := a.hold || b.hold
  vch := a.vch || b.vch
  eco := a.eco || b.eco
  svc := a.svc || b.svc
  ntc := a.ntc || b.ntc
  snd := a.snd || b.snd
  link := a.link || b.link

/-- One set of blocks lies in another. -/
def Blocks.le (a b : Blocks) : Bool :=
  (!a.pending || b.pending)
    && (!a.freeCount || b.freeCount)
    && (!a.now || b.now)
    && (!a.cfg || b.cfg)
    && (!a.image || b.image)
    && (!a.pose || b.pose)
    && (!a.streams || b.streams)
    && (!a.stmReply || b.stmReply)
    && (!a.lim || b.lim)
    && (!a.rule || b.rule)
    && (!a.hold || b.hold)
    && (!a.vch || b.vch)
    && (!a.eco || b.eco)
    && (!a.svc || b.svc)
    && (!a.ntc || b.ntc)
    && (!a.snd || b.snd)
    && (!a.link || b.link)

/-- `t` differs from `s` in the blocks of `b` alone. -/
structure Touches (b : Blocks) (s t : State) : Prop where
  pending : b.pending = false → t.pending = s.pending
  freeCount : b.freeCount = false → t.freeCount = s.freeCount
  now : b.now = false → t.now = s.now
  micros : b.now = false → t.micros = s.micros
  cfg : b.cfg = false → t.cfg = s.cfg
  image : b.image = false → t.image = s.image
  pose : b.pose = false → t.pose = s.pose
  streams : b.streams = false → t.streams = s.streams
  stmReply : b.stmReply = false → t.stmReply = s.stmReply
  lim : b.lim = false → t.lim = s.lim
  rule : b.rule = false → t.rule = s.rule
  hold : b.hold = false → t.hold = s.hold
  vch : b.vch = false → t.vch = s.vch
  eco : b.eco = false → t.eco = s.eco
  svc : b.svc = false → t.svc = s.svc
  ntc : b.ntc = false → t.ntc = s.ntc
  snd : b.snd = false → t.snd = s.snd
  link : b.link = false → t.link = s.link

namespace Touches

theorem refl (b : Blocks) (s : State) : Touches b s s := by
  constructor <;> (intro _; rfl)

theorem trans {b : Blocks} {s t u : State} (h : Touches b s t) (k : Touches b t u) : Touches b s u := by
  constructor
  · intro e; rw [k.pending e, h.pending e]
  · intro e; rw [k.freeCount e, h.freeCount e]
  · intro e; rw [k.now e, h.now e]
  · intro e; rw [k.micros e, h.micros e]
  · intro e; rw [k.cfg e, h.cfg e]
  · intro e; rw [k.image e, h.image e]
  · intro e; rw [k.pose e, h.pose e]
  · intro e; rw [k.streams e, h.streams e]
  · intro e; rw [k.stmReply e, h.stmReply e]
  · intro e; rw [k.lim e, h.lim e]
  · intro e; rw [k.rule e, h.rule e]
  · intro e; rw [k.hold e, h.hold e]
  · intro e; rw [k.vch e, h.vch e]
  · intro e; rw [k.eco e, h.eco e]
  · intro e; rw [k.svc e, h.svc e]
  · intro e; rw [k.ntc e, h.ntc e]
  · intro e; rw [k.snd e, h.snd e]
  · intro e; rw [k.link e, h.link e]

theorem mono {a b : Blocks} {s t : State} (h : Touches a s t) (l : a.le b = true) : Touches b s t := by
  simp only [Blocks.le, Bool.and_eq_true, Bool.or_eq_true, Bool.not_eq_true'] at l
  constructor
  · intro e; exact h.pending (by simp_all)
  · intro e; exact h.freeCount (by simp_all)
  · intro e; exact h.now (by simp_all)
  · intro e; exact h.micros (by simp_all)
  · intro e; exact h.cfg (by simp_all)
  · intro e; exact h.image (by simp_all)
  · intro e; exact h.pose (by simp_all)
  · intro e; exact h.streams (by simp_all)
  · intro e; exact h.stmReply (by simp_all)
  · intro e; exact h.lim (by simp_all)
  · intro e; exact h.rule (by simp_all)
  · intro e; exact h.hold (by simp_all)
  · intro e; exact h.vch (by simp_all)
  · intro e; exact h.eco (by simp_all)
  · intro e; exact h.svc (by simp_all)
  · intro e; exact h.ntc (by simp_all)
  · intro e; exact h.snd (by simp_all)
  · intro e; exact h.link (by simp_all)

/-- A choice between two states, each of which touches the same blocks. -/
theorem ite {b : Blocks} {s t u : State} {p : Prop} [Decidable p] (h : Touches b s t) (k : Touches b s u) :
    Touches b s (if p then t else u) := by
  split
  · exact h
  · exact k

/-- A further change, made on a condition. -/
theorem ite_else {b : Blocks} {s t u : State} {p : Prop} [Decidable p] (h : Touches b s t) (k : Touches b t u) :
    Touches b s (if p then u else t) := .ite (h.trans k) h

/-- A further change, made unless a condition holds. -/
theorem ite_then {b : Blocks} {s t u : State} {p : Prop} [Decidable p] (h : Touches b s t) (k : Touches b t u) :
    Touches b s (if p then t else u) := .ite h (h.trans k)

/-- A fold touches what each of its steps touches. -/
theorem foldl {α : Type} {b : Blocks} {f : State → α → State} (h : ∀ s a, Touches b s (f s a)) :
    ∀ (l : List α) (s : State), Touches b s (l.foldl f s)
  | [], s => refl b s
  | a :: l, s => (h s a).trans (foldl h l (f s a))

end Touches

/-! ## The updates of one block -/

theorem onCfg_touches (s : State) f : Touches { cfg := true } s (s.onCfg f) := by
  constructor <;> intro h <;> first | rfl | cases h
theorem onPose_touches (s : State) f : Touches { pose := true } s (s.onPose f) := by
  constructor <;> intro h <;> first | rfl | cases h
theorem onStreams_touches (s : State) f : Touches { streams := true } s (s.onStreams f) := by
  constructor <;> intro h <;> first | rfl | cases h
theorem onLim_touches (s : State) f : Touches { lim := true } s (s.onLim f) := by
  constructor <;> intro h <;> first | rfl | cases h
theorem onRule_touches (s : State) f : Touches { rule := true } s (s.onRule f) := by
  constructor <;> intro h <;> first | rfl | cases h
theorem onHold_touches (s : State) f : Touches { hold := true } s (s.onHold f) := by
  constructor <;> intro h <;> first | rfl | cases h
theorem onVch_touches (s : State) f : Touches { vch := true } s (s.onVch f) := by
  constructor <;> intro h <;> first | rfl | cases h
theorem onEco_touches (s : State) f : Touches { eco := true } s (s.onEco f) := by
  constructor <;> intro h <;> first | rfl | cases h
theorem onSvc_touches (s : State) f : Touches { svc := true } s (s.onSvc f) := by
  constructor <;> intro h <;> first | rfl | cases h
theorem onNtc_touches (s : State) f : Touches { ntc := true } s (s.onNtc f) := by
  constructor <;> intro h <;> first | rfl | cases h
theorem onSnd_touches (s : State) f : Touches { snd := true } s (s.onSnd f) := by
  constructor <;> intro h <;> first | rfl | cases h
theorem onLink_touches (s : State) f : Touches { link := true } s (s.onLink f) := by
  constructor <;> intro h <;> first | rfl | cases h

theorem arriveAt_touches (s : State) (d : Ms) : Touches { now := true } s (s.arriveAt d) := by
  unfold State.arriveAt
  exact .ite (.refl _ _) (by constructor <;> intro h <;> first | rfl | cases h)
/-! ## LINK and its replies -/

theorem offer_touches (s : State) (c : TxClass) (k : TxKind) (d : Byte) (x : List Byte) :
    Touches { link := true } s (s.offer c k d x) := onLink_touches s _

/-- The blocks in which a reply of several frames shows. -/
def replyBlocks : Blocks := { stmReply := true, rule := true, svc := true, link := true }

theorem setReply_touches (s : State) (o : ReplyOwner) (r : Option ListReply) : Touches replyBlocks s (s.setReply o r) := by
  cases o <;> (constructor <;> intro h <;> first | rfl | cases h)

theorem withLink_touches (s : State) (l : LinkUnit) : Touches replyBlocks s { s with link := l } := by
  constructor <;> intro h <;> first | rfl | cases h

theorem deliver_touches : ∀ (n : Nat) (o : ReplyOwner) (s : State), Touches replyBlocks s (deliver n o s)
  | 0, _, s => .refl _ s
  | n + 1, o, s => by
    unfold deliver
    split
    · exact .refl _ s
    · exact setReply_touches s o none
    · rename_i dst m rest _
      dsimp only
      split
      · exact (setReply_touches s o (some ⟨dst, rest⟩)).trans (withLink_touches _ _)
      · exact ((setReply_touches s o (some ⟨dst, rest⟩)).trans (withLink_touches _ _)).trans (deliver_touches n _ _)

theorem report_touches (s : State) (o : Option ReplyOwner) : Touches replyBlocks s (s.report o) := by
  cases o
  · exact .refl _ s
  · exact deliver_touches _ _ s

theorem reports_touches (s : State) (os : List ReplyOwner) : Touches replyBlocks s (s.reports os) :=
  .foldl (fun t o => report_touches t (some o)) os s

theorem offerBackground_touches (s : State) (f : TxFrame) : Touches replyBlocks s (s.offerBackground f) :=
  (withLink_touches s _).trans (report_touches _ _)

theorem abandonReply_touches (s : State) (o : ReplyOwner) : Touches replyBlocks s (s.abandonReply o) :=
  (setReply_touches s o none).trans ((onLink_touches _ _).mono rfl)

theorem beginReply_touches (s : State) (o : ReplyOwner) (d : Byte) (x : Option (List Byte)) (n : List Nat) :
    Touches replyBlocks s (s.beginReply o d x n) := by
  unfold State.beginReply
  refine (abandonReply_touches s o).trans ?_
  split
  · exact (setReply_touches _ o _).trans (offerBackground_touches _ _)
  · exact .refl _ _
  · exact (setReply_touches _ o _).trans (offerBackground_touches _ _)

theorem settled_touches (s : State) : Touches { link := true } s s.settled := by
  unfold State.settled
  exact onLink_touches s _

theorem takeFrame_touches (s : State) : Touches { link := true } s s.takeFrame :=
  (onLink_touches s _).trans (settled_touches _)

theorem takeItem_touches (s : State) : Touches { link := true } s s.takeItem :=
  (onLink_touches s _).trans (settled_touches _)

theorem respond_touches (s : State) (i : SettingItem) (r : SettingResult) (a b c : Option Int) :
    Touches { link := true } s (s.respond i r a b c) := offer_touches s _ _ _ _

/-! ## The sounder and the notices -/

theorem sound_touches (s : State) (f : Ms → Snd → Snd) : Touches { snd := true } s (s.sound f) :=
  .ite (onSnd_touches s _) (.refl _ s)

/-- The blocks in which a notice shows: NTC, its sound, its frame. -/
def noticeBlocks : Blocks := { ntc := true, snd := true, link := true }

theorem placeSound_touches (s : State) (n : Nat) (p : Option Pattern) : Touches noticeBlocks s (s.placeSound n p) := by
  unfold State.placeSound
  split
  · exact .refl _ s
  · exact (sound_touches s _).mono rfl

theorem withdrawSound_touches (s : State) (r : NoticeRecord) : Touches noticeBlocks s (s.withdrawSound r) := by
  unfold State.withdrawSound
  split
  · exact .refl _ s
  · exact (sound_touches s _).mono rfl

theorem ntc_touches (s : State) (f : Ntc → Ntc) : Touches noticeBlocks s (s.onNtc f) := (onNtc_touches s f).mono rfl

theorem offerNotice_touches (s : State) (r : NoticeRecord) : Touches noticeBlocks s (s.offerNotice r) :=
  (offer_touches s _ _ _ _).mono rfl

theorem offerCleared_touches (s : State) (n c : Nat) : Touches noticeBlocks s (s.offerCleared n c) :=
  (offer_touches s _ _ _ _).mono rfl

theorem joinQueue_touches (s : State) (r : NoticeRecord) : Touches noticeBlocks s (s.joinQueue r) :=
  ((ntc_touches s _).trans (offerNotice_touches _ _)).trans (placeSound_touches _ _ _)

theorem pend_touches (s : State) (r : NoticeRecord) : Touches noticeBlocks s (s.pend r) := ntc_touches s _

theorem offerQueue_touches (s : State) (r : NoticeRecord) : Touches noticeBlocks s (s.offerQueue r) := by
  unfold State.offerQueue
  refine .ite (joinQueue_touches s r) ?_
  split
  · exact joinQueue_touches s r
  · exact .ite ((((ntc_touches s _).trans (withdrawSound_touches _ _)).trans (offerCleared_touches _ _ _)).trans
      ((pend_touches _ _).trans (joinQueue_touches _ _))) (pend_touches s _)

theorem presentationPass_touches : ∀ (n : Nat) (s : State), Touches noticeBlocks s (presentationPass n s)
  | 0, s => .refl _ s
  | n + 1, s => by
    unfold presentationPass
    split
    · exact .refl _ s
    · exact .ite (((ntc_touches s _).trans (offerQueue_touches _ _)).trans (presentationPass_touches n _)) (.refl _ s)

theorem pass_touches (s : State) : Touches noticeBlocks s s.pass := presentationPass_touches _ s

theorem reapply_touches (s : State) (r : NoticeRecord) : Touches noticeBlocks s (s.reapply r) :=
  .ite (.refl _ s) (((withdrawSound_touches s r).trans (placeSound_touches _ _ _)).trans (ntc_touches _ _))

theorem conditionsChanged_touches (s : State) : Touches noticeBlocks s s.conditionsChanged :=
  (Touches.foldl reapply_touches _ s).trans (pass_touches _)

theorem setConditions_touches (s : State) (f : Ntc → Ntc) : Touches noticeBlocks s (s.setConditions f) :=
  (ntc_touches s f).trans (.ite (.refl _ _) (conditionsChanged_touches _))

theorem raiseNew_touches (s : State) (r : NoticeRecord) : Touches noticeBlocks s (s.raiseNew r) := by
  unfold State.raiseNew
  dsimp only
  split
  · exact (ntc_touches s _).trans (placeSound_touches _ _ _)
  · exact .ite (offerQueue_touches s r) ((pend_touches s _).trans (placeSound_touches _ _ _))

theorem raiseQueued_touches (s : State) (r : NoticeRecord) (v : Severity) (d : Detail) :
    Touches noticeBlocks s (s.raiseQueued r v d) :=
  .ite ((ntc_touches s _).trans (offerNotice_touches _ _))
    (((ntc_touches s _).trans (offerNotice_touches _ _)).trans (placeSound_touches _ _ _))

theorem raisePending_touches (s : State) (r : NoticeRecord) (v : Severity) (d : Detail) :
    Touches noticeBlocks s (s.raisePending r v d) :=
  .ite (pend_touches s _) (((pend_touches s _).trans (reapply_touches _ _)).trans (pass_touches _))

theorem raiseLocal_touches (s : State) (r : NoticeRecord) (v : Severity) (d : Detail) :
    Touches noticeBlocks s (s.raiseLocal r v d) :=
  .ite (ntc_touches s _) (((withdrawSound_touches s r).trans (placeSound_touches _ _ _)).trans (ntc_touches _ _))

theorem raiseNotice_touches (s : State) (n : Nat) (v : Option Severity) (d : Detail) :
    Touches noticeBlocks s (s.raiseNotice n v d) := by
  unfold State.raiseNotice
  refine .ite (.refl _ s) ?_
  split
  · exact .refl _ s
  · dsimp only
    split
    · exact raiseQueued_touches s _ _ _
    · exact raisePending_touches s _ _ _
    · exact raiseLocal_touches s _ _ _
    · exact raiseNew_touches s _

theorem clearNotice_touches (s : State) (n : Nat) : Touches noticeBlocks s (s.clearNotice n) := by
  unfold State.clearNotice
  refine .ite (.refl _ s) ?_
  split
  · exact (((ntc_touches s _).trans (withdrawSound_touches _ _)).trans (offerCleared_touches _ _ _)).trans (pass_touches _)
  · exact (ntc_touches s _).trans (withdrawSound_touches _ _)
  · exact (ntc_touches s _).trans (withdrawSound_touches _ _)
  · exact .refl _ s

theorem takeTimestamp_touches (s : State) : Touches noticeBlocks s s.takeTimestamp := by
  unfold State.takeTimestamp
  refine .ite (.refl _ s) ?_
  split
  · exact setConditions_touches s _
  · exact .ite (setConditions_touches s _) (setConditions_touches s _)

theorem takeDisplay_touches (s : State) : Touches noticeBlocks s s.takeDisplay := setConditions_touches s _

/-! ## ECO -/

/-- The blocks in which a change of the economy state shows. -/
def ecoBlocks : Blocks := { eco := true, ntc := true, snd := true, link := true }

theorem eco_touches (s : State) (f : Eco → Eco) : Touches ecoBlocks s (s.onEco f) := (onEco_touches s f).mono rfl

theorem tellSpeed_touches (s : State) (b : Option Nat) : Touches { link := true } s (s.tellSpeed b) :=
  .ite (.refl _ s) (.ite (offer_touches s _ _ _ _) (onLink_touches s _))

theorem tellPump_touches (s : State) (b : Option Nat) : Touches { link := true } s (s.tellPump b) :=
  .ite (.refl _ s) (.ite (offer_touches s _ _ _ _) (onLink_touches s _))

theorem reform_touches (s : State) : Touches { eco := true, link := true } s s.reform :=
  ((onEco_touches s _).mono rfl).trans (((tellSpeed_touches _ _).trans (tellPump_touches _ _)).mono rfl)

theorem enterEco_touches (s : State) (st : EcoState) : Touches ecoBlocks s (s.enterEco st) :=
  (eco_touches s _).trans ((reform_touches _).mono rfl)

theorem enterNeutralWait_touches (s : State) : Touches ecoBlocks s s.enterNeutralWait :=
  (enterEco_touches s _).trans (eco_touches _ _)

theorem enterWork_touches (s : State) : Touches ecoBlocks s s.enterWork :=
  (enterEco_touches s _).trans (.ite (enterNeutralWait_touches _) (.refl _ _))

theorem recoveryTest_touches (s : State) : Touches ecoBlocks s s.recoveryTest :=
  .ite (((clearNotice_touches s _).mono rfl).trans (enterWork_touches _)) (.refl _ s)

theorem enterRecover_touches (s : State) : Touches ecoBlocks s s.enterRecover :=
  ((enterEco_touches s _).trans (eco_touches _ _)).trans (recoveryTest_touches _)

theorem permitEvent_touches (s : State) : Touches ecoBlocks s s.permitEvent := by
  unfold State.permitEvent
  split
  · exact .ite (enterNeutralWait_touches s) (.refl _ s)
  · exact .ite (.refl _ s) (enterWork_touches s)
  · exact .ite (.refl _ s) (enterRecover_touches s)
  all_goals exact .refl _ s

theorem reformTarget_touches (s : State) : Touches ecoBlocks s s.reformTarget :=
  ((reform_touches s).mono rfl).trans (.ite (.refl _ _) (recoveryTest_touches _))

theorem writeCaps_touches (s : State) (a : RuleActions) : Touches ecoBlocks s (s.writeCaps a) :=
  (eco_touches s _).trans (.ite ((reformTarget_touches _).trans (permitEvent_touches _)) (.refl _ _))

theorem derateEvent_touches (s : State) : Touches ecoBlocks s s.derateEvent :=
  .ite (reformTarget_touches s) (.refl _ s)

theorem engineCondition_touches (s : State) : Touches ecoBlocks s s.engineCondition :=
  (eco_touches s _).trans
    (.ite (.ite (enterWork_touches _) (.refl _ _)) (.ite (.refl _ _) (enterEco_touches _ _)))

theorem formNeutral_touches (s : State) (d : Ms) : Touches ecoBlocks s (s.formNeutral d) :=
  (eco_touches s _).trans (.ite (.refl _ _) ((takeTimestamp_touches _).mono rfl))

theorem ecoHydraulic_touches (s : State) (d : Ms) : Touches ecoBlocks s (s.ecoHydraulic d) :=
  (formNeutral_touches s d).trans (permitEvent_touches _)

theorem holdGrant_touches (s : State) : Touches { eco := true } s s.holdGrant := onEco_touches s _

theorem ecoGrant_touches (s : State) : Touches ecoBlocks s s.ecoGrant :=
  (((holdGrant_touches s).mono rfl).trans (eco_touches _ _)).trans (.ite (enterWork_touches _) (.refl _ _))

theorem ecoEnterRun_touches (s : State) : Touches ecoBlocks s s.ecoEnterRun :=
  ((formNeutral_touches s _).trans ((reform_touches _).mono rfl)).trans (engineCondition_touches _)

/-- The blocks of a fuel arrival: ECO's, and SVC for a fuel gap (R133). -/
def fuelBlocks : Blocks := { eco := true, svc := true, ntc := true, snd := true, link := true }

theorem addGap_touches (s : State) (n : Nat) : Touches { eco := true, svc := true } s (s.addGap n) := by
  unfold State.addGap
  exact ((onEco_touches s _).mono rfl).trans ((onSvc_touches _ _).mono rfl)

theorem fuelArrival_touches (s : State) (e : Stream) : Touches { eco := true, svc := true } s (s.fuelArrival e) := by
  unfold State.fuelArrival
  refine Touches.trans ?_ ((onEco_touches _ _).mono rfl)
  split
  · exact .refl _ s
  · exact .ite ((onEco_touches s _).mono rfl) (addGap_touches s _)

theorem ecoEngineArrival_touches (s : State) (e : Stream) : Touches fuelBlocks s (s.ecoEngineArrival e) :=
  (((fuelArrival_touches s e).mono rfl).trans ((engineCondition_touches _).mono rfl)).trans
    ((recoveryTest_touches _).mono rfl)

theorem ecoEngineState_touches (s : State) (e : Stream) : Touches ecoBlocks s (s.ecoEngineState e) :=
  (eco_touches s _).trans (engineCondition_touches _)

theorem ecoCycle_touches (s : State) (n : Nat) :
    Touches (ecoBlocks.or replyBlocks) s (s.ecoCycle n) := by
  unfold State.ecoCycle
  exact ((offerBackground_touches s _).mono rfl).trans ((onEco_touches _ _).mono rfl)

/-! ## VCH and RULE -/

theorem writeDemand_touches (s : State) (c : Channel) (f : ChannelRecord → ChannelRecord) :
    Touches { vch := true } s (s.writeDemand c f) := .ite (onVch_touches s _) (.refl _ s)

theorem writeDemands_touches (s : State) (f : Channel → ChannelRecord → ChannelRecord) :
    Touches { vch := true } s (s.writeDemands f) := .foldl (fun t c => writeDemand_touches t c (f c)) _ s

theorem offerStatusChange_touches (s : State) : Touches { link := true } s s.offerStatusChange := offer_touches s _ _ _ _

theorem beginPeriod_touches (s : State) (c : Channel) : Touches { vch := true } s (s.beginPeriod c) :=
  .ite (onVch_touches s _) (.refl _ s)

theorem periodStart_touches (s : State) (c : Channel) : Touches { vch := true, link := true } s (s.periodStart c) :=
  ((beginPeriod_touches s c).mono rfl).trans (.ite (.refl _ _) ((offerStatusChange_touches _).mono rfl))

/-- The blocks in which a winner change shows. -/
def ruleBlocks : Blocks := { rule := true, vch := true, eco := true, ntc := true, snd := true, link := true }

theorem clearRuleNotice_touches (s : State) (o : Option Nat) : Touches noticeBlocks s (s.clearRuleNotice o) := by
  cases o
  · exact .refl _ s
  · exact .ite (clearNotice_touches s _) (.refl _ s)

theorem raiseRuleNotice_touches (s : State) (w : Nat) (k : Key) : Touches noticeBlocks s (s.raiseRuleNotice w k) :=
  .ite (raiseNotice_touches s _ _ _) (.refl _ s)

theorem ruleSound_touches (s : State) (a b : Option Pattern) : Touches { snd := true } s (s.ruleSound a b) :=
  .ite (sound_touches s _) (.refl _ s)

theorem changeWinner_touches (s : State) (w : Nat) (k : Key) : Touches ruleBlocks s (s.changeWinner w k) :=
  (((((onRule_touches s _).mono rfl).trans ((writeDemands_touches _ _).mono rfl)).trans
    ((writeCaps_touches _ _).mono rfl)).trans ((ruleSound_touches _ _ _).mono rfl)).trans
    (((clearRuleNotice_touches _ _).mono rfl).trans ((raiseRuleNotice_touches _ _ _).mono rfl))

theorem lookupKey_touches (s : State) (k : Key) : Touches ruleBlocks s (s.lookupKey k) :=
  .ite (.refl _ s) (changeWinner_touches s _ k)

theorem rebuild_touches (s : State) : Touches ruleBlocks s s.rebuild :=
  .ite (.ite (.refl _ s) (((onRule_touches s _).mono rfl).trans (lookupKey_touches _ _))) (.refl _ s)

/-! ## HOLD and LIM -/

theorem changeHold_touches (s : State) (f : HoldTable → HoldTable) :
    Touches (ruleBlocks.or { hold := true }) s (s.changeHold f) := by
  unfold State.changeHold
  dsimp only
  refine Touches.ite_else (Touches.ite_then ?_ ((rebuild_touches _).mono rfl)) ((clearNotice_touches _ _).mono rfl)
  exact ((onHold_touches s f).mono rfl).trans ((writeDemands_touches _ _).mono rfl)

theorem stopNotice_touches (s : State) (o : PerLimit LimitRecord) (l : Limit) :
    Touches noticeBlocks s (s.stopNotice o l) :=
  .ite (raiseNotice_touches s _ _ _) (.ite (clearNotice_touches s _) (.refl _ s))

theorem limitSounds_touches (s : State) : Touches { snd := true } s s.limitSounds := by
  unfold State.limitSounds
  dsimp only
  exact Touches.ite_then (Touches.ite_then (.refl _ s) (sound_touches s _)) (sound_touches _ _)

theorem writeLimitDemands_touches (s : State) : Touches { vch := true } s s.writeLimitDemands := by
  unfold State.writeLimitDemands
  exact writeDemands_touches s _

/-- The blocks in which an evaluation of limits shows. -/
def limitBlocks : Blocks := ruleBlocks.or { lim := true }

theorem evaluateStates_touches (s : State) (p : Limit → Bool) :
    Touches (noticeBlocks.or { lim := true }) s (s.evaluateStates p) := by
  unfold State.evaluateStates
  refine Touches.trans ?_ ((limitSounds_touches _).mono rfl)
  refine Touches.trans ?_ ((Touches.foldl (fun t l => stopNotice_touches t s.lim.records l) Limit.all _).mono rfl)
  exact (onLim_touches s _).mono rfl

theorem evaluateLimits_touches (s : State) (p : Limit → Bool) : Touches limitBlocks s (s.evaluateLimits p) := by
  unfold State.evaluateLimits
  dsimp only
  refine Touches.ite_else ?_ (((offerStatusChange_touches _).mono rfl).trans ((rebuild_touches _).mono rfl))
  exact ((evaluateStates_touches s p).mono rfl).trans ((writeLimitDemands_touches _).mono rfl)

theorem limitItem_touches (s : State) (n : Nat) (d : State → Int → LimitDecision) (p : Limit → Bool)
    (v : LimitSet → Option Int × Option Int × Option Int) : Touches limitBlocks s (s.limitItem n d p v) := by
  unfold State.limitItem
  split
  · exact .refl _ s
  · dsimp only
    refine Touches.trans ((takeItem_touches s).mono rfl) (Touches.trans ?_ ((respond_touches _ _ _ _ _ _).mono rfl))
    split
    · exact .refl _ _
    · exact ((onLim_touches _ _).mono rfl).trans (evaluateLimits_touches _ _)

/-! ## SVC -/

/-- The blocks in which an evaluation of service items shows. -/
def serviceBlocks : Blocks := { svc := true, eco := true, ntc := true, snd := true, link := true }

theorem raiseItem_touches (s : State) (i : ServiceItem) : Touches noticeBlocks s (s.raiseItem i) := by
  unfold State.raiseItem
  split
  · exact .refl _ s
  · exact raiseNotice_touches s _ _ _

theorem formDerate_touches (s : State) : Touches serviceBlocks s s.formDerate :=
  .ite (.refl _ s) (((onSvc_touches s _).mono rfl).trans ((derateEvent_touches _).mono rfl))

theorem evaluate_touches (s : State) (p : ServiceItem → Bool) : Touches serviceBlocks s (s.evaluate p) := by
  unfold State.evaluate
  dsimp only
  refine Touches.trans ?_ (formDerate_touches _)
  refine Touches.trans ?_ ((Touches.foldl (fun t i => raiseItem_touches t _) _ _).mono rfl)
  exact (onSvc_touches s _).mono rfl

theorem remindAgain_touches (s : State) (i : ServiceItem) : Touches noticeBlocks s (s.remindAgain i) :=
  .ite (raiseItem_touches s i) (.refl _ s)

theorem countReminds_touches (s : State) : Touches serviceBlocks s s.countReminds :=
  ((onSvc_touches s _).mono rfl).trans ((Touches.foldl remindAgain_touches _ _).mono rfl)

theorem countSecond_touches (s : State) : Touches { svc := true } s s.countSecond :=
  .ite (.ite (onSvc_touches s _) (.refl _ s)) (.ite (.refl _ s) (onSvc_touches s _))

theorem startWrite_touches (s : State) : Touches { svc := true } s s.startWrite := by
  unfold State.startWrite
  exact onSvc_touches s _

theorem requestWrite_touches (s : State) : Touches { svc := true } s s.requestWrite :=
  .ite (startWrite_touches s) (onSvc_touches s _)

theorem svcSecond_touches (s : State) : Touches serviceBlocks s s.svcSecond := by
  unfold State.svcSecond
  dsimp only
  refine Touches.ite_else ?_ ?_
  · exact (countSecond_touches s).mono rfl
  refine Touches.trans ?_ (countReminds_touches _)
  refine Touches.ite_else ?_ ((requestWrite_touches _).mono rfl)
  exact evaluate_touches _ _

theorem countCycle_touches (s : State) : Touches (serviceBlocks.or replyBlocks) s s.countCycle :=
  .ite ((((onSvc_touches s _).mono rfl).trans ((evaluate_touches _ _).mono rfl)).trans ((ecoCycle_touches _ _).mono rfl))
    (.refl _ s)

theorem digStep_touches (s : State) : Touches (serviceBlocks.or replyBlocks) s s.digStep :=
  ((onSvc_touches s _).mono rfl).trans (.ite (countCycle_touches _) (.refl _ _))

theorem recordGood_touches (s : State) : Touches (noticeBlocks.or { cfg := true }) s s.recordGood := by
  unfold State.recordGood
  split
  · exact .refl _ s
  · exact ((onCfg_touches s _).mono rfl).trans ((clearNotice_touches _ _).mono rfl)

theorem endWrite_touches (s : State) (ok : Bool) :
    Touches (noticeBlocks.or { cfg := true, svc := true }) s (s.endWrite ok) := by
  unfold State.endWrite
  dsimp only
  refine Touches.ite_else (Touches.ite_else ?_ ((recordGood_touches _).mono rfl)) ?_
  · exact (onSvc_touches s _).mono rfl
  refine Touches.trans ?_ ((startWrite_touches _).mono rfl)
  exact (onSvc_touches _ _).mono rfl

theorem doService_touches (s : State) (n : Int) : Touches serviceBlocks s (s.doService n) :=
  ((((onSvc_touches s _).mono rfl).trans ((clearNotice_touches _ _).mono rfl)).trans (formDerate_touches _)).trans
    ((requestWrite_touches _).mono rfl)

theorem svcEnterRun_touches (s : State) : Touches serviceBlocks s s.svcEnterRun := by
  unfold State.svcEnterRun
  dsimp only
  refine Touches.trans ?_ ((Touches.foldl raiseItem_touches _ _).mono rfl)
  refine Touches.trans ?_ (formDerate_touches _)
  exact (onSvc_touches s _).mono rfl

/-! ## STM -/

theorem setEntry_touches (s : State) (e : Stream) : Touches { streams := true } s (s.setEntry e) := onStreams_touches s _

theorem tellFault_touches (s : State) (a b : Stream) : Touches noticeBlocks s (s.tellFault a b) := by
  unfold State.tellFault
  refine .ite (.refl _ s) ?_
  split
  · exact raiseNotice_touches s _ _ _
  · exact clearNotice_touches s _

/-! ## The entry to RUN -/

theorem reportEntry_touches (s b : State) : Touches { link := true } s (s.reportEntry b) :=
  (Touches.ite_else (.refl _ s) (offerStatusChange_touches s)).trans
    (Touches.foldl (fun t _ => offerStatusChange_touches t) _ _)

end Sys2Proof.Machine
end

