-- ==== Sys2Proof/Laws/Entries.lean ====
section
/-! SUPPORT. What the two entries to a node state that every block takes part in do: `enterJoin` answers what `EntersJoin`
says, `enterQuiet` what `EntersQuiet` says. A proof about a KEY change, a read or a write that ends cites them and unfolds
neither entry. -/

namespace Sys2Proof.Machine

theorem get_tabulate_limit {α : Type} (f : Limit → α) (l : Limit) : (PerLimit.tabulate f).get l = f l := by
  cases l <;> rfl

/-- The entry to JOIN (R34, R62, R181, R185). -/
theorem enterJoin_enters (s : State) : EntersJoin s s.enterJoin := by
  have g : s.enterJoin.eco.grant = .none := by
    have none : ∀ r : Role,
        ((s.streams.map joinEntry).find? fun e => e.role == r).all (fun e => e.usable == false) = true := by
      intro r
      cases h : (s.streams.map joinEntry).find? fun e => e.role == r with
      | none => rfl
      | some e =>
        obtain ⟨x, -, rfl⟩ := List.mem_map.1 (List.mem_of_find?_eq_some h)
        simp [Stream.usable, joinEntry, StreamState.heard]
    have h := none .engineGrant
    simp only [State.enterJoin, State.holdGrant, State.onEco, State.readGrant, State.usable, State.stream]
    cases k : (s.streams.map joinEntry).find? fun e => e.role == Role.engineGrant with
    | none => simp
    | some e => rw [k] at h; simp at h; simp [h]
  refine ⟨?_, fun l => ?_⟩
  · have : s.enterJoin.eco = { s.eco with grant := .none } := by
      have e : s.enterJoin.eco = { s.eco with grant := s.enterJoin.eco.grant } := rfl
      rw [e, g]
    rw [← this]
    rfl
  · exact get_tabulate_limit _ l

/-! ## LINK in QUIET -/

/-- What a filter by kind keeps has the kind. -/
theorem filter_kind (k : TxKind) (fs : List TxFrame) : ∀ f ∈ fs.filter (fun f => f.kind == k), f.kind = k := by
  intro f h; simpa using (List.mem_filter.1 h).2

/-- A frame after a replacement in place is of the new frame's kind, or was there (R179). -/
theorem mem_replaceKind {f g : TxFrame} : ∀ {fs : List TxFrame}, g ∈ replaceKind f fs → g.kind = f.kind ∨ g ∈ fs
  | [], h => by simp [replaceKind] at h
  | x :: xs, h => by
    unfold replaceKind at h
    split at h
    · rcases List.mem_cons.1 h with rfl | h
      · exact .inl rfl
      · exact .inr (by simp [h])
    · rcases List.mem_cons.1 h with rfl | h
      · exact .inr (by simp)
      · rcases mem_replaceKind h with h | h
        · exact .inl h
        · exact .inr (by simp [h])

/-- A replacement in place leaves a frame with the new frame's data (R179). -/
theorem replaceKind_mem {f g : TxFrame} : ∀ {fs : List TxFrame}, g ∈ fs → g.kind = f.kind →
    ∃ x ∈ replaceKind f fs, x.kind = f.kind ∧ x.destination = f.destination ∧ x.data = f.data
  | [], h, _ => by simp at h
  | x :: xs, h, k => by
    unfold replaceKind
    split
    · exact ⟨_, List.mem_cons_self, rfl, rfl, rfl⟩
    · rename_i ne
      rcases List.mem_cons.1 h with rfl | h
      · exact absurd k ne
      · obtain ⟨y, hy, r⟩ := replaceKind_mem h k
        exact ⟨y, by simp [hy], r⟩

/-- LINK with nothing but NODE STATUS frames in BACKGROUND takes another in QUIET: nothing is discarded (R179). -/
theorem offer_nodeStatus (l : LinkUnit) (f : TxFrame) (hf : f.kind = .nodeStatus)
    (all : ∀ g ∈ l.background, g.kind = .nodeStatus) :
    ((offerFrame .quiet .background f l).1 = { l with beside := some f }
      ∨ ∃ fs, (offerFrame .quiet .background f l).1 = { l with background := fs }
        ∧ (∀ g ∈ fs, g.kind = .nodeStatus)
        ∧ ∃ x ∈ fs, x.kind = f.kind ∧ x.destination = f.destination ∧ x.data = f.data)
    ∧ (offerFrame .quiet .background f l).2 = none := by
  have odd : oddSequence f = false := by simp [oddSequence, hf]
  have per : periodic .background f.kind = true := by rw [hf]; rfl
  have tk : takesOffer .quiet f.kind = true := by rw [hf]; rfl
  unfold offerFrame
  simp only [tk, odd, per, Bool.not_true, Bool.and_false, if_true, Bool.false_eq_true, if_false]
  cases h : (classOf l .background).find? (fun g => g.kind == f.kind) with
  | none =>
    have e : l.background = [] := by
      rw [List.find?_eq_none] at h
      cases hb : l.background with
      | nil => rfl
      | cons g gs =>
        exact absurd (by rw [hf]; simp [all g (by rw [hb]; simp)]) (h g (by simp [classOf, hb]))
    have r : joinClass .background f l = (({ l with background := [f] } : LinkUnit), none) := by
      simp [joinClass, classOf, e, capacity, setClass]
    rw [r]
    exact ⟨.inr ⟨[f], rfl, by simp [hf], f, by simp⟩, rfl⟩
  | some g =>
    dsimp only
    split
    · exact ⟨.inl rfl, rfl⟩
    · refine ⟨.inr ⟨replaceKind f l.background, rfl, ?_, ?_⟩, rfl⟩
      · intro x hx
        rcases mem_replaceKind hx with h' | h'
        · rw [h', hf]
        · exact all x h'
      · exact replaceKind_mem (List.mem_of_find?_eq_some h) (by simpa using List.find?_some h)

/-- The entry to QUIET (R185, R188, R193). -/
theorem enterQuiet_enters (s : State) : EntersQuiet s s.enterQuiet := by
  obtain ⟨c, hc⟩ : ∃ c, c = { s.cfg with
      node := .quiet, joinTimer := none, statusTimer := some (after s.now 5000) } := ⟨_, rfl⟩
  obtain ⟨f, hf⟩ : ∃ f : TxFrame,
      f = ⟨.nodeStatus, 0xFF, nodeStatusData { s with cfg := c, link := quietLink s.link }, s.now, false, none⟩ := ⟨_, rfl⟩
  have data : nodeStatusData { s with cfg := c, link := quietLink s.link } = nodeStatusData { s with cfg := c } := by
    simp [nodeStatusData, State.statusCounts, State.entryCode, State.entry, quietLink, setClass]
  have hb : ∀ g ∈ (quietLink s.link).background, g.kind = .nodeStatus := by
    intro g hg; exact filter_kind .nodeStatus s.link.background g hg
  have o := offer_nodeStatus (quietLink s.link) f (by rw [hf]) hb
  have e : s.enterQuiet = { s with cfg := c, link := (offerFrame .quiet .background f (quietLink s.link)).1 } := by
    obtain ⟨x, hx⟩ : ∃ x : State, x = { s with cfg := c, link := quietLink s.link } := ⟨_, rfl⟩
    have hf' : x.frame .nodeStatus 0xFF (nodeStatusData x) = f := by rw [hf, hx]; rfl
    have hq : s.enterQuiet = x.offerBackground (x.frame .nodeStatus 0xFF (nodeStatusData x)) := by rw [hx, hc]; rfl
    have hn : x.cfg.node = .quiet := by rw [hx, hc]
    have hl : x.link = quietLink s.link := by rw [hx]
    rw [hq, hf', State.offerBackground]
    simp only [hn, hl, o.2]
    rw [hx]; rfl
  have cls : ∀ cl, ∀ g ∈ classOf (quietLink s.link) cl, g.kind = .nodeStatus := by
    intro cl g hg; cases cl
    · exact filter_kind .nodeStatus s.link.urgent g hg
    · exact filter_kind .nodeStatus s.link.normal g hg
    · exact hb g hg
  have bes : ∀ g ∈ (quietLink s.link).beside, g.kind = .nodeStatus := by
    intro g hg
    simp [quietLink, setClass, Option.filter_eq_some_iff] at hg
    exact hg.2
  have wire : (offerFrame .quiet .background f (quietLink s.link)).1.onWire = (quietLink s.link).onWire := by
    rcases o.1 with h | ⟨fs, h, -⟩ <;> rw [h]
  refine ⟨by rw [e, hc], by rw [e], ?_, ?_, ?_, ?_, quietLink s.link, ?_, ?_, ?_⟩
  · rw [e]
    dsimp only
    have hd : f.data = nodeStatusData { s with cfg := c } := by rw [hf]; exact data
    rw [← hd]
    rcases o.1 with h | ⟨fs, h, -, x, hx, r⟩
    · rw [h]; exact ⟨f, .inr rfl, by rw [hf], by rw [hf], rfl⟩
    · rw [h]; exact ⟨x, .inl hx, by rw [r.1, hf], by rw [r.2.1, hf], r.2.2⟩
  · rw [e]; dsimp only
    intro cl g hg
    rcases o.1 with h | ⟨fs, h, a, -⟩
    · rw [h] at hg; exact cls cl g (by cases cl <;> exact hg)
    · rw [h] at hg
      cases cl
      · exact cls .urgent g hg
      · exact cls .normal g hg
      · exact a g hg
  · rw [e]; dsimp only
    rcases o.1 with h | ⟨fs, h, a, -⟩
    · rw [h]; intro g hg; simp at hg; rw [← hg, hf]
    · rw [h]; exact bes
  · rw [e]; dsimp only; rw [wire]
    simp only [quietLink, setClass, Bool.and_eq_true, Option.any_eq_true, beq_iff_eq]
  · rw [e]; dsimp only; rw [wire]
    have p : (s.link.probe || (s.link.onWire && !(quietLink s.link).onWire && s.link.state == .silent))
        = (quietLink s.link).probe := by
      show _ = (s.link.probe || (s.link.onWire && !((currentFrame s.link).any fun c => c.2.kind == .nodeStatus)
        && s.link.state == .silent))
      show (s.link.probe || (s.link.onWire && !(s.link.onWire && (currentFrame s.link).any fun c => c.2.kind == .nodeStatus)
        && s.link.state == .silent)) = _
      cases s.link.onWire <;> simp
    rw [p]
    rfl
  · intro h
    show (if _ then true else if _ then false else _) = false
    have h' : (s.link.normal.filter fun f => f.kind == TxKind.nodeStatus).length ≤ 3 := h
    rw [if_neg (by omega), if_pos h']
  · rw [e]; dsimp only; rw [← data, ← hf]

end Sys2Proof.Machine
end

