-- ==== Sys2Proof/Laws/Order.lean ====
section
/-! SUPPORT. Events in a free order: what every event keeps, the whole keeps, whatever the order; and what one event brings
about and the others keep stands at the end, since every event takes place. -/

namespace Sys2Proof.Machine

/-- A free choice changes nothing but the count of free choices. -/
theorem pick_keeps {P : State → Prop} (free : ∀ s n, P s → P { s with freeCount := n }) (s : State) (n : Nat)
    (h : P s) : P (s.pick n).2 := by
  unfold State.pick
  split
  · exact h
  · exact free _ _ h

/-- A free choice of one of `n` things is one of them. -/
theorem pick_lt (s : State) {n : Nat} (h : 0 < n) : (s.pick n).1 < n := by
  unfold State.pick
  split
  · exact h
  · exact Nat.mod_lt _ h

/-- What every event keeps, any order of the events keeps. -/
theorem interleave_keeps {P : State → Prop} (free : ∀ s n, P s → P { s with freeCount := n }) :
    ∀ (fuel : Nat) (threads : List (List (State → State))) (s : State),
      (∀ thread ∈ threads, ∀ event ∈ thread, ∀ t, P t → P (event t)) → P s → P (interleave fuel threads s)
  | 0, _, _, _, h => h
  | fuel + 1, threads, s, keeps, h => by
    unfold interleave
    dsimp only
    split
    · rename_i event rest found
      have member : event :: rest ∈ threads :=
        (List.mem_filter.1 (List.mem_of_getElem? found)).1
      refine interleave_keeps free fuel _ _ ?_ (keeps _ member _ (by simp) _ (pick_keeps free s _ h))
      intro thread hthread e he t ht
      rcases List.mem_or_eq_of_mem_set hthread with old | new
      · exact keeps thread (List.mem_filter.1 old).1 e he t ht
      · exact keeps _ member e (by subst new; simp [he]) t ht
    · exact h

theorem anyOrder_keeps {P : State → Prop} (free : ∀ s n, P s → P { s with freeCount := n })
    (threads : List (List (State → State))) (s : State)
    (keeps : ∀ thread ∈ threads, ∀ event ∈ thread, ∀ t, P t → P (event t)) (h : P s) : P (anyOrder threads s) :=
  interleave_keeps free _ threads s keeps h

theorem sum_lengths_filter (threads : List (List (State → State))) :
    ((threads.filter fun t => !t.isEmpty).map List.length).sum = (threads.map List.length).sum := by
  induction threads with
  | nil => rfl
  | cons t ts ih => cases t <;> simp_all

theorem length_le_sum {threads : List (List (State → State))} {t : List (State → State)} (mem : t ∈ threads) :
    t.length ≤ (threads.map List.length).sum := by
  induction threads with
  | nil => cases mem
  | cons x xs ih =>
    rcases List.mem_cons.1 mem with rfl | inside
    · simp
    · have := ih inside
      simp only [List.map_cons, List.sum_cons]
      omega

theorem sum_lengths_set {live : List (List (State → State))} {i : Nat} {event : State → State}
    {rest : List (State → State)} (found : live[i]? = some (event :: rest)) :
    ((live.set i rest).map List.length).sum + 1 = (live.map List.length).sum := by
  induction live generalizing i with
  | nil => simp at found
  | cons t ts ih =>
    cases i with
    | zero => simp at found; subst found; simp; omega
    | succ i =>
      have := ih (i := i) (by simpa using found)
      simp only [List.set_cons_succ, List.map_cons, List.sum_cons] at this ⊢
      omega

/-- An event of the threads takes place in every order: what it brings about, and every event keeps, stands at the end. -/
theorem interleave_reaches {P Q : State → Prop} (free : ∀ s n, P s → P { s with freeCount := n })
    (freeQ : ∀ s n, P s ∧ Q s → P { s with freeCount := n } ∧ Q { s with freeCount := n }) {e : State → State}
    (brings : ∀ t, P t → Q (e t)) :
    ∀ (fuel : Nat) (threads : List (List (State → State))) (s : State),
      (threads.map List.length).sum ≤ fuel → (∃ thread ∈ threads, e ∈ thread) →
      (∀ thread ∈ threads, ∀ event ∈ thread, ∀ t, P t → P (event t)) →
      (∀ thread ∈ threads, ∀ event ∈ thread, ∀ t, P t → Q t → Q (event t)) → P s → Q (interleave fuel threads s)
  | 0, threads, s, bound, ⟨thread, mem, he⟩, _, _, _ => by
    exfalso
    have one : thread.length ≤ (threads.map List.length).sum := length_le_sum mem
    have := List.length_pos_of_mem he
    omega
  | fuel + 1, threads, s, bound, ⟨thread, mem, he⟩, keepsP, keepsQ, h => by
    unfold interleave
    dsimp only
    have alive : thread ∈ threads.filter fun t => !t.isEmpty := by
      rw [List.mem_filter]
      refine ⟨mem, ?_⟩
      cases thread <;> simp_all
    have low := pick_lt s (List.length_pos_of_mem alive)
    split
    · rename_i event rest found
      have member : event :: rest ∈ threads := (List.mem_filter.1 (List.mem_of_getElem? found)).1
      have less : (((threads.filter fun t => !t.isEmpty).set
          (s.pick (threads.filter fun t => !t.isEmpty).length).1 rest).map List.length).sum ≤ fuel := by
        have := sum_lengths_set found
        rw [sum_lengths_filter] at this
        omega
      have later : ∀ th ∈ (threads.filter fun t => !t.isEmpty).set
          (s.pick (threads.filter fun t => !t.isEmpty).length).1 rest, ∀ x ∈ th, ∃ old ∈ threads, x ∈ old := by
        intro th hth x hx
        rcases List.mem_or_eq_of_mem_set hth with old | new
        · exact ⟨th, (List.mem_filter.1 old).1, hx⟩
        · exact ⟨_, member, by subst new; simp [hx]⟩
      have hP := pick_keeps free s (threads.filter fun t => !t.isEmpty).length h
      have next := keepsP _ member event (by simp) _ hP
      have stepP : ∀ th ∈ (threads.filter fun t => !t.isEmpty).set
          (s.pick (threads.filter fun t => !t.isEmpty).length).1 rest, ∀ x ∈ th, ∀ t, P t → P (x t) := by
        intro th hth x hx
        obtain ⟨old, ho, hxo⟩ := later th hth x hx
        exact keepsP old ho x hxo
      have stepQ : ∀ th ∈ (threads.filter fun t => !t.isEmpty).set
          (s.pick (threads.filter fun t => !t.isEmpty).length).1 rest, ∀ x ∈ th, ∀ t, P t → Q t → Q (x t) := by
        intro th hth x hx
        obtain ⟨old, ho, hxo⟩ := later th hth x hx
        exact keepsQ old ho x hxo
      by_cases same : e = event
      · subst same
        refine (interleave_keeps (P := fun t => P t ∧ Q t) freeQ fuel _ _ ?_ ⟨next, brings _ hP⟩).2
        intro th hth x hx t ht
        exact ⟨stepP th hth x hx t ht.1, stepQ th hth x hx t ht.1 ht.2⟩
      · refine interleave_reaches free freeQ brings fuel _ _ less ?_ stepP stepQ next
        obtain ⟨j, hj⟩ := List.mem_iff_getElem?.1 alive
        by_cases here : j = (s.pick (threads.filter fun t => !t.isEmpty).length).1
        · rw [here, found] at hj
          have eq : event :: rest = thread := by simpa using hj
          rw [← eq] at he
          refine ⟨rest, ?_, (List.mem_cons.1 he).resolve_left same⟩
          exact List.mem_iff_getElem?.2 ⟨_, List.getElem?_set_self low⟩
        · exact ⟨thread, List.mem_of_getElem? (i := j) (by rw [List.getElem?_set_ne (Ne.symm here)]; exact hj), he⟩
    · rename_i none
      exfalso
      have item := List.getElem?_eq_getElem low
      have inside := List.getElem_mem low
      rw [List.mem_filter] at inside
      cases hh : (threads.filter fun t => !t.isEmpty)[(s.pick (threads.filter fun t => !t.isEmpty).length).1]'low with
      | nil => rw [hh] at inside; simp at inside
      | cons x xs => exact none x xs (by rw [item, hh])

theorem anyOrder_reaches {P Q : State → Prop} (free : ∀ s n, P s → P { s with freeCount := n })
    (freeQ : ∀ s n, P s ∧ Q s → P { s with freeCount := n } ∧ Q { s with freeCount := n }) {e : State → State}
    (brings : ∀ t, P t → Q (e t)) (threads : List (List (State → State))) (s : State)
    (mem : ∃ thread ∈ threads, e ∈ thread)
    (keepsP : ∀ thread ∈ threads, ∀ event ∈ thread, ∀ t, P t → P (event t))
    (keepsQ : ∀ thread ∈ threads, ∀ event ∈ thread, ∀ t, P t → Q t → Q (event t)) (h : P s) :
    Q (anyOrder threads s) :=
  interleave_reaches free freeQ brings _ threads s (Nat.le_refl _) mem keepsP keepsQ h

end Sys2Proof.Machine
end

