-- ==== Sys2Proof/Laws/Record.lean ====
section
/-! SUPPORT. What the CRC and the byte fields of the service record give back. -/

namespace Sys2Proof.Machine

/-- A two-byte field has two bytes. -/
theorem be2_length (v : Int) : (be2 v).length = 2 := rfl

/-- A four-byte field has four bytes. -/
theorem be4_length (v : Int) : (be4 v).length = 4 := rfl

/-- A block read inside its second part. -/
theorem byteAt_append_right (a b : List Byte) (n : Nat) : byteAt (a ++ b) (a.length + n) = byteAt b n := by
  simp [byteAt, List.getD_eq_getElem?_getD, List.getElem?_append_right]

/-- A block read inside its first part. -/
theorem byteAt_append_left (a b : List Byte) (n : Nat) (h : n < a.length) : byteAt (a ++ b) n = byteAt a n := by
  simp [byteAt, List.getD_eq_getElem?_getD, List.getElem?_append_left h]

/-- A 16-bit word reads back from its two bytes. -/
theorem u16At_be2 (w : BitVec 16) : u16At (be2 (w.toNat : Int)) 0 = w.toNat := by
  have h1 : BitVec.ofInt 16 (w.toNat : Int) = w := by simp
  simp only [u16At, be2, h1, byteAt, List.getD_cons_zero, List.getD_cons_succ, BitVec.toNat_setWidth,
    BitVec.toNat_ushiftRight, Nat.shiftRight_eq_div_pow]
  have := w.isLt
  omega

/-- A block followed by its CRC passes the check (R189, 11.3). -/
theorem crcHolds_append (b : List Byte) : crcHolds (b ++ be2 ((crc b).toNat : Int)) = true := by
  have hl : (b ++ be2 ((crc b).toNat : Int)).length - 2 = b.length := by simp [be2_length]
  have ht : (b ++ be2 ((crc b).toNat : Int)).take b.length = b := by simp
  have hu : u16At (b ++ be2 ((crc b).toNat : Int)) b.length = (crc b).toNat := by
    have e0 := byteAt_append_right b (be2 ((crc b).toNat : Int)) 0
    have e1 := byteAt_append_right b (be2 ((crc b).toNat : Int)) 1
    rw [Nat.add_zero] at e0
    have := u16At_be2 (crc b)
    simp only [u16At] at this ⊢
    rw [e0, e1]
    exact this
  unfold crcHolds
  rw [hl, ht, hu]
  simp [be2_length]

end Sys2Proof.Machine
end

