-- ==== Sys2Proof/Laws/Sine.lean ====
section
/-! SUPPORT. The sine table against the formula of R4: the sines of the multiples of a 512th of a half turn, followed by turning
one step at a time in whole numbers with a bound on the error, and the table held to them. -/

namespace Sys2Proof.Laws

open Sys2Proof.Machine

/-- The scale of the turn. -/
def turnScale : Int := 1000000000000000000

/-- The scaled cosine of one table step. -/
def turnCos : Int := 999981175282601143

/-- The scaled sine of one table step. -/
def turnSin : Int := 6135884649154475

/-- The sine of one table step, to the last digits of its Taylor polynomial. -/
theorem step_sin : |(turnScale : ℝ) * Real.sin (Real.pi / 512) - turnSin| ≤ 1000000 := by
  have h1 := Real.pi_gt_d20
  have h2 := Real.pi_lt_d20
  have hb := Real.sin_bound (x := Real.pi / 512) (by rw [abs_le]; constructor <;> linarith)
  have hx : |Real.pi / 512| = Real.pi / 512 := abs_of_pos (by linarith)
  rw [hx, abs_le] at hb
  have hl : (0.00613592315154256491 : ℝ) ≤ Real.pi / 512 := by norm_num at h1 ⊢; linarith
  have hh : Real.pi / 512 ≤ (0.00613592315154256492 : ℝ) := by norm_num at h2 ⊢; linarith
  have h3l := pow_le_pow_left₀ (by norm_num) hl 3
  have h3h := pow_le_pow_left₀ (by linarith) hh 3
  have h5 := pow_le_pow_left₀ (by linarith) hh 5
  simp only [turnScale, turnSin, abs_le]
  norm_num at h3l h3h h5 hl hh ⊢
  constructor <;> linarith

/-- The cosine of one table step, from its sine. -/
theorem step_cos : |(turnScale : ℝ) * Real.cos (Real.pi / 512) - turnCos| ≤ 1000000 := by
  have hs := step_sin
  have hp : 0 < Real.cos (Real.pi / 512) := Real.cos_pos_of_mem_Ioo ⟨by linarith [Real.pi_pos], by linarith [Real.pi_pos]⟩
  have hq := Real.sin_sq_add_cos_sq (Real.pi / 512)
  simp only [turnScale, turnSin, turnCos, abs_le] at hs ⊢
  norm_num at hs ⊢
  constructor <;> nlinarith

/-- The scaled cosine after one more step, rounded down. -/
def turnCosOf (c s : Int) : Int := (c * turnCos - s * turnSin) / turnScale

/-- The scaled sine after one more step, rounded down. -/
def turnSinOf (c s : Int) : Int := (s * turnCos + c * turnSin) / turnScale

/-- The bound on the error after one more step. -/
def turnErrorOf (e : Int) : Int := e + e * 7 / 1000 + 2000002

/-- A scaled pair follows the cosine and the sine of an angle within an error. -/
def Follows (a : ℝ) (c s e : Int) : Prop :=
  |(turnScale : ℝ) * Real.cos a - c| ≤ e ∧ |(turnScale : ℝ) * Real.sin a - s| ≤ e

/-- Division rounds down by less than 1. -/
theorem floor_close (n : Int) : |(n : ℝ) - turnScale * ((n / turnScale : Int) : ℝ)| ≤ turnScale := by
  have h1 := Int.mul_ediv_add_emod n turnScale
  have h2 := Int.emod_nonneg n (b := turnScale) (by decide)
  have h3 := Int.emod_lt_of_pos n (b := turnScale) (by decide)
  rw [← Int.cast_mul, ← Int.cast_sub, ← Int.cast_abs, Int.cast_le, abs_le]
  constructor <;> linarith

/-- A bound on a product from bounds on its factors. -/
theorem abs_mul_le {u v m n : ℝ} (hu : |u| ≤ m) (hv : |v| ≤ n) : |u * v| ≤ m * n := by
  rw [abs_mul]
  exact mul_le_mul hu hv (abs_nonneg _) (le_trans (abs_nonneg _) hu)

/-- One step more is followed with the next error. -/
theorem follows_step (a : ℝ) (c s e : Int) (he : 0 ≤ e) (h : Follows a c s e) :
    Follows (a + Real.pi / 512) (turnCosOf c s) (turnSinOf c s) (turnErrorOf e) := by
  obtain ⟨hc, hs⟩ := h
  have bs := step_sin
  have bc := step_cos
  have f1 := floor_close (c * turnCos - s * turnSin)
  have f2 := floor_close (s * turnCos + c * turnSin)
  have e1 : (e : ℝ) * (7 / 1000) - 1 ≤ ((e * 7 / 1000 : Int) : ℝ) := by
    have h1 := Int.mul_ediv_add_emod (e * 7) 1000
    have h3 := Int.emod_lt_of_pos (e * 7) (b := 1000) (by decide)
    have : (e : ℝ) * 7 - 1000 ≤ 1000 * ((e * 7 / 1000 : Int) : ℝ) := by
      exact_mod_cast (by omega : e * 7 - 1000 ≤ 1000 * (e * 7 / 1000))
    linarith
  have he' : (0 : ℝ) ≤ e := by exact_mod_cast he
  set x := Real.cos a with hx
  set y := Real.sin a with hy
  set p := Real.cos (Real.pi / 512) with hp
  set q := Real.sin (Real.pi / 512) with hq
  have x1 : |x| ≤ 1 := Real.abs_cos_le_one a
  have y1 : |y| ≤ 1 := Real.abs_sin_le_one a
  have p1 : |(turnCos : ℝ)| ≤ turnScale := by norm_num [turnCos, turnScale]
  have q1 : |(turnSin : ℝ)| ≤ turnScale * (7 / 1000) := by norm_num [turnSin, turnScale]
  have M : (turnScale : ℝ) = 1000000000000000000 := by norm_num [turnScale]
  have k1 : |x * (turnScale * p - turnCos)| ≤ 1 * 1000000 := abs_mul_le x1 bc
  have k2 : |y * (turnScale * q - turnSin)| ≤ 1 * 1000000 := abs_mul_le y1 bs
  have k3 : |x * (turnScale * q - turnSin)| ≤ 1 * 1000000 := abs_mul_le x1 bs
  have k4 : |y * (turnScale * p - turnCos)| ≤ 1 * 1000000 := abs_mul_le y1 bc
  have k5 : |turnCos * (turnScale * x - c)| ≤ turnScale * e := abs_mul_le p1 hc
  have k6 : |turnSin * (turnScale * y - s)| ≤ turnScale * (7 / 1000) * e := abs_mul_le q1 hs
  have k7 : |turnCos * (turnScale * y - s)| ≤ turnScale * e := abs_mul_le p1 hs
  have k8 : |turnSin * (turnScale * x - c)| ≤ turnScale * (7 / 1000) * e := abs_mul_le q1 hc
  unfold Follows
  rw [Real.cos_add, Real.sin_add, ← hx, ← hy, ← hp, ← hq]
  unfold turnCosOf turnSinOf turnErrorOf
  push_cast at f1 f2 ⊢
  rw [abs_le] at k1 k2 k3 k4 k5 k6 k7 k8 f1 f2
  rw [M] at *
  refine ⟨abs_le.2 ⟨?_, ?_⟩, abs_le.2 ⟨?_, ?_⟩⟩ <;> nlinarith

/-- Every value of a list is the rounded sine of its step, going on from a pair and its error. -/
def roundsFrom (c s e : Int) : List Int → Bool
  | [] => true
  | t :: ts => decide (0 ≤ e ∧ |32768 * s - 2 * turnScale * t| + 32768 * e < turnScale)
      && roundsFrom (turnCosOf c s) (turnSinOf c s) (turnErrorOf e) ts

/-- A list that passes holds the rounded sines. -/
theorem roundsFrom_rounds (ts : List Int) : ∀ (a : ℝ) (c s e : Int), Follows a c s e → roundsFrom c s e ts = true →
    ∀ (k : Nat) (t : Int), ts[k]? = some t → |16384 * Real.sin (a + k * (Real.pi / 512)) - t| < 1 / 2 := by
  induction ts with
  | nil => intro a c s e _ _ k t h; simp at h
  | cons u us ih =>
    intro a c s e hf hr k t hk
    simp only [roundsFrom, Bool.and_eq_true, decide_eq_true_eq] at hr
    obtain ⟨⟨he, hu⟩, hus⟩ := hr
    cases k with
    | zero =>
      simp only [List.getElem?_cons_zero, Option.some.injEq] at hk
      subst hk
      have hs := abs_le.1 hf.2
      have hu' : |(32768 : ℝ) * s - 2 * turnScale * u| + 32768 * e < turnScale := by exact_mod_cast hu
      have hv := abs_lt.1 (lt_sub_iff_add_lt.2 hu')
      have M : (turnScale : ℝ) = 1000000000000000000 := by norm_num [turnScale]
      rw [M] at hs hv
      rw [Nat.cast_zero, zero_mul, add_zero, abs_lt]
      constructor <;> linarith [hs.1, hs.2, hv.1, hv.2]
    | succ k =>
      have := ih _ _ _ _ (follows_step a c s e he hf) hus k t (by simpa using hk)
      rwa [Nat.cast_succ, add_mul, one_mul, add_comm ((k : ℝ) * _), ← add_assoc]

/-- The table passes. -/
theorem sineTable_rounds : roundsFrom turnScale 0 0 sineTable = true := by decide +kernel

/-- Entry k of the table is within a half of 16384 times the sine of k steps (R4). -/
theorem sineEntry_close (k : Nat) (h : k ≤ 256) :
    |16384 * Real.sin ((k : ℝ) * (Real.pi / 512)) - sineEntry k| < 1 / 2 := by
  have hl : sineTable.length = 257 := by decide +kernel
  have hf : Follows 0 turnScale 0 0 := by simp [Follows]
  have := roundsFrom_rounds sineTable 0 _ _ _ hf sineTable_rounds k (sineEntry k) (by
    rw [sineEntry, List.getD_eq_getElem?_getD, List.getElem?_eq_getElem (by omega)]; rfl)
  rwa [zero_add] at this

end Sys2Proof.Laws
end

