-- ==== Sys2Proof/Tests/Slice0.lean ====
section
/-! SUPPORT. The session's own tests: ill-formed commands refused, worked cases of the spec, and for every statement a
state and operands that meet its hypotheses. -/

namespace Sys2Proof.Tests

open Sys2Proof Sys2Proof.Machine

-- One test after another: tests that wait for the kernel side by side would each hold a thread.
set_option Elab.async false

/-! ## Helpers: the machine of the spec's worked cases -/

/-- The subscription table of the tests. -/
def subs : List Subscription := [
  ⟨0, .boomAngle, 0x10, 0x101, 20, 5⟩, ⟨1, .armAngle, 0x11, 0x101, 20, 5⟩, ⟨2, .bucketAngle, 0x12, 0x101, 20, 5⟩,
  ⟨3, .slewAngle, 0x13, 0x102, 20, 5⟩, ⟨4, .engineState, 0x00, 0x110, 100, 5⟩,
  ⟨6, .hydraulicState, 0x05, 0x120, 50, 5⟩, ⟨7, .display, 0x28, 0x131, 500, 4⟩]

/-- No cut on any channel. -/
def noCuts : PerChannel (Option Nat) := PerChannel.tabulate fun _ => none

/-- The three rules of 4.9, without their sounds and notices. -/
def rules : List RuleSlot := [
  ⟨2, 0, 0x200, { RuleActions.none with
    cuts := { noCuts with boomDown := some 400, armIn := some 400 }, speedCap := some 1500 }⟩,
  ⟨9, 0x200, 0x207, { RuleActions.none with
    cuts := { noCuts with boomDown := some 200 }, pumpCap := some 80, idleInhibit := true }⟩,
  ⟨20, 0x480, 0x5C0, { RuleActions.none with cuts := { noCuts with slewLeft := some 500 }, speedCap := some 1600 }⟩]

/-- An image that every check accepts: the machine of 1.8, 3.9, 4.9, 5.9, 6.9 and 8.9. -/
def image : Image where
  nodeAddress := 0x2C
  bitRate := some .kbit250
  geometry := ⟨6500, 3200, 1700, 150, 1800, 0, 0, 40, 0⟩
  subscriptions := subs
  limits := ⟨⟨300, 0⟩, ⟨300, 0⟩, ⟨300, 0⟩, ⟨1000, 0⟩, ⟨0b000110, 0b001001, 0b001000, 0b010000, 0b100000⟩, -500, 500⟩
  holds := ⟨0b111110, 3000⟩
  channels := ⟨⟨true, 128, 8, 8, 0⟩, ⟨true, 128, 8, 8, 600⟩, ⟨true, 128, 8, 8, 400⟩, ⟨false, 0, 0, 0, 0⟩,
    ⟨true, 256, 8, 8, 1000⟩, ⟨true, 256, 8, 256, 1000⟩⟩
  zones := ⟨[-2000, 0, 3000, 6000], [4000, 7000, 9000], [-8192, 8192]⟩
  rules := rules
  defaultRule := RuleActions.none
  economy := ⟨1000, ⟨2000, 1850, 1700, 1500⟩, ⟨100, 90, 80, 60⟩, 20, 100, 3, 1000, 500, 0x00⟩
  service := ⟨-1000, 500, 5461, [⟨3, 0x12, some .engineHours, 500, 20, 10, true⟩], 7200⟩
  notices := ⟨List.replicate 16 (some .display), List.replicate 32 (some .caution, some .display), true, 10⟩
  defaults := ⟨⟨some ⟨-3200, 0, 6650⟩, none, none, some 8000, some (-8000)⟩, 1, 1, 4, 0⟩

/-- A read of that image, cut to the two bytes of its CRC. -/
def read : ImageRead := ⟨1, 2, 2, [0xFF, 0xFF], image⟩

/-- The machine in RUN with the image held, before any stream has been heard. -/
def run : State := { State.reset with
  cfg := { State.reset.cfg with node := .run, key := true, keyPin := true, statusTimer := some 1000 }
  image := some (rangeImage image)
  streams := newStreams image
  vch := emptyChannels (rangeImage image)
  svc := { Svc.reset with items := newItems image }
  link := { LinkUnit.reset with address := 0x2C, bitRate := some .kbit250 } }

/-- The same machine in another node state. -/
def at_ (n : NodeState) : State := { run with cfg := { run.cfg with node := n } }

/-- A state with one OPERATOR SETTING frame of one item at the head of the receive queue. -/
def withItem (s : State) (code : Nat) (v : Int) : State :=
  { s with link := { s.link with rx := [⟨0x130, 0xFF, 0x28, [1, byteOf code] ++ be2 v⟩], itemsTaken := 0 } }

/-- A state with one frame at the head of the receive queue. -/
def withFrame (s : State) (kind : BitVec 10) (source : Byte) (data : List Byte) : State :=
  { s with link := { s.link with rx := [⟨kind, 0xFF, source, data⟩], itemsTaken := 0 } }

/-- A state with another pose record. -/
def withPose (s : State) (p : PoseRecord) : State := { s with pose := { s.pose with record := p } }

/-- The pose of 1.8, with the slew of 3.10. -/
def pose18 : PoseRecord := ⟨6650, 1800, 6650, -1400, 6657, -3100, 18, .good, 0, 7000, true⟩

/-- A state with the limit set of a test. -/
def withLimits (s : State) (u : LimitSet) : State := { s with lim := { s.lim with set := u } }

/-- A state whose entry of a number is in a stream state, with a mailbox. -/
def withStream (s : State) (n : Nat) (st : StreamState) (m : Mailbox) : State :=
  { s with streams := s.streams.map fun e => if e.number = n then { e with state := st, mailbox := m } else e }

/-- The engine at a speed, heard now. -/
def engineAt (s : State) (speed : Nat) : State := withStream s 4 .fresh { Mailbox.empty with speed := speed, load := 50 }

/-- A hold table with its eight entries in use. -/
def full : HoldTable := ⟨(List.range 8).map fun n => ⟨BitVec.ofNat 8 n, 2, 300, 3000, 0⟩, none, none⟩

/-- The next state of a command, the state itself where it stops. -/
def go (c : Instr) (s : State) : State :=
  match exec c s with
  | .next t => t
  | .fault _ => s
  | .refused _ => s

/-! ## Ill-formed commands are refused -/

theorem test_good_image_read_is_well_formed : (Instr.imageReadDone (some read)).wellFormed = true := by decide
theorem test_no_image_read_is_well_formed : (Instr.imageReadDone none).wellFormed = true := by decide
theorem test_image_read_short_of_bytes_refused :
    (Instr.imageReadDone (some { read with length := 3 })).wellFormed = false := by decide
theorem test_image_read_too_long_is_well_formed :
    (Instr.imageReadDone (some { read with length := 4097 })).wellFormed = true := by decide
theorem test_subscription_number_12_refused :
    (Instr.imageReadDone (some { read with image := { image with
      subscriptions := [⟨12, .spare, 1, 1, 10, 3⟩] } })).wellFormed = false := by decide
theorem test_subscription_number_twice_refused :
    (Instr.imageReadDone (some { read with image := { image with
      subscriptions := [⟨1, .spare, 1, 1, 10, 3⟩, ⟨1, .display, 2, 1, 10, 3⟩] } })).wellFormed = false := by decide
theorem test_slot_32_refused :
    (Instr.imageReadDone (some { read with image := { image with
      rules := [⟨32, 0, 0, RuleActions.none⟩] } })).wellFormed = false := by decide
theorem test_slots_out_of_order_refused :
    (Instr.imageReadDone (some { read with image := { image with
      rules := [⟨3, 0, 0, RuleActions.none⟩, ⟨3, 0, 0, RuleActions.none⟩] } })).wellFormed = false := by decide
theorem test_eight_height_thresholds_refused :
    (Instr.imageReadDone (some { read with image := { image with
      zones := ⟨[1, 2, 3, 4, 5, 6, 7, 8], [], []⟩ } })).wellFormed = false := by decide
theorem test_eight_reach_thresholds_refused :
    (Instr.imageReadDone (some { read with image := { image with
      zones := ⟨[], [1, 2, 3, 4, 5, 6, 7, 8], []⟩ } })).wellFormed = false := by decide
theorem test_eight_slew_thresholds_refused :
    (Instr.imageReadDone (some { read with image := { image with
      zones := ⟨[], [], [1, 2, 3, 4, 5, 6, 7, 8]⟩ } })).wellFormed = false := by decide
theorem test_threshold_40000_refused :
    (Instr.imageReadDone (some { read with image := { image with zones := ⟨[40000], [], []⟩ } })).wellFormed = false
      ∧ (Instr.imageReadDone (some { read with image := { image with zones := ⟨[], [40000], []⟩ } })).wellFormed = false
      ∧ (Instr.imageReadDone (some { read with image := { image with zones := ⟨[], [], [-32769]⟩ } })).wellFormed = false := by
  decide
theorem test_detector_level_outside_16_bits_refused :
    (Instr.imageReadDone (some { read with image := { image with
      service := { image.service with digLevel := -32769 } } })).wellFormed = false
      ∧ (Instr.imageReadDone (some { read with image := { image with
        service := { image.service with liftLevel := 32768 } } })).wellFormed = false := by decide
theorem test_fifteen_service_routes_refused :
    (Instr.imageReadDone (some { read with image := { image with
      notices := { image.notices with serviceRoutes := List.replicate 15 none } } })).wellFormed = false := by decide
theorem test_31_rule_notices_refused :
    (Instr.imageReadDone (some { read with image := { image with
      notices := { image.notices with ruleNotices := List.replicate 31 (none, none) } } })).wellFormed = false := by decide
theorem test_record_of_127_bytes_refused :
    (Instr.recordReadDone (some (List.replicate 127 0))).wellFormed = false := by decide +kernel
theorem test_frame_of_65_bytes_refused :
    (Instr.frameReceived ⟨true, false, 0, List.replicate 65 0⟩).wellFormed = false := by decide
theorem test_entry_12_refused :
    (Instr.lateTimerExpiry 12).wellFormed = false ∧ (Instr.staleTimerExpiry 12).wellFormed = false
      ∧ (Instr.recoveryWindowExpiry 12).wellFormed = false ∧ (Instr.absenceWatchExpiry 12).wellFormed = false
      ∧ (Instr.lateTimerExpiry 11).wellFormed = true := by decide
theorem test_item_outside_1_to_16_refused :
    (Instr.reremindExpiry 0).wellFormed = false ∧ (Instr.reremindExpiry 17).wellFormed = false
      ∧ (Instr.reremindExpiry 16).wellFormed = true := by decide
theorem test_notice_id_256_refused :
    (Instr.escalationTimerExpiry 256).wellFormed = false ∧ (Instr.escalationTimerExpiry 255).wellFormed = true := by
  decide

/-! ## Tables and worked cases of the spec -/

/-- The check string of R189. -/
theorem test_crc_of_123456789 : crc [0x31, 0x32, 0x33, 0x34, 0x35, 0x36, 0x37, 0x38, 0x39] = 0x29B1 := by
  decide +kernel

/-- The sine table: 257 entries, neighbours 0 to 101 apart (R4). -/
theorem test_sine_table_shape :
    sineTable.length = 257 ∧ (List.range 256).all (fun i =>
      decide (0 ≤ sineEntry (i + 1) - sineEntry i ∧ sineEntry (i + 1) - sineEntry i ≤ 101)) = true := by decide +kernel

/-- The values under R7. -/
theorem test_sines_of_1_4 :
    [sine 0, sine 40, sine 8192, sine 16384, sine 49152, sine 49192] = [0, 63, 11585, 16384, -16384, -16384]
      ∧ [cosine 0, cosine 40, cosine 8192, cosine 16384, cosine 49152, cosine 49192]
        = [16384, 16384, 11585, 0, 0, 63] := by decide +kernel

/-- The pose of 1.8. -/
theorem test_pose_of_1_8 :
    computePoints image.geometry (pitch 0 0) (pitch 49152 0) (pitch 49152 40) PoseRecord.reset
      = { PoseRecord.reset with p1Reach := 6650, p1Height := 1800, p2Reach := 6650, p2Height := -1400,
                                p3Reach := 6657, p3Height := -3100 } := by decide +kernel

/-- The floor margins, states, cuts and cadences of 3.9. -/
theorem test_floor_of_3_9 :
    floorMargin ⟨-3200, 0, 0⟩ pose18 = 100 ∧ marginState 300 100 = .approach
      ∧ cutOf ⟨300, 0⟩ ⟨.approach, some 100⟩ = some 667 ∧ cadenceOf 300 100 = 333
      ∧ floorMargin ⟨-3200, -20, 5000⟩ pose18 = 134 ∧ cutOf ⟨300, 0⟩ ⟨.approach, some 134⟩ = some 554
      ∧ cadenceOf 300 134 = 412 := by decide +kernel

/-- The slew margins of 3.10. -/
theorem test_slew_of_3_10 :
    slewLeftMargin 6657 8000 7000 = 638 ∧ slewRightMargin 6657 (-8000) 7000 = 9573
      ∧ slewLeftMargin 6657 8000 8200 = -128 ∧ slewRightMargin 6657 (-8000) 8200 = 10339
      ∧ slewLeftMargin 11550 8000 8200 = -222 ∧ slewRightMargin 11550 (-8000) 8200 = 17938
      ∧ slewLeftMargin 11550 8000 7900 = 110 ∧ cadenceOf 1000 110 = 177 := by decide +kernel

/-- The lookups of 4.9: no pose, a deep tip, and a tip above with the slew beyond 45 degrees. -/
theorem test_lookup_of_4_9 :
    lookup rules 0 = 2 ∧ lookup rules 0x200 = 9 ∧ lookup rules 0x680 = 20 ∧ lookup rules 0x201 = 32 := by decide

/-- The release of 6.9, its first step and its last. -/
theorem test_release_of_6_9 :
    dutyOf 667 128 = 85
      ∧ (startPeriod ⟨true, 128, 8, 8, 0⟩ { ChannelRecord.reset .pass with limit := some 0, duty := 85 }).duty = 77
      ∧ (startPeriod ⟨true, 128, 8, 8, 0⟩ { ChannelRecord.reset .pass with limit := some 0, duty := 5 }).state = .pass := by
  decide

/-- The merge of 5.9 at 1411 ms and the clamped request at 1207 ms. -/
theorem test_hold_of_5_9 :
    (decideHold ⟨0b111110, 3000⟩ 1207 ⟨[], none, none⟩ ⟨0x41, 0b001111, 700, 4000, 5⟩).result = .clamped
      ∧ (decideHold ⟨0b111110, 3000⟩ 1207 ⟨[], none, none⟩ ⟨0x41, 0b001111, 700, 4000, 5⟩).mask = 0b001110
      ∧ (decideHold ⟨0b111110, 3000⟩ 1411 full ⟨0x7A, 0b001000, 900, 1200, 9⟩).table.overflow
        = some ⟨0b001000, 900, 1200⟩ := by decide

/-- The fuel of 7.10 at 20,100 ms and at 20,450 ms. -/
theorem test_fuel_of_7_10 :
    (addFuel 400 100 { Eco.reset with fuelTotal := 10000, fuelRem := 40000 }).fuelTotal = 10001
      ∧ (addFuel 400 100 { Eco.reset with fuelTotal := 10000, fuelRem := 40000 }).fuelRem = 8000 := by decide

/-- The points of the item of 8.9. -/
theorem test_item_of_8_9 :
    let i : ServiceItem := ⟨⟨3, 0x12, some .engineHours, 500, 20, 10, true⟩, 1440000, .ok, none⟩
    i.duePoint = 3240000 ∧ i.soonPoint = 3168000 ∧ i.overPoint = 3276000 ∧ i.stateAt 3167999 = .ok
      ∧ i.stateAt 3168000 = .dueSoon ∧ i.stateAt 3240000 = .due ∧ i.stateAt 3276000 = .overdue := by decide

/-- A block of the wrong length is no record. -/
theorem test_short_record_is_lost : judgeRecord (some []) = some .noAnswerOrCrc := by decide

/-- A power-on start and a KEY change, run whole. -/
theorem test_power_on_start : go .powerOnStart run = { State.reset with
    vch := emptyChannels run.img
    cfg := { State.reset.cfg with key := true, keyPin := true } } := by decide +kernel

/-- A step of an empty queue with nothing due is one microsecond. -/
theorem test_idle_step_is_a_microsecond : step State.reset = .next { State.reset with micros := 1 } := rfl

/-! ## A state and operands for the hypotheses of every statement -/

theorem witness_FrontCommandRuns : { run with pending := [.silence, .setFloor] }.pending = [.silence, .setFloor] := rfl

/-- An empty queue with nothing due, at the last microsecond of a millisecond too; a used channel's count in progress and at
its end; and the pose period due. -/
theorem witness_EveryCommandCompletes : State.reset.due = [] ∧ State.reset.pending = []
    ∧ { State.reset with micros := 999 }.due = [] ∧ run.due = [] ∧ run.cfg.node = .run
    ∧ (run.vch.get .boomDown).subCount + 1 < (run.img.channels.get .boomDown).countTime
    ∧ { run with pose := { run.pose with timer := some 0 } }.due = [.posePeriodExpiry]
    ∧ { run with pose := { run.pose with timer := some 0 } }.pending = [] := by decide +kernel

/-- A stream entry in a state, its timers counted from 0, at a time. -/
def streamAt (st : StreamState) (now : Ms) : State := { withStream run 0 st Mailbox.empty with now := now }

/-- The boom-down channel at a count, its output high, with a duty. -/
def counting (counter sub duty : Nat) : State := { run with vch := { run.vch with
  boomDown := { run.vch.boomDown with counter := counter, subCount := sub, duty := duty, pin := true } } }

/-- What is due, at its end and not before it: a timer that runs to 50; the entry's timers of 20 ms, in each of its states; the channel at
its duty and at the end of its period, where it waits for PERIOD_START; the frame and the items at the head. -/
theorem witness_EveryCommandCompletes_due :
    (∀ x ∈ [((49 : Ms), ([] : List Instr)), (50, [.keyDebounceExpiry])],
        { run with now := x.1, cfg := { run.cfg with statusTimer := none, debounce := some 50 } }.due = x.2)
      ∧ (∀ x ∈ [((40 : Ms), StreamState.fresh, ([] : List Instr)), (41, .fresh, [.lateTimerExpiry 0]), (100, .late, []),
            (101, .late, [.staleTimerExpiry 0]), (40, .recovering, []), (41, .recovering, [.recoveryWindowExpiry 0]), (101, .stale, [])],
          (streamAt x.2.1 x.1).due = x.2.2)
      ∧ (∀ x ∈ [(84, 0, ([] : List Instr)), (85, 0, [.dutyEnd .boomDown]), (127, 7, [.dutyEnd .boomDown])],
          (counting x.1 x.2.1 85).due = x.2.2)
      ∧ (counting 127 7 128).due = [] ∧ (counting 127 8 128).due = [.periodStart .boomDown]
      ∧ (withFrame run 0x101 0x10 [3, 0, 0]).due = [.streamFrameArrival]
      ∧ (withItem run 0x10 2).due = [.workMode] ∧ (withItem run 0x29 3).due = [.noticeAck]
      ∧ (withItem run 0x7F 2).due = [.settingItemUnknown] ∧ (at_ .quiet).due = [] := by decide +kernel

/-- The pin in either level, and the debounce running in JOIN, RUN, QUIET and STORE. -/
theorem witness_KeyMovesNode :
    true ≠ State.reset.cfg.keyPin
      ∧ ∀ n ∈ [NodeState.join, .run, .quiet, .store], ∀ pin ∈ [false, true],
        { (at_ n) with cfg := { (at_ n).cfg with debounce := some 50, keyPin := pin } }.cfg.debounce = some 50
          ∧ { (at_ n) with cfg := { (at_ n).cfg with debounce := some 50, keyPin := pin } }.cfg.node = n
          ∧ { (at_ n) with cfg := { (at_ n).cfg with debounce := some 50, keyPin := pin } }.cfg.keyPin = pin := by
  decide +kernel

/-- A node with frames of two kinds queued, one of them NODE STATUS, and an attempt on the wire of the first. -/
def laden (n : NodeState) (first : TxKind) : State := { at_ n with
  cfg := { (at_ n).cfg with debounce := some 50, keyPin := n == .quiet }
  link := { run.link with
    onWire := true
    normal := [⟨.pose, 0xFF, [0], 0, first == .pose, none⟩]
    background := [⟨.nodeStatus, 0xFF, [], 0, first == .nodeStatus, none⟩] } }

/-- The key off in JOIN, with an attempt of NODE STATUS and one of another kind, and the key on in QUIET (R185, R193). -/
theorem test_entry_to_QUIET_of_R185 : ∀ k ∈ [TxKind.nodeStatus, .pose],
    let t := go .keyDebounceExpiry (laden .join k)
    t.cfg.node = .quiet ∧ t.cfg.joinTimer = none ∧ t.cfg.statusTimer = some 5050 ∧ t.link.normal = []
      ∧ t.link.background.map (·.kind) = [.nodeStatus] ∧ t.link.onWire = (k == .nodeStatus)
      ∧ (go .keyDebounceExpiry (laden .quiet k)).cfg.node = .join
      ∧ (go .keyDebounceExpiry (laden .quiet k)).cfg.joinTimer = some 250 := by decide +kernel

/-- RUN with the key just off, with no record write in flight and with one. -/
theorem witness_LeavingRunStops : ∀ w ∈ [none, some (⟨[], 50⟩ : RecordWrite)],
    let s : State := { run with cfg := { run.cfg with debounce := some 50, keyPin := false }
                                svc := { run.svc with write := w } }
    s.cfg.node = .run ∧ s.cfg.debounce = some 50 ∧ s.cfg.keyPin = false ∧ s.svc.write = w := by decide +kernel

/-- Reads that are accepted, unanswered, refused by the first and the last check, and one that fails three checks. -/
theorem witness_ImageReadJudged : State.reset.cfg.node = .startRead ∧ judgeImage (some read) = none
    ∧ judgeImage none = some .crc ∧ judgeImage (some { read with length := 4097 }) = some .crc
    ∧ judgeImage (some { read with image := { image with service := { image.service with minSwing := 0 } } })
      = some .service
    ∧ judgeImage (some { read with version := 2, image := { image with
        subscriptions := [], service := { image.service with minSwing := 0 } } }) = some .version := by decide +kernel

/-- Refused images: no read, one whose address and bit rate are allowed, one at the last address and one past it, one with no bit rate;
and a channel that is used and one that is not. -/
theorem witness_ImageReadJudged_bus :
    (∀ x ∈ [(0xFD, some BitRate.kbit500), (0xFE, some .kbit500), (0x2C, none)],
        judgeImage (some { read with version := 2, image := { image with nodeAddress := x.1, bitRate := x.2 } }) = some .version)
      ∧ (0xFD : Nat) ≤ 0xFD ∧ 0xFD < (0xFE : Nat) ∧ (image.channels.get .boomUp).used = true
      ∧ (image.channels.get .armOut).used = false := by decide +kernel

theorem witness_AcceptedImageIsSound : judgeImage (some read) = none := by decide +kernel

/-- A record body of 126 zero bytes but for the profile byte. -/
def body (profile : Byte) : List Byte := List.replicate 106 0 ++ profile :: List.replicate 19 0

/-- The block of that body. -/
def block (profile : Byte) : List Byte := body profile ++ be2 ((crc (body profile)).toNat : Int)

/-- The block is accepted, whatever the profile byte. -/
theorem block_accepted (p : Byte) : judgeRecord (some (block p)) = none := by
  have hc : crcHolds (block p) = true := crcHolds_append (body p)
  have hl : (block p).length = 128 := by simp [block, body, be2_length]
  have h0 : ∀ n, n < 106 → byteAt (block p) n = 0 := by
    intro n hn
    have hb : n < (body p).length := by simp [body]; omega
    have hr : n < (List.replicate 106 (0 : Byte)).length := by simpa using hn
    rw [block, byteAt_append_left _ _ _ hb, body, byteAt_append_left _ _ _ hr]
    simp only [byteAt, List.getD_eq_getElem?_getD, List.getElem?_replicate]
    split <;> rfl
  simp [judgeRecord, hc, hl, readRecord, u32At, u16At, h0, engineLimit]

/-- RECORD_READ with the key on and off; an accepted block with the profile byte 3 and with 4, and a lost record. -/
theorem witness_RecordReadTaken :
    (at_ .recordRead).cfg.node = .recordRead ∧ (at_ .recordRead).cfg.key = true
      ∧ { State.reset with cfg := { State.reset.cfg with node := .recordRead } }.cfg.key = false
      ∧ judgeRecord (some (block 3)) = none ∧ judgeRecord (some (block 4)) = none ∧ judgeRecord none ≠ none
      ∧ (byteAt (block 3) 106).toNat ≤ 3 ∧ ¬ (byteAt (block 4) 106).toNat ≤ 3 :=
  ⟨rfl, rfl, rfl, block_accepted 3, block_accepted 4, by decide, by decide, by decide⟩

/-- The counts, remainders and limits at the ends of their ranges. -/
def extreme : State := { State.reset with
  svc := { Svc.reset with engineSeconds := 357913941, weighted := 4294967292, cycles := 4294967295,
                          unaccounted := 4294967295, items := [⟨⟨16, 0, some .cycles, 1, 0, 0, false⟩, 4294967295, .ok, none⟩] }
  eco := { Eco.reset with fuelRem := 71999, gapRem := 999, delay := 30 }
  rule := { State.reset.rule with profile := 3 }
  lim := { State.reset.lim with set := ⟨some ⟨10000, -32768, 32767⟩, some 20000, some 30000, some 32767, some (-32768)⟩ } }

theorem extreme_counts : CountsInBand extreme := by unfold CountsInBand; decide +kernel
theorem extreme_fuel : FuelInRange extreme := by unfold FuelInRange; decide +kernel
theorem extreme_settings : SettingsLegal extreme := by unfold SettingsLegal; decide +kernel

theorem witness_RecordReadsBack : CountsInBand extreme ∧ FuelInRange extreme ∧ SettingsLegal extreme
    ∧ (∀ i ∈ extreme.svc.items, i.lastDone < 4294967296)
    ∧ (∀ f ∈ extreme.lim.set.floor, -32768 ≤ f.s ∧ f.s ≤ 32767 ∧ -32768 ≤ f.r0 ∧ f.r0 ≤ 32767)
    ∧ (∀ l ∈ extreme.lim.set.slewLeft, -32768 ≤ l ∧ l ≤ 32767)
    ∧ (∀ l ∈ extreme.lim.set.slewRight, -32768 ≤ l ∧ l ≤ 32767) :=
  ⟨extreme_counts, extreme_fuel, extreme_settings, by decide +kernel⟩

theorem witness_JoinTimerEntersRun :
    { (at_ .join) with cfg := { (at_ .join).cfg with joinTimer := some 200 } }.cfg.joinTimer = some 200
      ∧ (at_ .join).rule.key = none ∧ (run.img.channels.get .boomDown).used = true
      ∧ (run.img.channels.get .armOut).used = false := by decide +kernel

/-- A JOIN in which the slew has been heard: the entry to RUN brings the left slew limit from FAULT to CLEAR. -/
theorem witness_JoinTimerEntersRun_reports :
    let s := withStream (withLimits (at_ .join) ⟨none, none, none, some 8000, none⟩) 3 .fresh Mailbox.empty
    (restLim s.lim).records.slewLeft.state = .fault ∧ (s.evaluateLimit .slewLeft).state = .clear := by decide +kernel

/-- The machine about to raise what stands at the entry to RUN: stream faults, a clash, a lost record. -/
def faulted : State := { run with
  cfg := { run.cfg with recordLost := some .noAnswerOrCrc }
  streams := run.streams.map fun e => { e with faultCause := some .absent }
  link := { run.link with clashMark := some (0x101, 0xFF) } }

theorem faulted_ordered : NoticesOrdered faulted := by unfold NoticesOrdered; decide +kernel

/-- What is raised at the entry to RUN, and what is not without a cause; every item OK, and one that is DUE. -/
theorem witness_JoinTimerEntersRun_raises : NoticesOrdered faulted ∧ faulted.cfg.node = .run ∧ faulted.image.isSome = true
    ∧ (faulted.streams.map (·.number)).Nodup ∧ (∀ e ∈ faulted.streams, e.number < 12 ∧ e.faultCause = some .absent)
    ∧ faulted.link.clashMark = some (0x101, 0xFF) ∧ run.link.clashMark = none
    ∧ faulted.cfg.recordLost = some .noAnswerOrCrc ∧ run.cfg.recordLost = none
    ∧ (∀ i ∈ run.svc.items, i.stateAt (run.svc.reading i) = .ok ∧ i.config.number = 3) ∧ derateOf run.svc.items = run.svc.derate
    ∧ (run.svc.items.map (·.config.number)).Nodup
    ∧ ({ run.svc with engineSeconds := 1800000 } : Svc).items.map
        (fun i => itemSeverity (i.stateAt ({ run.svc with engineSeconds := 1800000 } : Svc).engineSeconds)) = [some .caution] :=
  ⟨faulted_ordered, by decide +kernel⟩

/-- RUN with the timers of every block running. -/
def timed : State := { run with
  pose := { run.pose with timer := some 20 }
  lim := { run.lim with statusTimer := some 100 }
  hold := { run.hold with quantumTimer := some 10 }
  eco := { run.eco with delayTimer := some 4000, recoveryTimer := some 3000, yieldTimer := some 1000,
                        requestTimer := some 100, secondTimer := some 1000, reportTimer := some 10000, state := .work }
  svc := { run.svc with secondTimer := some 1000, summaryTimer := some 10000 }
  ntc := { run.ntc with summaryTimer := some 1000, settleTimer := some 2000 }
  snd := { run.snd with silence := some 30000 } }

/-- A class BACKGROUND or NORMAL with one place left. -/
def seven : List TxFrame := List.replicate 7 ⟨.notice, 0xFF, [], 0, false, none⟩

/-- RUN with one place left in two classes. -/
def nearlyFull : State := { timed with link := { timed.link with normal := seven, background := seven } }

theorem witness_ReportTimersReport : timed.cfg.statusTimer = some 1000 ∧ timed.lim.statusTimer = some 100
    ∧ timed.ntc.summaryTimer = some 1000 ∧ timed.svc.summaryTimer = some 10000 ∧ timed.eco.reportTimer = some 10000
    ∧ (∀ k ∈ [TxKind.nodeStatus, .limitStatus, .noticeSummary, .serviceSummary, .economyReport],
        takesOffer nearlyFull.cfg.node k = true)
    ∧ nearlyFull.link.background.length < 8 := by decide +kernel

/-- The machine in CONFIG_FAULT after a read of no image; an entry and none; a silence with none, running and over; two items of
which the first has the lower number, and none; and the grant heard and not assigned. -/
theorem witness_ReportTimersReport_layout :
    let f := go (.imageReadDone none) State.reset
    let s := { timed with svc := { timed.svc with items := [
      ⟨⟨3, 0x12, some .engineHours, 500, 20, 10, true⟩, 0, .ok, none⟩, ⟨⟨4, 0, some .cycles, 1, 0, 0, false⟩, 0, .ok, none⟩] } }
    (f.cfg.node = .configFault ∧ f.cfg.fault = some .crc ∧ f.streams = [] ∧ f.svc = Svc.reset ∧ f.cfg.recordLost = none)
      ∧ run.cfg.node ≠ .configFault ∧ (run.entry 0).isSome = true ∧ run.entry 5 = none
      ∧ run.ntc.queue.length ≤ 8 ∧ run.snd.silence = none
      ∧ timed.snd.silence = some 30000 ∧ reached timed.now 30000 = false ∧ elapsed 30000 timed.now ≤ 1000 * 30
      ∧ 1000 * 30 < elapsed 30000 timed.now + 1000 ∧ reached 30000 30000 = true
      ∧ (s.svc.items.map (·.config.number)).Nodup
      ∧ (∀ i ∈ s.svc.items.take 1, ∀ x ∈ s.svc.items, i.share s.svc < x.share s.svc
          ∨ i.share s.svc = x.share s.svc ∧ i.config.number ≤ x.config.number)
      ∧ Svc.reset.items = [] ∧ run.stream .engineGrant = none := by decide +kernel

/-- Positions and angles at the ends of their ranges. -/
theorem witness_sine_ranges : (16384 : Nat) ≤ 16384 ∧ (256 : Nat) ≤ 256 ∧ (65535 : Nat) < 65536
    ∧ (3 : Nat) < 4 ∧ (16383 : Nat) < 16384 := by decide

/-- The longest and the shortest links, and the foot pin at both ends. -/
theorem witness_PointsOfPose : ∀ g ∈ [(⟨15000, 12500, 500, 2000, 4000, 0, 0, 0, 0⟩ : Geometry), ⟨500, 500, 500, -2000, 0, 0, 0, 0, 0⟩],
    500 ≤ g.l1 ∧ 500 ≤ g.l2 ∧ 500 ≤ g.l3 ∧ g.l1 + g.l2 + g.l3 ≤ 28000 ∧ -2000 ≤ g.xf ∧ g.xf ≤ 2000 ∧ 0 ≤ g.zf
      ∧ g.zf ≤ 4000 := by decide

/-- The three link entries in a stream state, the bucket's with a node status. -/
def links (st : StreamState) (n : NodeReport) : State :=
  withStream (withStream (withStream timed 0 .fresh Mailbox.empty) 1 .fresh Mailbox.empty) 2 st { Mailbox.empty with status := n }

/-- The pose period timer runs; each of the four qualities has its state. -/
theorem witness_PosePeriodComputes : timed.pose.timer = some 20
    ∧ (links .fresh .ok).quality = .good ∧ (links .late .ok).quality = .held
    ∧ (links .fresh .degraded).quality = .degraded ∧ (links .stale .ok).quality = .invalid
    ∧ (links .fresh .failed).quality = .invalid := by decide +kernel

/-- The frames of a computation: an even and an odd sequence, thinning off and on; limits in OFF, in FAULT and measured. -/
theorem witness_PosePeriodComputes_frames : run.cfg.node = .run ∧ run.link.thinning = false
    ∧ { run.link with thinning := true }.thinning = true ∧ (withPose run pose18).pose.record.sequence.toNat % 2 = 0
    ∧ (withPose run { pose18 with sequence := 19 }).pose.record.sequence.toNat % 2 = 1
    ∧ run.lim.records.floor.state = .off
    ∧ ((withLimits run ⟨some ⟨0, 0, 0⟩, none, none, none, none⟩).evaluateLimit .floor) = ⟨.fault, none⟩
    ∧ ((withPose (withLimits run ⟨some ⟨-3200, 0, 0⟩, none, none, none, none⟩) pose18).evaluateLimit .floor)
      = ⟨.approach, some 100⟩ := by decide +kernel

/-- A frame of the boom sensor to every station. -/
def boomFrame (data : List Byte) : BusFrame := ⟨true, false, 0xD01FF10, data⟩

/-- A queue of sixteen frames of a role. -/
def sixteen : List RxFrame := List.replicate 16 ⟨0x101, 0xFF, 0x10, [0, 0, 0]⟩

/-- The frame's fields; then the part's own address, another station's, a full queue and one with a place left, a frame of
nobody and a short one. -/
theorem witness_FrameReceivedJudged :
    rxOfBus (boomFrame []) = ⟨0x101, 0xFF, 0x10, []⟩ ∧ receivesIn run.cfg.node = true
      ∧ receivesIn State.reset.cfg.node = false
      ∧ (rxOfBus ⟨true, false, 0xD01FF2C, []⟩).source = run.link.address
      ∧ (rxOfBus ⟨true, false, 0xD013310, []⟩).destination ≠ run.link.address
      ∧ sixteen.length = 16
      ∧ (∀ h ∈ (run.link.rx ++ [rxOfBus (boomFrame [])]).head?, rxOwner run.streams h = .stm)
      ∧ run.link.rx = [] ∧ rxOwner run.streams (rxOfBus ⟨true, false, 0xFFFFF10, []⟩) = .nobody
      ∧ rxOwner run.streams (rxOfBus ⟨true, false, 0xD40FF42, [0, 0, 0, 0, 0]⟩) = .tooShort
      ∧ rxOwner run.streams (rxOfBus ⟨true, false, 0xD40FF42, [0, 0, 0, 0, 0, 0]⟩) = .hold
      ∧ rxOwner run.streams (rxOfBus ⟨true, false, 0xD30FF28, [0, 0, 0, 0]⟩) = .setting
      ∧ itemCount (rxOfBus ⟨true, false, 0xD30FF28, [0, 0, 0, 0]⟩) = 0 := by decide +kernel

/-- A clash in every state that receives; in RUN with no notice held. -/
theorem witness_FrameReceivedJudged_clash : NoticesOrdered faulted ∧ faulted.image.isSome = true
    ∧ (∀ n ∈ [NodeState.recordRead, .join, .run, .store, .quiet], receivesIn n = true
        ∧ (rxOfBus ⟨true, false, 0xD01FF2C, []⟩).source = (at_ n).link.address) ∧ faulted.cfg.node = .run :=
  ⟨faulted_ordered, by decide +kernel⟩

/-- JOIN, RUN and a state that is neither, with a frame; and the entry of the boom frame at the head, short by a byte and of the least length, a repeat and
another value, in every stream state. -/
theorem witness_StreamArrivalTaken :
    (withFrame run 0x101 0x10 [3, 0]).headFor .stm = some ⟨0x101, 0xFF, 0x10, [3, 0]⟩
      ∧ (matchingEntry run.streams ⟨0x101, 0xFF, 0x10, [3, 0]⟩).map (·.number) = some 0
      ∧ ((withFrame (at_ .quiet) 0x101 0x10 [3, 0, 0]).cfg.node = .quiet)
      ∧ ((withFrame { at_ .quiet with streams := run.streams } 0x101 0x10 [3, 0, 0]).headFor .stm).isSome = true
      ∧ (at_ .join).cfg.node = .join ∧ roleLength .boomAngle = 3 ∧ payloadSeq [3, 0, 0] = 3 ∧ payloadSeq [4, 0, 0] = 3 + 1
      ∧ (∀ st ∈ [StreamState.neverSeen, .fresh, .late, .stale, .recovering],
          ((withStream run 0 st Mailbox.empty).entry 0).map (·.state) = some st)
      ∧ ¬ 2 * 20 + 1 < elapsed 41 0 ∧ 2 * 20 + 1 < elapsed 42 0 := by decide +kernel

/-- A second arrival at the instant at which its recovery window ends, the arrival taken first: FRESH. A millisecond later it
begins a recovery anew. -/
theorem test_recovery_of_R32 : ∀ x ∈ [((41 : Ms), StreamState.fresh), (42, .recovering)],
    ((go .streamFrameArrival (withFrame { withStream run 0 .recovering Mailbox.empty with now := x.1 } 0x101 0x10 [3, 0, 0])).entry
      0).map (·.state) = some x.2 := by decide +kernel

/-- A boom frame that reports FAILED raises its notice with that cause, and one that reports OK clears it (R35). -/
theorem test_fault_notice_of_R35 :
    let failed := go .streamFrameArrival (withFrame run 0x101 0x10 [0x20, 0, 0])
    let mended := go .streamFrameArrival (withFrame failed 0x101 0x10 [0x01, 0, 0])
    (failed.entry 0).map (·.faultCause) = some (some .failed)
      ∧ failed.ntc.held.map (fun r => (r.id, r.detail)) = [(0x20, .stream .failed)]
      ∧ (mended.entry 0).map (·.faultCause) = some none ∧ mended.ntc.held = [] := by decide +kernel

/-- An ENGINE GRANT arrival in JOIN: ECO holds the grant at once. -/
theorem test_grant_in_join :
    let e := newStream ⟨5, .engineGrant, 0x00, 0x111, 500, 3⟩
    (go .streamFrameArrival (withFrame { (at_ .join) with streams := [e] } 0x111 0x00 [0, 0x2C, 0, 0])).eco.grant = .own := by
  decide +kernel

/-- RUN with the absence watches running. -/
def watched : State := { run with streams := run.streams.map (runEntry 0) }

/-- An entry in each timed state, in JOIN, RUN and QUIET reached from JOIN, and one with its absence watch running. -/
theorem witness_StreamTimersAge :
    (∀ n ∈ [NodeState.join, .run, .quiet], ∀ e ∈ (at_ n).streams, (at_ n).timersRun e = true)
    ∧ (∀ e ∈ run.streams.map freezeEntry, (at_ .quiet).timersRun e = false)
    ∧ (∀ st ∈ [StreamState.fresh, .late, .recovering],
        ((withStream run 0 st Mailbox.empty).entry 0).map (·.state) = some st)
    ∧ (watched.entry 0).map (·.state) = some .neverSeen ∧ (watched.entry 0).map (·.absence) = some (some 100) := by
  decide +kernel

/-- A FRESH entry turns LATE and then STALE in QUIET reached from JOIN, and its late timer is stopped once RUN has been left
(R28, R39; log 41). -/
theorem test_quiet_of_R28 :
    let s := withStream (at_ .quiet) 0 .fresh Mailbox.empty
    let l := go (.lateTimerExpiry 0) s
    (l.entry 0).map (·.state) = some .late ∧ ((go (.staleTimerExpiry 0) l).entry 0).map (·.state) = some .stale
      ∧ (go (.staleTimerExpiry 0) l).ntc.held = []
      ∧ ((go (.lateTimerExpiry 0) { s with streams := s.streams.map freezeEntry }).entry 0).map (·.state) = some .fresh := by
  decide +kernel

/-- A floor, a reach and a height at the ends of what the part can hold; a usable pose with each limit present. -/
theorem witness_MarginsOfPose :
    (0 : Int) ≤ (⟨10000, 500, -32768⟩ : Floor).s ∧ (-20000 : Int) ≤ 10000 ∧ (500 : Int) ≤ 500 ∧ (-32768 : Int) ≤ 32767
      ∧ (withPose (withLimits run ⟨some ⟨0, 0, 0⟩, some 1, some 2, none, none⟩) pose18).poseUsable = true
      ∧ (withLimits run ⟨some ⟨0, 0, 0⟩, some 1, some 2, none, none⟩).lim.set.floor = some ⟨0, 0, 0⟩
      ∧ (withLimits run ⟨some ⟨0, 0, 0⟩, some 1, some 2, none, none⟩).lim.set.ceiling = some 1
      ∧ (withLimits run ⟨some ⟨0, 0, 0⟩, some 1, some 2, none, none⟩).lim.set.reach = some 2
      ∧ (withStream (withLimits run ⟨none, none, none, some 1820, some 0⟩) 3 .fresh Mailbox.empty).slewValid = true
      ∧ (withLimits run ⟨none, none, none, some 1820, some 0⟩).lim.set.slewLeft = some 1820
      ∧ (withLimits run ⟨none, none, none, some 1820, some 0⟩).lim.set.slewRight = some 0 ∧ run.slewValid = false
      ∧ (1000 : Int) ≤ 30000 ∧ (-32768 : Int) < 0 := by decide +kernel

/-- A band at its least with margins at the edges of the three states. -/
theorem witness_LimitStatesAndCuts : (100 : Int) ≤ 100 ∧ (0 : Int) ≤ 200 ∧ marginState 100 100 = .clear
    ∧ marginState 100 99 = .approach ∧ marginState 100 1 = .approach ∧ marginState 100 0 = .stop := by decide

/-- Each limit absent; present with its basis unusable; and present with a margin. -/
theorem witness_LimitStatesAndCuts_evaluated :
    let u : LimitSet := ⟨some ⟨0, 0, 0⟩, some 5000, some 9000, some 8000, some (-8000)⟩
    (∀ l ∈ Limit.all, run.lim.set.has l = false ∧ u.has l = true ∧ (withLimits run u).evaluateLimit l = ⟨.fault, none⟩
      ∧ ((withStream (withPose (withLimits run u) pose18) 3 .fresh Mailbox.empty).marginOf l).isSome = true)
      ∧ (withLimits run u).poseUsable = false ∧ (withLimits run u).slewValid = false
      ∧ (withPose run pose18).poseUsable = true ∧ (withStream run 3 .fresh Mailbox.empty).slewValid = true := by decide +kernel

/-- Each item's code is read from the frame at the head, in RUN, with its value at an end of its range. -/
theorem witness_items_read : ∀ c ∈ [0x01, 0x02, 0x03, 0x04, 0x05, 0x06, 0x07, 0x08, 0x09, 0x0A, 0x0B, 0x0C, 0x0D,
    0x10, 0x11, 0x12, 0x18, 0x20, 0x28, 0x29, 0x2A], ∀ v ∈ [(-32768 : Int), 0, 3, 4, 32767],
    (withItem run c v).itemFor c = some ⟨0x28, c, v⟩ ∧ (withItem run c v).cfg.node = .run := by decide +kernel

/-- FLOOR against a ceiling 499 and 500 above it, with and without a usable pose, with and without a floor. -/
theorem witness_FloorItems :
    (withItem (withLimits run ⟨none, some 1499, none, none, none⟩) 0x01 1000).itemFor 0x01 = some ⟨0x28, 1, 1000⟩
      ∧ clampInt (-20000) 10000 1000 + 500 > 1499 ∧ clampInt (-20000) 10000 1000 + 500 ≤ 1500
      ∧ clampInt (-20000) 10000 10001 = 10000 ∧ run.poseUsable = false ∧ (withPose run pose18).poseUsable = true
      ∧ run.lim.set.floor = none ∧ extreme.lim.set.floor = some ⟨10000, -32768, 32767⟩
      ∧ clampInt run.img.limits.slopeMin run.img.limits.slopeMax 501 = 500 := by decide +kernel

/-- CEILING against a floor 499 and 500 below it, and both ends of the reach. -/
theorem witness_CeilingAndReachItems :
    (withItem (withLimits run ⟨some ⟨1000, 0, 0⟩, none, none, none, none⟩) 0x05 1499).itemFor 0x05 = some ⟨0x28, 5, 1499⟩
      ∧ clampInt (-5000) 20000 1499 < 1000 + 500 ∧ 1000 + 500 ≤ clampInt (-5000) 20000 1500
      ∧ clampInt 1000 30000 999 = 1000 ∧ clampInt 1000 30000 30001 = 30000 := by decide +kernel

/-- The slew sector at 1819 and 1820, and the HERE items with the slew valid and not. -/
theorem witness_SlewItems :
    (withLimits run ⟨none, none, none, some 1820, some 1⟩).lim.set.slewRight = some 1
      ∧ (1820 : Int) - 1 < 1820 ∧ (1820 : Int) ≤ 1821 - 1 ∧ run.slewValid = false
      ∧ (withStream run 3 .fresh Mailbox.empty).slewValid = true
      ∧ (withItem (withStream run 3 .fresh Mailbox.empty) 0x0B 0).itemFor 0x0B = some ⟨0x28, 11, 0⟩
      ∧ (withItem run 0x0C 0).itemFor 0x0C = some ⟨0x28, 12, 0⟩ := by decide +kernel

theorem witness_LimitItemsFrame : ∀ x ∈ limitItems, ∃ t, exec x.2 run = .next t := by
  intro x hx
  simp only [limitItems, List.mem_cons, List.not_mem_nil, or_false] at hx
  rcases hx with h | h | h | h | h | h | h | h | h | h | h | h | h <;> subst h <;> exact ⟨_, rfl⟩

/-- Every answered item at the head in JOIN and in STORE, the acknowledgement, and a code that names no setting. -/
theorem witness_SettingItemsRefused :
    (∀ x ∈ answeredItems, ∀ n ∈ [NodeState.join, .store],
        (withItem (at_ n) x.1 0).itemFor x.1 = some ⟨0x28, x.1, 0⟩)
      ∧ (withItem (at_ .store) 0x29 3).itemFor 0x29 = some ⟨0x28, 0x29, 3⟩
      ∧ (withItem run 0x55 0).nextItem = some ⟨0x28, 0x55, 0⟩ ∧ (0x55 : Nat) ∉ settingCodes
      ∧ takesOffer run.cfg.node .settingResponse = true := by decide +kernel

/-- A mask that holds a channel; limits in STOP, in FAULT and in neither. -/
theorem witness_StopAndFaultCut :
    (run.img.limits.masks.get .ceiling).getLsbD Channel.boomUp.num = true
      ∧ ((withPose (withLimits run ⟨none, some 1800, none, none, none⟩) pose18).evaluateLimit .ceiling).state = .stop
      ∧ ((withLimits run ⟨none, some 1800, none, none, none⟩).evaluateLimit .ceiling).state = .fault
      ∧ (run.evaluateLimit .ceiling).state = .off
      ∧ ((withPose (withLimits run ⟨none, some 2000, none, none, none⟩) pose18).evaluateLimit .ceiling)
        = ⟨.approach, some 200⟩ ∧ run.image.isSome = true
      ∧ (run.lim.records.get .ceiling).state ≠ .stop := by decide +kernel

/-- The slew entry in RUN. -/
theorem witness_StopAndFaultCut_slew : run.cfg.node = .run ∧ (run.stream .slewAngle).map (·.role) = some .slewAngle := by
  decide +kernel

/-- Each zone with its basis usable and not. -/
theorem witness_ZoneKeyFields_zones :
    (withPose run pose18).poseUsable = true ∧ (withPose run pose18).heightZone = 0 ∧ (withPose run pose18).reachZone = 1
      ∧ (withPose run { pose18 with p3Height := -2000 }).heightZone = 1
      ∧ (withStream run 3 .fresh Mailbox.empty).slewValid = true ∧ (withStream run 3 .fresh Mailbox.empty).slewZone = 1 := by
  decide +kernel

theorem witness_ZoneKeyFields : run.poseUsable = false ∧ run.slewValid = false ∧ run.img.zones.height.length ≤ 7
    ∧ run.img.zones.reach.length ≤ 7 ∧ [(1 : Int), 2, 3, 4, 5, 6, 7].length ≤ 7 ∧ extreme.rule.profile ≤ 3 := by
  decide +kernel

/-- Slots in order; a key that none matches, and one that two match, the higher winning. -/
theorem witness_LookupTakesHighest : rules.Pairwise (fun a b => a.index < b.index)
    ∧ (∀ r ∈ rules, slotMatches 0x201 r = false) ∧ lookup rules 0x680 = 20
    ∧ (∀ r ∈ rules, slotMatches 0x680 r = true → r.index ≤ 20) := by decide +kernel

/-- The default winner, looked up again and replaced. -/
theorem witness_WinnerChangeReplaces :
    let s : State := { run with rule := { run.rule with winner := some 32 } }
    s.cfg.node = .run ∧ s.rule.winner = some (lookup s.img.rules 0x201) ∧ s.rule.winner ≠ some (lookup s.img.rules 0) := by
  decide +kernel

/-- RUN with a table of two rules that sound and raise notices, and the higher one winning. -/
def sounding : State := { run with
  image := some { run.img with rules := [
    ⟨2, 0, 0x200, { RuleActions.none with sound := some (some .cadence500), notice := true }⟩,
    ⟨9, 0x200, 0x207, { RuleActions.none with sound := some (some .oneShotLong), notice := true }⟩] }
  rule := { run.rule with key := some run.zoneKey, winner := some 9 } }

/-- The key held and another; a winner with a sound and a notice replaced by another; a class 2 one-shot with nothing of
another class playing. -/
theorem witness_WinnerChangeReplaces_signals : sounding.cfg.node = .run ∧ sounding.rule.key = some sounding.zoneKey
    ∧ run.rule.key ≠ some run.zoneKey ∧ lookup sounding.img.rules 0 = 2 ∧ sounding.rule.winner ≠ some 2
    ∧ soundOf (sounding.actions 2) = some .cadence500 ∧ soundOf (sounding.actions 9) = some .oneShotLong
    ∧ (sounding.actions 2).notice = true ∧ (sounding.actions 9).notice = true ∧ sounding.image.isSome = true
    ∧ sounding.snd.class1 = false ∧ sounding.snd.playing = .nothing := by decide +kernel

theorem sounding_ordered : NoticesOrdered sounding := by unfold NoticesOrdered; decide +kernel

/-- SET_PROFILE with values on both sides of the range, and with the held profile. -/
theorem witness_SetProfileItem : ∀ v ∈ [(-1 : Int), 0, 3, 4],
    (withItem extreme 0x18 v).rule.profile = 3 ∧ (withItem run 0x18 v).itemFor 0x18 = some ⟨0x28, 0x18, v⟩ := by
  decide +kernel

/-- A level at both ends, a mask with nothing holdable, a requester with an entry, and a table with seven and with eight. -/
theorem witness_HoldDecision :
    ((0b000001 : Mask) &&& 0b111110 = 0) ∧ ((0b000010 : Mask) &&& 0b111110 ≠ 0) ∧ (1 : Nat) ≤ 1 ∧ (1000 : Nat) ≤ 1000
      ∧ full.entries.length = 8 ∧ (full.entryOf 3).isSome = true ∧ full.entryOf 9 = none ∧ (full.entries.drop 1).length < 8
      ∧ { full with overflow := some ⟨2, 1, 1⟩ }.overflow = some ⟨2, 1, 1⟩ := by decide +kernel

/-- A request at the head from a station, and from the two addresses that get nothing. -/
theorem witness_HoldRequestTaken : ∀ a ∈ [(0x42 : Byte), 0xFD, 0xFE, 0xFF], ∀ n ∈ [NodeState.run, .join, .store],
    (withFrame (at_ n) 0x140 a [2, 3, 0xE8, 0, 5, 7]).headFor .hold = some ⟨0x140, 0xFF, a, [2, 3, 0xE8, 0, 5, 7]⟩ := by
  decide +kernel

/-- A first entry placed in an empty table, the last one released, and a second one placed. -/
theorem witness_HoldRequestTaken_told :
    let one : HoldTable := ⟨[⟨0x42, 2, 300, 90, 0⟩], none, some 10⟩
    run.cfg.node = .run ∧ run.image.isSome = true ∧ run.hold.active = false ∧ one.active = true
      ∧ (decideHold run.img.holds 0 run.hold ⟨0x42, 2, 300, 90, 7⟩).placed = true
      ∧ (decideHold run.img.holds 0 one ⟨0x43, 2, 300, 90, 7⟩).placed = true
      ∧ (decideHold run.img.holds 0 one ⟨0x42, 2, 300, 0, 7⟩).table.active = false := by decide +kernel

/-- The quantum timer with entries of one and of two quanta. -/
theorem witness_HoldsCountDown :
    let s : State := { timed with hold := ⟨[⟨1, 2, 300, 1, 0⟩, ⟨2, 2, 300, 2, 0⟩], some ⟨2, 5, 1⟩, some 10⟩ }
    s.hold.quantumTimer = some 10 ∧ s.hold.entryOf 1 = some ⟨1, 2, 300, 1, 0⟩ ∧ s.hold.overflow = some ⟨2, 5, 1⟩
      ∧ s.cfg.node = .run ∧ timed.hold.overflow = none := by decide +kernel

/-- A table whose last entry, and one whose overflow alone, has one quantum left. -/
theorem witness_HoldsCountDown_told : ∀ h ∈ [(⟨[⟨1, 2, 300, 1, 0⟩], none, some 10⟩ : HoldTable), ⟨[], some ⟨2, 5, 1⟩, some 10⟩],
    { timed with hold := h }.cfg.node = .run ∧ h.quantumTimer = some 10 ∧ h.active = true
      ∧ ((go .quantumTimerExpiry { timed with hold := h }).hold.active = false) := by decide +kernel

/-- The channel of 6.9 at its duty ends: 0, 1, one below the modulus and the modulus; an unused channel, and JOIN. -/
theorem witness_ChannelPeriods :
    (run.img.channels.get .boomDown).used = true ∧ (run.img.channels.get .armOut).used = false
      ∧ (at_ .join).cfg.node ≠ .run
      ∧ (∀ d ∈ [1, 127], 0 < d ∧ d < (run.img.channels.get .boomDown).modulus)
      ∧ (∀ x ∈ [(none, 0, ChannelState.pass), (some 1000, 0, .full), (some 667, 85, .cutting), (some 0, 85, .releasing)],
          (startPeriod (run.img.channels.get .boomDown)
            { ChannelRecord.reset .pass with limit := x.1, duty := x.2.1 }).state = x.2.2) := by decide +kernel

/-- WORK_MODE at both ends of its codes, with the derate flag off and on; the two auto-idle items at their ends; the delay
timer not yet past and past the new delay. -/
theorem witness_EconomyItems :
    (∀ v ∈ [(-1 : Int), 0, 1, 2, 3, 4], (withItem run 0x10 v).itemFor 0x10 = some ⟨0x28, 0x10, v⟩)
      ∧ { run with svc := { run.svc with derate := true } }.svc.derate = true ∧ run.svc.derate = false
      ∧ ((4 : Nat) : Int) = clampInt 4 30 3 ∧ ((30 : Nat) : Int) = clampInt 4 30 31
      ∧ { run with eco := { run.eco with state := .neutralWait } }.eco.state = .neutralWait
      ∧ reached 3999 (after 0 (4 * 1000)) = false ∧ reached 4000 (after 0 (4 * 1000)) = true := by decide +kernel

/-- A mode that changes and one that does not, with the derate flag off and on; an enable that changes and one that does not; a delay in
NEUTRAL_WAIT that changes, with its new end not reached and reached, and one that does not. -/
theorem witness_EconomyItems_changes :
    let derated : State := { run with svc := { run.svc with derate := true } }
    let wait (now : Ms) : State := { run with now := now, eco := { run.eco with state := .neutralWait, delay := 9 } }
    (∀ x ∈ [((0 : Int), WorkMode.heavy), (2, .economy), (4, .heavy)], (go .workMode (withItem run 0x10 x.1)).eco.mode = x.2)
      ∧ (go .workMode (withItem derated 0x10 0)).eco.mode = .economy ∧ run.eco.mode = .heavy
      ∧ (∀ x ∈ [((0 : Int), false), (1, true)], (go .autoIdleEnable (withItem run 0x11 x.1)).eco.autoIdle = x.2)
      ∧ run.eco.autoIdle = false
      ∧ (∀ x ∈ [((3999 : Ms), (4 : Int), EcoState.neutralWait), (4000, 4, .idleLow), (4000, 9, .neutralWait)],
          (go .autoIdleDelay (withItem (wait x.1) 0x12 x.2.1)).eco.state = x.2.2) := by decide +kernel

theorem witness_EconomyTimersMove : timed.eco.delayTimer = some 4000 ∧ timed.eco.yieldTimer = some 1000
    ∧ timed.eco.recoveryTimer = some 3000
    ∧ { timed with eco := { timed.eco with requested := some 1850 } }.eco.requested ≠ none := by decide +kernel

/-- RUN in an economy state. -/
def inEco (st : EcoState) : State := { run with eco := { run.eco with state := st } }

/-- Neutral levers heard, warm oil, and the auto-idle on. -/
def permitted (s : State) : State :=
  { withStream s 6 .fresh { Mailbox.empty with oil := 20 } with eco := { s.eco with autoIdle := true, neutralSince := some 0 } }

/-- The machine of an image that assigns the grant, heard from a source. -/
def granted (s : State) (src : Byte) : State :=
  { s with streams := [{ newStream ⟨5, .engineGrant, 0x00, 0x111, 500, 3⟩ with
      state := .fresh, mailbox := { Mailbox.empty with grantSource := src } }] }

/-- The engine below and at its threshold in every economy state; the permit held and not; the speed below and at the target
less the tolerance; and the grant own, none and foreign, with the yield timer running and not. -/
theorem witness_EconomyTimersMove_streams :
    (∀ st ∈ [EcoState.off, .work, .neutralWait, .idleLow, .recover, .yielded],
        (engineAt (inEco st) 500).engineRunning = true ∧ (engineAt (inEco st) 499).engineRunning = false
          ∧ (engineAt (inEco st) 500).eco.state = st ∧ (permitted (inEco st)).idlePermit = true
          ∧ (inEco st).idlePermit = false)
      ∧ run.eco.formTarget run.img.economy run.svc.derate = 2000 ∧ run.img.economy.tolerance = 100
      ∧ (1899 : Int) < 2000 - 100 ∧ (2000 : Int) - 100 ≤ 1900
      ∧ (granted run 0x2C).readGrant = .own ∧ (granted run 0xFE).readGrant = .none ∧ (granted run 0xFF).readGrant = .none
      ∧ (granted run 0x2D).readGrant = .foreign ∧ run.readGrant = .none ∧ timed.eco.yieldTimer.isSome = true
      ∧ (permitted run).neutral = true ∧ run.neutral = false := by decide +kernel

/-- RUN in RECOVER with its timer running. -/
def recovering : State := { timed with eco := { timed.eco with state := .recover } }

theorem recovering_ordered : NoticesOrdered recovering := by unfold NoticesOrdered; decide +kernel

/-- The recovery timer with nothing held; and the entries of the roles without a reader, with those of the engine, the levers and the
grant. -/
theorem witness_EconomyTimersMove_recovery :
    recovering.eco.recoveryTimer = some 3000 ∧ recovering.cfg.node = .run ∧ recovering.image.isSome = true
      ∧ NoticesOrdered recovering
      ∧ (∀ r ∈ [Role.boomAngle, .armAngle, .bucketAngle, .engineState, .hydraulicState], (run.stream r).map (·.role) = some r)
      ∧ ((granted run 0x2C).stream .engineGrant).isSome = true :=
  ⟨rfl, rfl, rfl, recovering_ordered, by decide +kernel⟩

/-- An ENGINE_STATE entry in a state that clears the fuel mark and in one that keeps it; a target that a forming changes and one that it
does not; RECOVER and another state. -/
theorem witness_EconomyTimersMove_engine :
    (∀ x ∈ [(StreamState.neverSeen, none), (.stale, none), (.fresh, some 400), (.late, some 400), (.recovering, some 400)],
        let s : State := { engineAt timed 500 with eco := { timed.eco with fuelMark := some ⟨0, 400⟩ } }
        (s.stream .engineState).map (fun e => (s.ecoEngineState { e with state := x.1 }).eco.fuelMark.map (·.rate)) = some x.2)
      ∧ recovering.eco.target ≠ recovering.reform.eco.target ∧ recovering.reform.reform.eco.target = recovering.reform.eco.target
      ∧ recovering.eco.state = .recover ∧ timed.eco.state ≠ .recover := by decide +kernel

theorem timed_transmitter_sound : TransmitterSound timed := by
  refine ⟨by decide, by decide, by decide, by decide, ?_, by decide, by decide⟩
  intro cls k _
  cases cls <;> exact Nat.zero_le _

theorem witness_RequestsAndSeconds : timed.eco.requestTimer = some 100 ∧ timed.eco.secondTimer = some 1000
    ∧ TransmitterSound timed ∧ takesOffer timed.cfg.node .speedRequest = true ∧ timed.link.normal.length < 8
    ∧ timed.eco.state.requesting = true ∧ takesOffer timed.cfg.node .pumpLimit = true ∧ timed.eco.state ≠ .off :=
  ⟨rfl, rfl, timed_transmitter_sound, by decide, by decide, by decide, by decide, by decide⟩

/-- The pump limits of the image; a requested speed that forms, ends and stays, and the same of the pump limit. -/
theorem witness_RequestsAndSeconds_formed :
    (∀ m ∈ [WorkMode.heavy, .standard, .economy, .lift], 0 ≤ run.img.economy.modePump.get m)
      ∧ timed.eco.requested = none ∧ timed.reform.eco.requested = some 2000 ∧ timed.eco.pumpLimit = none
      ∧ timed.reform.eco.pumpLimit = some 100 ∧ timed.reform.reform.eco = timed.reform.eco
      ∧ { timed.reform with eco := { timed.reform.eco with state := .off } }.reform.eco.requested = none
      ∧ { timed.reform with eco := { timed.reform.eco with state := .off } }.reform.eco.pumpLimit = none := by decide +kernel

/-- No mark, an interval of exactly two periods, and one a millisecond longer. -/
theorem witness_FuelOfArrival : run.eco.fuelMark = none
    ∧ { run with eco := { run.eco with fuelMark := some ⟨0, 400⟩ } }.eco.fuelMark = some ⟨0, 400⟩
    ∧ elapsed 200 0 ≤ 2 * 100 ∧ 2 * 100 < elapsed 201 0 := by decide +kernel

/-- A number that names no item, and one that does with the engine stopped and running. -/
theorem witness_ServiceDoneItem : run.svc.itemOf 4 = none ∧ (run.svc.itemOf 3).isSome = true
    ∧ (withItem run 0x20 3).itemFor 0x20 = some ⟨0x28, 0x20, 3⟩ ∧ run.engineRunning = false
    ∧ (engineAt run 500).engineRunning = true ∧ (engineAt run 499).engineRunning = false
    ∧ { run with svc := { run.svc with write := some ⟨[], 50⟩ } }.svc.write = some ⟨[], 50⟩ := by decide +kernel

/-- RUN with one second left to an item's reminder. -/
def reminding : State := { timed with svc := { timed.svc with
  items := timed.svc.items.map fun (i : ServiceItem) => { i with remind := some 1 } } }

/-- The engine running below and at the limit of engine seconds, heard and not heard without running, a count at 359, and
an item with one second to its reminder. -/
theorem witness_ServiceSeconds :
    (engineAt timed 500).svc.secondTimer = some 1000 ∧ (engineAt timed 500).engineRunning = true
      ∧ (engineAt timed 500).svc.engineSeconds < 357913941 ∧ 357913941 ≤ extreme.svc.engineSeconds
      ∧ (engineAt timed 499).engineRunning = false ∧ ((engineAt timed 499).streamState .engineState).heard = true
      ∧ timed.engineRunning = false ∧ (timed.streamState .engineState).heard = false ∧ (359 + 1) % 360 = 0
      ∧ (reminding.svc.itemOf ((3 : Nat) : Int)).map (·.remind) = some (some 1) := by decide +kernel

/-- An item with a last-done value, engine hours counted and one second left to a reminder. -/
def dueItem (hours : Nat) (st : ItemState) : State := { engineAt timed 500 with svc := { timed.svc with
  engineSeconds := hours, items := [⟨⟨3, 0x12, some .engineHours, 500, 20, 10, true⟩, 1440000, st, some 1⟩] } }

/-- The items of the test whose state rises, or whose reminder comes: at the last second before each point, with the derate flag
changed at the last. -/
theorem witness_ServiceSeconds_evaluated :
    (∀ x ∈ [(3167999, ItemState.ok, ItemState.dueSoon), (3239999, .dueSoon, .due), (3275999, .due, .overdue), (3240000, .due, .due)],
        let s := dueItem x.1 x.2.1
        let t := go .svcSecondExpiry s
        s.cfg.node = .run ∧ s.image.isSome = true ∧ (s.svc.items.map (·.config.number)).Nodup ∧ s.engineRunning = true
          ∧ s.svc.secondTimer = some 1000 ∧ t.svc.items.map (·.state) = [x.2.2] ∧ (itemSeverity x.2.2).isSome = true
          ∧ t.ntc.held.map (·.id) = [3])
      ∧ (go .svcSecondExpiry (dueItem 3275999 .due)).svc.derate = true ∧ (dueItem 3275999 .due).svc.derate = false
      ∧ ((dueItem 3240000 .due).svc.itemOf ((3 : Nat) : Int)).map (·.state) = some .due
      ∧ [Basis.engineHours, .weightedHours, .cycles].map (fun b => (⟨⟨3, 0, some b, 1, 0, 0, false⟩, 0, .ok, none⟩ : ServiceItem).basis)
        = [.engineHours, .weightedHours, .cycles] := by decide +kernel

/-- The notices of that state are in order, none held. -/
theorem dueItem_ordered : NoticesOrdered (dueItem 3275999 .due) := by unfold NoticesOrdered; decide +kernel

/-- The detector with its inputs at the levels of 8.8 and a swing one short of the least and of the least. -/
theorem witness_DetectorSteps :
    run.img.service.digLevel = -1000 ∧ run.img.service.liftLevel = 500 ∧ run.img.service.minSwing = 5461
      ∧ (wrapAngle (5460 - 0)).natAbs < 5461 ∧ 5461 ≤ (wrapAngle (5461 - 0)).natAbs
      ∧ detectorStep run.img.service (withPose run pose18).poseUsable true 1900 6000 .lifted (some 300) = (.ready, none, true)
      ∧ run.svc.cycles < 4294967295 ∧ 4294967295 ≤ extreme.svc.cycles := by decide +kernel

/-- RUN about to complete a cycle, with an item of CYCLES that rises by it to a state, and with it the derate flag at OVERDUE. -/
def digging (done : Nat) : State := { withPose run { pose18 with p3Height := 1900, slew := 6000 } with
  svc := { run.svc with
    cycles := done, detector := .lifted, psi0 := some 300
    items := [⟨⟨3, 0x12, some .cycles, 10, 2, 1, true⟩, 0, .ok, none⟩] } }

theorem digging_ordered : NoticesOrdered (digging 9) := by unfold NoticesOrdered; decide +kernel

/-- A cycle counted with the item OK, risen to DUE, and to OVERDUE with the derate flag; and a cycle past the last count. -/
theorem witness_DetectorSteps_cycle : NoticesOrdered (digging 9)
    ∧ (∀ x ∈ [(6, ItemState.ok, false), (9, .due, false), (10, .overdue, true)],
        let t := (digging x.1).digStep
        t.svc.items.map (·.state) = [x.2.1] ∧ t.svc.derate = x.2.2 ∧ t.svc.cycles = x.1 + 1
          ∧ t.ntc.held.map (·.id) = (if x.2.1 = .ok then [] else [3])
          ∧ t.link.background.map (fun f => (f.kind, f.data)) = [(.cycleReport, be4 (x.1 + 1 : Nat) ++ be4 0)])
    ∧ (digging 4294967295).digStep.svc.cycles = 4294967295 ∧ (digging 9).link.background.length < 8
    ∧ takesOffer (digging 9).cfg.node .cycleReport = true ∧ ((digging 9).svc.items.map (·.config.number)).Nodup :=
  ⟨digging_ordered, by decide +kernel⟩

/-- The four requests at the head in RUN and in JOIN, a class with one place left, the key with the engine running and
not, a table of streams, one item and no item. -/
theorem witness_QueriesReply :
    (withFrame run 0x150 0x60 [2]).headFor .ruleStats = some ⟨0x150, 0xFF, 0x60, [2]⟩
      ∧ (withFrame run 0x150 0x60 [3]).headFor .ruleStatsClear = some ⟨0x150, 0xFF, 0x60, [3]⟩
      ∧ (withFrame (at_ .join) 0x150 0x60 [2]).headFor .ruleStats = some ⟨0x150, 0xFF, 0x60, [2]⟩
      ∧ (withFrame (at_ .join) 0x150 0x60 [3]).headFor .ruleStatsClear = some ⟨0x150, 0xFF, 0x60, [3]⟩
      ∧ (withFrame (at_ .join) 0x150 0x60 [1]).headFor .streamStats = some ⟨0x150, 0xFF, 0x60, [1]⟩
      ∧ (withFrame (at_ .join) 0x150 0x60 [4]).headFor .itemTable = some ⟨0x150, 0xFF, 0x60, [4]⟩
      ∧ (withFrame run 0x150 0x60 [1]).headFor .streamStats = some ⟨0x150, 0xFF, 0x60, [1]⟩
      ∧ (withFrame run 0x150 0x60 [4]).headFor .itemTable = some ⟨0x150, 0xFF, 0x60, [4]⟩
      ∧ nearlyFull.link.background.length < 8 ∧ (0x4000 : Key).getLsbD 14 = true ∧ (0x3FFF : Key).getLsbD 14 = false
      ∧ run.streams.length = 7 ∧ run.svc.items.length = 1 ∧ State.reset.svc.items = [] := by decide +kernel

/-- RUN with the default rule winning. -/
def won : State := { timed with rule := { timed.rule with key := some 0x201, winner := some 32 } }

/-- RUN with a reply of RULE in progress, a class with room and a full one whose first frame is of the reply. -/
def replying (n : Nat) (cur : Bool) : State := { won with
  rule := { won.rule with reply := some ⟨0x60, [2, 32]⟩ }
  link := { won.link with
    onWire := cur
    background := ⟨.statsReply, 0x60, [], 0, cur, some .rule⟩ :: seven.take n } }

/-- A reply with frames to come, with its last sent and with none in progress; a class with room and full; a frame that is on the wire;
the key and the winner held; and the entry and the item of a number. -/
theorem witness_QueriesReply_frames :
    (∀ cur ∈ [false, true], (replying 6 cur).link.background.length < 8 ∧ (replying 7 cur).link.background.length = 8
        ∧ (replying 7 cur).cfg.node = .run ∧ (replying 7 cur).replyOf .rule = some ⟨0x60, [2, 32]⟩)
      ∧ run.replyOf .stm = none ∧ { run with stmReply := some ⟨0x60, []⟩ }.replyOf .stm = some ⟨0x60, []⟩
      ∧ won.rule.key = some 0x201 ∧ won.rule.winner = some 32 ∧ (run.entry 0).isSome = true
      ∧ (run.svc.itemOf ((3 : Nat) : Int)).isSome = true
      ∧ takesOffer (replying 7 true).cfg.node .statsReply = true ∧ (replying 7 true).link.thinning = false
      ∧ periodic .background .statsReply = false := by decide +kernel

/-- A write in flight, with its mark set and clear, in RUN and in STORE with the key on and off; at its deadline and after. -/
theorem witness_RecordWritesEnd : ∀ again ∈ [false, true], ∀ n ∈ [NodeState.run, .store], ∀ key ∈ [false, true],
    let s : State := { (at_ n) with cfg := { (at_ n).cfg with key := key }
                                    svc := { run.svc with write := some ⟨[], 50⟩, again := again } }
    s.svc.write = some ⟨[], 50⟩ ∧ s.svc.again = again ∧ s.cfg.node = n ∧ s.cfg.key = key
      ∧ reached 50 50 = true ∧ reached 50 51 = false := by decide +kernel

/-- A record of the tests. -/
def notice (id : Nat) (v : Severity) : NoticeRecord := ⟨id, v, .display, .linkSuspect, 0, false, none, none⟩

/-- RUN with a notice queued and two pending, one of them a CAUTION whose escalation timer runs. -/
def noticed : State := { run with ntc := { run.ntc with
  displayAvailable := true
  queue := [notice 0x31 .caution]
  pending := [notice 0x32 .info, { notice 0x33 .caution with escalationStart := some 0 }] } }

theorem noticed_ordered : NoticesOrdered noticed := by unfold NoticesOrdered; decide +kernel

/-- RUN with the record lost, its notice held, and a write in flight. -/
def lostRecord : State := { run with
  cfg := { run.cfg with recordLost := some .noAnswerOrCrc }
  svc := { run.svc with write := some ⟨[], 50⟩ }
  ntc := { run.ntc with pending := [notice 0x70 .warning] } }

theorem lostRecord_ordered : NoticesOrdered lostRecord := by unfold NoticesOrdered; decide +kernel

/-- A success in RUN clears 0x70, a failure keeps it; in STORE no notice is held. -/
theorem witness_RecordWritesEnd_lost : NoticesOrdered lostRecord ∧ lostRecord.cfg.recordLost ≠ none ∧ lostRecord.cfg.node = .run
    ∧ lostRecord.svc.write = some ⟨[], 50⟩ ∧ (true && reached 50 lostRecord.now) = true ∧ (false && reached 50 lostRecord.now) = false
    ∧ (go (.recordWriteDone true) lostRecord).ntc.held = []
    ∧ (go (.recordWriteDone false) lostRecord).ntc.held.map (·.id) = [0x70] :=
  ⟨lostRecord_ordered, by decide +kernel⟩

/-- The inhibit's two values and one outside; an acknowledgement of a queued id and of another. -/
theorem witness_NoticeItems : (∀ v ∈ [(-1 : Int), 0, 1, 2],
      (withItem run 0x28 v).itemFor 0x28 = some ⟨0x28, 0x28, v⟩)
    ∧ NoticesOrdered noticed ∧ (noticed.ntc.queued 0x31).isSome = true ∧ noticed.ntc.queued 0x32 = none
    ∧ (withItem noticed 0x29 0x31).itemFor 0x29 = some ⟨0x28, 0x29, 0x31⟩
    ∧ (withItem run 0x2A 0).itemFor 0x2A = some ⟨0x28, 0x2A, 0⟩ :=
  ⟨by decide +kernel, noticed_ordered, by decide +kernel⟩

/-- RUN with item 3 in a state and its notice queued. -/
def reminded (st : ItemState) : State := { run with
  svc := { run.svc with items := run.svc.items.map fun (i : ServiceItem) => { i with state := st } }
  ntc := { run.ntc with queue := [notice 0x03 .info] } }

/-- An acknowledgement of its notice starts the re-remind time of a DUE or OVERDUE item, and of no other (R146). -/
theorem test_reremind_of_R146 : ∀ x ∈ [(ItemState.dueSoon, none), (.due, some 7200), (.overdue, some 7200)],
    (reminded x.1).ntc.queued 3 = some (notice 0x03 .info)
      ∧ (go .noticeAck (withItem (reminded x.1) 0x29 3)).svc.items.map (·.remind) = [x.2] := by decide +kernel

theorem reminded_ordered : NoticesOrdered (reminded .due) := by unfold NoticesOrdered; decide +kernel

/-- A service done on an item whose notice is held: OVERDUE, with the derate flag on, which ends, and DUE, with it off, which stays. -/
theorem witness_ServiceDoneItem_held : NoticesOrdered (reminded .due)
    ∧ ∀ x ∈ [(ItemState.overdue, true), (.due, false)],
      let s : State := withItem { reminded x.1 with svc := { (reminded x.1).svc with derate := x.2 } } 0x20 3
      (s.ntc.held.map (·.id)) = [3] ∧ s.svc.derate = x.2 ∧ derateOf s.svc.items = x.2 ∧ s.engineRunning = false
        ∧ (s.svc.itemOf 3).isSome = true ∧ (go .serviceDone s).ntc.held = [] ∧ (go .serviceDone s).svc.derate = false :=
  ⟨reminded_ordered, by decide +kernel⟩

/-- New ids of both routes, deferred and presented, with seven queued. -/
theorem witness_NewNoticePlaced : run.cfg.node = .run ∧ run.catalogue 0x72 = some (.caution, .locally)
    ∧ run.catalogue 0x30 = some (.caution, .display) ∧ findId 0x30 run.ntc.queue = none ∧ findId 0x30 run.ntc.pending = none
    ∧ findId 0x30 run.ntc.locals = none
    ∧ (methodFor .display run.ntc.displayAvailable run.ntc.inhibited false .caution).1 = false
    ∧ (methodFor .display noticed.ntc.displayAvailable noticed.ntc.inhibited false .caution).1 = true
    ∧ ((List.range 7).map fun n => notice n .info).length < 8 := by decide +kernel

/-- RUN with a full queue of CAUTION notices, and pending records above and not above them. -/
def crowded : State := { run with ntc := { run.ntc with
  displayAvailable := true
  queue := (List.range 8).map fun n => notice (0x40 + n) .caution
  pending := [notice 0x50 .caution, notice 0x71 .warning] } }

theorem crowded_ordered : NoticesOrdered crowded := by unfold NoticesOrdered; decide +kernel

/-- Ids held in the queue, the pending set and the local set, raised with a severity not above and above the held one; a clear
of each and of an id not held; a full queue offered a record that outranks its last and one that does not; pending records
that a pass takes, and none that it could. -/
theorem witness_NewNoticePlaced_held : NoticesOrdered noticed ∧ NoticesOrdered crowded
    ∧ noticed.catalogue 0x31 = some (.caution, .display) ∧ (findId 0x31 noticed.ntc.queue).map (·.severity) = some .caution
    ∧ (findId 0x32 noticed.ntc.pending).map (·.severity) = some .info
    ∧ (findId 0x33 noticed.ntc.pending).map (·.severity) = some .caution ∧ findId 0x34 noticed.ntc.held = none
    ∧ (findId 0x72 { noticed.ntc with locals := [notice 0x72 .caution] }.locals).isSome = true
    ∧ crowded.ntc.queue.length = 8 ∧ (crowded.ntc.queue.getLast?).map (·.severity) = some .caution
    ∧ crowded.ntc.presentable (notice 0x71 .warning) = true ∧ crowded.ntc.takes (notice 0x71 .warning) = true
    ∧ crowded.ntc.takes (notice 0x50 .caution) = false ∧ (∀ x ∈ run.ntc.pending, run.ntc.presentable x = false)
    ∧ run.catalogue 0x60 = none ∧ crowded.link.normal.length ≤ 6 :=
  ⟨noticed_ordered, crowded_ordered, by decide +kernel⟩

/-- RUN with something playing and something waiting. -/
def playing (p : Playing) (w : Option OneShot) (d : Snd) : State := { run with snd := { d with playing := p, waiting := w } }

/-- The settle timer, a pending CAUTION, a one-shot with none waiting, one that has its turn and one outranked, with a
sustained request beneath; the two phases of a cadence; and the silence. -/
theorem witness_NoticeAndSounderTimers : timed.ntc.settleTimer = some 2000 ∧ NoticesOrdered noticed
    ∧ (findId 0x33 noticed.ntc.pending).map (·.escalationStart) = some (some 0)
    ∧ (playing (.oneShot ⟨2, true, 0⟩ 300) none Snd.reset).snd.playing = .oneShot ⟨2, true, 0⟩ 300
    ∧ sndOutranked { Snd.reset with class3 := some 400 } 2 = false
    ∧ sndOutranked { Snd.reset with class3 := some 400 } 5 = true
    ∧ (sndLive { Snd.reset with class3 := some 400 }).head? = some (3, .approach 400) ∧ (sndLive Snd.reset).head? = none
    ∧ (playing (.sustained 3 (.approach 400) true (some 200)) none { Snd.reset with class3 := some 500 }).snd.class3 = some 500
    ∧ (playing (.sustained 4 .cadence500 false (some 500)) none Snd.reset).snd.playing
      = .sustained 4 .cadence500 false (some 500)
    ∧ timed.snd.silence = some 30000 :=
  ⟨rfl, noticed_ordered, by decide, by decide, by decide, by decide, by decide, by decide, by decide, by decide, rfl⟩

/-- The busy flag of the image with the levers not neutral, neutral, and neutral for 2000 ms; a neutral state formed and kept; the display
entry; a change of the conditions with pending ids, and none; and one-shots that are silenced, outranked, wait, are dropped and play. -/
theorem witness_NoticeAndSounderTimers_conditions :
    run.img.notices.busyFlag = true ∧ run.eco.neutralSince = none
      ∧ reached 1999 (after 0 2000) = false ∧ reached 2000 (after 0 2000) = true
      ∧ { State.reset with image := some { run.img with notices := { run.img.notices with busyFlag := false } } }.img.notices.busyFlag
        = false
      ∧ (permitted run).eco.neutralSince = some 0
      ∧ (run.stream .display).map (·.role) = some .display ∧ noticed.ntc.inhibited = false ∧ noticed.ntc.pending.length = 2
      ∧ noticed.cfg.node = .run
      ∧ { noticed.ntc with displayAvailable := false }.pendingSound (notice 0x33 .stop) = some .continuous
      ∧ run.ntc.pendingSound (notice 0x33 .info) = none ∧ run.ntc.pendingSound (notice 0x33 .warning) = some .cadence500
      ∧ sndMuted timed.snd 5 = true ∧ sndMuted run.snd 5 = false ∧ sndOutranked run.snd 5 = false
      ∧ sndOutranked { Snd.reset with class3 := some 400 } 5 = true
      ∧ sndMuted { Snd.reset with playing := .oneShot ⟨2, true, 0⟩ 300, waiting := some ⟨5, false, 0⟩ } 5 = false
      ∧ sndOutranked { Snd.reset with playing := .oneShot ⟨2, true, 0⟩ 300, waiting := some ⟨5, false, 0⟩ } 5 = false := by
  decide +kernel

/-- A state that takes no offer, an odd sequence with thinning on, a class with a place left and a full one, and a queued
frame of a periodic kind, current and not. -/
theorem witness_OfferTaken :
    takesOffer .startRead .pose = false ∧ takesOffer .run .pose = true
      ∧ oddSequence ⟨.pose, 0xFF, [1], 0, false, none⟩ = true ∧ oddSequence ⟨.pose, 0xFF, [2], 0, false, none⟩ = false
      ∧ periodic .normal .pose = true ∧ periodic .normal .notice = false
      ∧ (classOf nearlyFull.link .normal).length < capacity .normal
      ∧ (List.replicate 8 (0 : Byte)).length = capacity .normal
      ∧ ([(⟨.pose, 0xFF, [1], 0, true, none⟩ : TxFrame)].find? (fun x => x.kind == .pose)).isSome = true
      ∧ (∀ n ∈ [0, 2, 3, 4, 5, 8], (seven ++ seven.take 1 |>.take n).length = n ∧ ∀ g ∈ seven.take n, g.kind ≠ .pose) := by
  decide +kernel

/-- LINK with a frame queued 50 ms ago, not current and current. -/
def queued (current : Bool) : State := { run with
  now := 50, link := { run.link with urgent := [⟨.settingResponse, 0x28, [], 0, current, none⟩] } }

/-- LINK with an attempt on the wire, in a link state and with a count. -/
def onWire (st : LinkState) (n : Nat) : State :=
  { (queued true) with link := { (queued true).link with onWire := true, state := st, failures := n } }

/-- The transmitter about to choose, with a current frame, forbidden; an attempt with counts around 16 and 64; the hold of
SILENT with a frame at its age limit. -/
theorem witness_TransmitOutcomes :
    (queued false).mayAttempt = true ∧ currentFrame (queued false).link = none ∧ (queued false).link.urgent.length = 1
      ∧ (∀ g ∈ (queued false).link.urgent ++ (queued false).link.normal ++ (queued false).link.background,
          elapsed (queued false).now g.queued ≤ 50)
      ∧ (queued true).mayAttempt = true ∧ currentFrame (queued true).link ≠ none ∧ (at_ .join).mayAttempt = false
      ∧ (∀ x ∈ [(LinkState.active, 14), (.active, 15), (.suspect, 62), (.suspect, 63), (.silent, 65535)],
          (onWire x.1 x.2).link.onWire = true ∧ (onWire x.1 x.2).link.state = x.1 ∧ (onWire x.1 x.2).link.failures = x.2)
      ∧ { (queued true) with link := { (queued true).link with silentHold := some 50 } }.link.silentHold = some 50
      ∧ attemptsIn (queued true).cfg.node = true
      ∧ elapsed ((queued true).arriveAt 50).now 0 ≤ ageLimit .urgent := by decide +kernel

/-- LINK with a frame of each class queued at 0, at a time at which some are past their age limit; one attempt with a frame
held beside it. -/
def waiting (now : Ms) (st : LinkState) : State := { run with now := now, link := { run.link with
  state := st
  urgent := [⟨.settingResponse, 0x28, [], 0, false, none⟩]
  normal := [⟨.pose, 0xFF, [0], 0, false, none⟩]
  background := [⟨.nodeStatus, 0xFF, [], 0, false, none⟩] } }

/-- The choice: nothing selectable; each class in turn the highest with a frame within its age limit; BACKGROUND shut out by
SUSPECT; and an attempt with a held frame that is within its limit, with none, and with a frame that is not of a reply. -/
theorem witness_TransmitOutcomes_choice :
    (run.mayAttempt = true ∧ anySelectable run.cfg.node run.link = false ∧ currentFrame run.link = none)
      ∧ (∀ st ∈ [LinkState.active, .suspect], (waiting 201 st).mayAttempt = true
          ∧ currentFrame (waiting 201 st).link = none ∧ anySelectable .run (waiting 201 st).link = true)
      ∧ (currentFrame (onWire .active 0).link).map (fun x => (x.1, x.2.reply)) = some (.urgent, none)
      ∧ (onWire .active 0).link.beside = none := by decide +kernel

theorem witness_TransmitOutcomes_ages : (elapsed 50 0 ≤ 50 ∧ ¬ elapsed 51 0 ≤ 50) ∧ (elapsed 200 0 ≤ 200 ∧ ¬ elapsed 201 0 ≤ 200)
    ∧ elapsed 2000 0 ≤ 2000
    ∧ ∀ g ∈ (waiting 201 .active).link.urgent ++ (waiting 201 .active).link.normal, g.reply = none := by decide +kernel

/-- The attempt with a frame held beside it. -/
theorem witness_TransmitOutcomes_held : ∃ s : State, s.link.onWire = true ∧ s.link.state = .active
    ∧ s.link.beside = some ⟨.settingResponse, 0x28, [1], 50, false, none⟩ ∧ (currentFrame s.link).isSome = true :=
  ⟨{ (onWire .active 0) with link := { (onWire .active 0).link with
    beside := some ⟨.settingResponse, 0x28, [1], 50, false, none⟩ } }, rfl, rfl, rfl, rfl⟩

/-- The transmitter in SILENT with no current frame and a probe due: the choice of log 60. -/
theorem witness_TransmitOutcomes_silent :
    let s : State := { waiting 40 .silent with link := { (waiting 40 .silent).link with probe := true } }
    s.link.state = .silent ∧ s.link.probe = true ∧ s.mayAttempt = true ∧ currentFrame s.link = none
      ∧ anySelectable s.cfg.node s.link = true
      ∧ (currentFrame (go .transmitAttemptStart s).link).map (·.1) = some .urgent
      ∧ (waiting 40 .silent).mayAttempt = false := by decide +kernel

/-- A frame of a reply on the wire, and past its age limit among the frames to choose from; a current frame past its limit when an
attempt is lost, fails or its hold ends, and a hold that ends with no current frame. -/
theorem witness_TransmitOutcomes_replies :
    (replying 6 true).link.onWire = true
      ∧ (currentFrame (replying 6 true).link).map (fun x => (x.1, x.2.reply)) = some (.background, some .rule)
      ∧ (let s : State := { replying 6 false with now := 2001 }
         s.mayAttempt = true ∧ currentFrame s.link = none ∧ anySelectable s.cfg.node s.link = true
           ∧ s.link.background.any (fun f => decide (2000 < elapsed s.now f.queued) && f.reply.isSome) = true)
      ∧ ¬ ageLimit .urgent < elapsed 50 0 ∧ ageLimit .urgent < elapsed 51 0
      ∧ { onWire .active 0 with now := 51 }.link.onWire = true
      ∧ (currentFrame { onWire .active 0 with now := 51 }.link).isSome = true
      ∧ { queued false with link := { (queued false).link with silentHold := some 50 } }.link.silentHold = some 50
      ∧ currentFrame (queued false).link = none := by decide +kernel

/-! ### The laws: a state other than reset for each -/

/-- RUN with every transmit class and the receive queue full. -/
def brimful : State := { run with link := { run.link with
  urgent := seven.take 4, normal := seven ++ seven.take 1, background := seven ++ seven.take 1, rx := sixteen } }

theorem witness_StepKeepsLinkBounded : ∃ s t, LinkBounded s ∧ step s = .next t :=
  ⟨brimful, _, by unfold LinkBounded; decide +kernel, rfl⟩

/-- JOIN, and RUN with an output high. -/
theorem witness_StepKeepsValvesSafe :
    (∃ s t, s.cfg.node ≠ .run ∧ ValvesRest s ∧ PinsFollowDuty s ∧ step s = .next t)
      ∧ ∃ s t, (s.vch.get .boomDown).pin = true ∧ ValvesRest s ∧ PinsFollowDuty s ∧ step s = .next t := by
  refine ⟨⟨at_ .join, _, by decide, ?_, ?_, rfl⟩, ⟨{ run with vch := { run.vch with
    boomDown := { run.vch.boomDown with pin := true, duty := 1 } } }, _, by decide, fun h => absurd rfl h, ?_, rfl⟩⟩
  · intro _ c
    unfold ChannelAtRest
    cases c <;> decide
  · intro c
    cases c <;> decide
  · intro c
    cases c <;> decide

theorem witness_StepKeepsUnitsRest : ∃ s t, s.cfg.node ≠ .run ∧ UnitsRest s ∧ step s = .next t :=
  ⟨at_ .join, _, by decide, by unfold UnitsRest; decide +kernel, rfl⟩

theorem witness_StepKeepsHoldsBounded : ∃ s t, s.hold = full ∧ HoldsBounded s ∧ step s = .next t :=
  ⟨{ run with hold := full }, _, rfl, by unfold HoldsBounded; decide +kernel, rfl⟩

theorem witness_StepKeepsNoticesOrdered : ∃ s t, NoticesOrdered s ∧ step s = .next t := ⟨noticed, _, noticed_ordered, rfl⟩

theorem witness_StepKeepsCounts : ∃ s t, CountsInBand s ∧ FuelInRange s ∧ step s = .next t :=
  ⟨extreme, _, extreme_counts, extreme_fuel, rfl⟩

/-- RUN with every limit present, each value at an end of its range. -/
def limited : State := withPose (withLimits run ⟨some ⟨-20000, 500, -32768⟩, some 20000, some 1000, some 32767, some (-32768)⟩)
  { pose18 with p1Reach := 11550, p2Reach := -30000, p3Reach := 30000 }

theorem witness_StepKeepsSettingsLegal : ∃ s t, s.cfg.node = .run ∧ SettingsSound s ∧ step s = .next t :=
  ⟨limited, _, rfl, by unfold SettingsSound SettingsLegal; decide +kernel, rfl⟩

theorem witness_StepKeepsWinner : ∃ s t, s.cfg.node = .run ∧ WinnerStands s ∧ step s = .next t :=
  ⟨won, _, rfl, ⟨fun _ => ⟨0x201, rfl, by decide +kernel⟩, fun h => absurd rfl h, by decide +kernel, by decide +kernel⟩, rfl⟩

/-- RUN with a channel at its full duty. -/
def cutting : State := { run with vch := { run.vch with
  boomDown := { run.vch.boomDown with limit := some 1000, target := 1000, targetDuty := 128, duty := 128 } } }

theorem witness_StepKeepsDutiesBounded :
    ∃ s t, s.cfg.node = .run ∧ UnitsRest s ∧ DutiesBounded s ∧ step s = .next t := by
  refine ⟨cutting, _, rfl, fun h => absurd rfl h, ⟨⟨?_, by decide, by decide, ?_, ?_, ?_, ?_, ?_, fun h => absurd rfl h⟩,
    fun h => absurd rfl h, ?_⟩, rfl⟩
  · intro c
    cases c <;> decide +kernel
  · intro c
    cases c <;> decide
  · intro r hr c
    simp only [State.img, cutting, run, rangeImage, image, rules, Option.getD_some, List.mem_cons, List.not_mem_nil,
      or_false] at hr
    rcases hr with h | h | h <;> subst h <;> cases c <;> decide
  · intro c
    cases c <;> decide
  · intro l
    cases l <;> decide
  · intro l
    cases l <;> decide
  · intro c
    cases c <;> decide

theorem witness_StepKeepsSounderRanked : ∃ s t, s.snd.playing ≠ .nothing ∧ SounderRanked s ∧ step s = .next t :=
  ⟨playing (.sustained 3 (.approach 400) true (some 200)) none { Snd.reset with class3 := some 400 }, _, by decide,
    ⟨by decide, rfl, _, rfl, rfl, rfl⟩, rfl⟩

theorem witness_StepKeepsTransmitterSound : ∃ s t, s.link.onWire = true ∧ TransmitterSound s ∧ step s = .next t := by
  refine ⟨onWire .active 0, _, rfl, ⟨by decide, by decide, by decide, by decide, ?_, by decide, by decide⟩, rfl⟩
  intro cls k h
  cases cls
  · cases k <;> decide
  · exact Nat.zero_le _
  · exact Nat.zero_le _

end Sys2Proof.Tests
end

section
/-! The pose unit's arithmetic: the sine table and its interpolation (R4, R5), sine and cosine by folding (R6, R7), and the
three points from the cumulative sums (R8, R9). -/

namespace Sys2Proof.Laws

open Sys2Proof.Machine

/-! ## The sine table -/

theorem sineTable_length : sineTable.length = 257 := by decide +kernel

/-- `sineEntry` reads the table exactly where the table has an entry. -/
theorem sineTable_getElem? (k : Nat) : sineTable[k]? = if k ≤ 256 then some (sineEntry k) else none := by
  have hlen := sineTable_length
  split
  · next hk =>
    have hlt : k < sineTable.length := by omega
    simp [sineEntry, List.getElem?_eq_getElem hlt]
  · exact List.getElem?_eq_none (by omega)

@[simp] theorem sineEntry_zero : sineEntry 0 = 0 := by decide +kernel

theorem sineEntry_last : sineEntry 256 = 16384 := by decide +kernel

/-- Past its last entry the table is read as that entry. -/
theorem sineEntry_of_last_le {k : Nat} (hk : 256 ≤ k) : sineEntry k = 16384 := by
  rcases hk.eq_or_lt with rfl | hlt
  · exact sineEntry_last
  · have hlen := sineTable_length
    exact List.getD_eq_default _ _ (by omega)

/-- Neighbours in the table rise by 0 to 101 (R4). -/
theorem sineEntry_step : ∀ k, k < 256 → 0 ≤ sineEntry (k + 1) - sineEntry k ∧ sineEntry (k + 1) - sineEntry k ≤ 101 := by
  decide +kernel

theorem sineEntry_monotone : Monotone sineEntry := by
  refine monotone_nat_of_le_succ fun k => ?_
  rcases Nat.lt_or_ge k 256 with hk | hk
  · exact sub_nonneg.1 (sineEntry_step k hk).1
  · rw [sineEntry_of_last_le hk, sineEntry_of_last_le (by omega)]

theorem sineEntry_rise_nonneg (k : Nat) : 0 ≤ sineEntry (k + 1) - sineEntry k :=
  sub_nonneg.2 (sineEntry_monotone (Nat.le_succ k))

theorem sineEntry_bounds (k : Nat) : 0 ≤ sineEntry k ∧ sineEntry k ≤ 16384 :=
  ⟨sineEntry_zero ▸ sineEntry_monotone (Nat.zero_le k),
    sineEntry_of_last_le (le_max_right k 256) ▸ sineEntry_monotone (le_max_left k 256)⟩

/-! ## The interpolated sine -/

/-- R5's case at the end of the quadrant is its general case with a step of 0. -/
theorem interpolated_eq (u : Nat) : interpolated u =
    sineEntry (u / 64) + ((sineEntry (u / 64 + 1) - sineEntry (u / 64)) * ((u % 64 : Nat) : Int) + 32) / 64 := by
  unfold interpolated
  dsimp only
  split
  · next hu => simp [sineEntry_of_last_le hu, sineEntry_of_last_le (Nat.le_succ_of_le hu), sineEntry_last]
  · rfl

theorem interpolated_mul (i : Nat) : interpolated (64 * i) = sineEntry i := by
  simp [interpolated_eq]

/-- A rise shared out by a fraction below 64 and rounded stays within the rise. -/
theorem roundedShare_bounds {d : Int} (hd : 0 ≤ d) {f : Nat} (hf : f < 64) :
    0 ≤ (d * f + 32) / 64 ∧ (d * f + 32) / 64 ≤ d := by
  have hlow : 0 ≤ d * f := by positivity
  have hhigh : d * f ≤ d * 63 := mul_le_mul_of_nonneg_left (by omega) hd
  omega

/-- The interpolated sine lies between the two entries that enclose its position. -/
theorem interpolated_between (u : Nat) : sineEntry (u / 64) ≤ interpolated u ∧ interpolated u ≤ sineEntry (u / 64 + 1) := by
  obtain ⟨hlow, hhigh⟩ := roundedShare_bounds (sineEntry_rise_nonneg (u / 64)) (Nat.mod_lt u (by decide : 0 < 64))
  rw [interpolated_eq]
  constructor <;> linarith

/-- The interpolated sine never falls: within a table step its share grows, and across steps an entry stands between. -/
theorem interpolated_monotone : Monotone interpolated := by
  intro u v huv
  rcases (Nat.div_le_div_right (c := 64) huv).eq_or_lt with hstep | hstep
  · have hf : ((u % 64 : Nat) : Int) ≤ ((v % 64 : Nat) : Int) := by omega
    have hshare := mul_le_mul_of_nonneg_left hf (sineEntry_rise_nonneg (u / 64))
    rw [interpolated_eq u, interpolated_eq v, ← hstep]
    exact add_le_add_right (Int.ediv_le_ediv (by decide) (add_le_add_left hshare 32)) _
  · calc interpolated u ≤ sineEntry (u / 64 + 1) := (interpolated_between u).2
      _ ≤ sineEntry (v / 64) := sineEntry_monotone hstep
      _ ≤ interpolated v := (interpolated_between v).1

theorem interpolated_bounds (u : Nat) : 0 ≤ interpolated u ∧ interpolated u ≤ 16384 :=
  ⟨(sineEntry_bounds _).1.trans (interpolated_between u).1, (interpolated_between u).2.trans (sineEntry_bounds _).2⟩

@[simp] theorem interpolated_zero : interpolated 0 = 0 := (interpolated_mul 0).trans sineEntry_zero

@[simp] theorem interpolated_quarter : interpolated 16384 = 16384 := (interpolated_mul 256).trans sineEntry_last

/-- Settles O12: the table by the turned sines of `sineEntry_close`, the interpolation by the entries that enclose it. -/
theorem interpolatedSine : Obligations.InterpolatedSine := by
  have hclose (k : Nat) (hk : k ≤ 256) :
      |16384 * Real.sin ((k : ℝ) * (Real.pi / 2 / 256)) - (sineEntry k : ℝ)| < 1 / 2 := by
    rw [show Real.pi / 2 / 256 = Real.pi / 512 by ring]
    exact sineEntry_close k hk
  have hformula (u : Nat) : interpolated u = if u / 64 = 256 then sineEntry 256
      else sineEntry (u / 64) + ((sineEntry (u / 64 + 1) - sineEntry (u / 64)) * ((u % 64 : Nat) : Int) + 32) / 64 := by
    split
    · next hu => simp [interpolated_eq, hu, sineEntry_of_last_le]
    · exact interpolated_eq u
  exact ⟨sineTable_length, sineTable_getElem?, hclose, sineEntry_zero, by decide +kernel, by decide +kernel,
    by decide +kernel, by decide +kernel, sineEntry_last, sineEntry_step, fun u hu => by omega, fun u _ => hformula u,
    interpolated_zero, interpolated_quarter, fun u _ => interpolated_bounds u,
    fun _ _ huv _ => interpolated_monotone huv, fun i _ => interpolated_mul i⟩

/-! ## Sine and cosine -/

/-- The folding of R6, the angle given by its quadrant and its position there. -/
theorem sine_quadrant (q r : Nat) (hq : q < 4) (hr : r < 16384) : sine (q * 16384 + r) =
    if q = 0 then interpolated r else if q = 1 then interpolated (16384 - r)
    else if q = 2 then -interpolated r else -interpolated (16384 - r) := by
  have hquadrant : (q * 16384 + r) / 16384 % 4 = q := by omega
  have hposition : (q * 16384 + r) % 16384 = r := by omega
  unfold sine
  rw [hquadrant, hposition]
  interval_cases q <;> rfl

/-- Each quadrant folds to an interpolated sine or its negative. -/
theorem sine_bounds (a : Nat) : -16384 ≤ sine a ∧ sine a ≤ 16384 := by
  have hrising := interpolated_bounds (a % 16384)
  have hfalling := interpolated_bounds (16384 - a % 16384)
  unfold sine
  dsimp only
  split <;> omega

theorem cosine_bounds (a : Nat) : -16384 ≤ cosine a ∧ cosine a ≤ 16384 := sine_bounds _

/-- Settles O13: the folding by quadrants, its four axes, and the bounds of the interpolated sine. -/
theorem sineAndCosine : Obligations.SineAndCosine := by
  have haxis (q : Nat) (hq : q < 4) := sine_quadrant q 0 hq (by decide)
  exact ⟨sine_quadrant, by simpa using haxis 0, by simpa using haxis 2, by simpa using haxis 1, by simpa using haxis 3,
    fun a _ => sine_bounds a, fun _ _ => rfl, fun a _ => cosine_bounds a⟩

/-! ## The three points -/

/-- A link's product with a scaled sine or cosine is at most its own length, scaled. -/
theorem abs_link_mul_le {l t : Int} (hl : 0 ≤ l) (ht : -16384 ≤ t ∧ t ≤ 16384) : |l * t| ≤ 16384 * l := by
  rw [abs_mul, abs_of_nonneg hl, mul_comm]
  exact mul_le_mul_of_nonneg_right (abs_le.2 ht) hl

/-- One link more on a cumulative sum lengthens its bound by that link (R8). -/
theorem abs_add_link_le {x m l t : Int} (hx : |x| ≤ 16384 * m) (hl : 0 ≤ l) (ht : -16384 ≤ t ∧ t ≤ 16384) :
    |x + l * t| ≤ 16384 * (m + l) :=
  calc |x + l * t| ≤ |x| + |l * t| := abs_add_le _ _
    _ ≤ 16384 * m + 16384 * l := add_le_add hx (abs_link_mul_le hl ht)
    _ = 16384 * (m + l) := by ring

/-- A sum within a scaled length rounds to within the length (R9). -/
theorem roundSum_bounds {x m : Int} (hx : |x| ≤ 16384 * m) : -m ≤ roundSum x ∧ roundSum x ≤ m := by
  rw [abs_le] at hx
  unfold roundSum
  omega

/-- A sum within the scaled length of the longest three links is within R9's bound. -/
theorem sum_bounds {x m : Int} (hx : |x| ≤ 16384 * m) (hm : m ≤ 28000) : -458752000 ≤ x ∧ x ≤ 458752000 := by
  rw [abs_le] at hx
  omega

/-- Settles O14: both coordinates go along the chain by `abs_add_link_le`, and each rounding keeps the length by
`roundSum_bounds`. -/
theorem pointsOfPose : Obligations.PointsOfPose := by
  intro g a1 a2 a3 r _ _ _ hl1 hl2 hl3 hlen hxf hxf' hzf hzf' x1 z1 x2 z2 x3 z3 hx1 hz1 hx2 hz2 hx3 hz3
  have bx1 : |x1| ≤ 16384 * g.l1 := hx1 ▸ abs_link_mul_le (by omega) (cosine_bounds a1)
  have bz1 : |z1| ≤ 16384 * g.l1 := hz1 ▸ abs_link_mul_le (by omega) (sine_bounds a1)
  have bx2 : |x2| ≤ 16384 * (g.l1 + g.l2) := hx2 ▸ abs_add_link_le bx1 (by omega) (cosine_bounds a2)
  have bz2 : |z2| ≤ 16384 * (g.l1 + g.l2) := hz2 ▸ abs_add_link_le bz1 (by omega) (sine_bounds a2)
  have bx3 : |x3| ≤ 16384 * (g.l1 + g.l2 + g.l3) := hx3 ▸ abs_add_link_le bx2 (by omega) (cosine_bounds a3)
  have bz3 : |z3| ≤ 16384 * (g.l1 + g.l2 + g.l3) := hz3 ▸ abs_add_link_le bz2 (by omega) (sine_bounds a3)
  have hpoints : computePoints g a1 a2 a3 r = { r with
      p1Reach := g.xf + roundSum x1, p1Height := g.zf + roundSum z1, p2Reach := g.xf + roundSum x2,
      p2Height := g.zf + roundSum z2, p3Reach := g.xf + roundSum x3, p3Height := g.zf + roundSum z3 } := by
    subst hx1 hz1 hx2 hz2 hx3 hz3
    rfl
  have rx1 := roundSum_bounds bx1
  have rz1 := roundSum_bounds bz1
  have rx2 := roundSum_bounds bx2
  have rz2 := roundSum_bounds bz2
  have rx3 := roundSum_bounds bx3
  have rz3 := roundSum_bounds bz3
  rw [hpoints]
  simp only [List.forall_mem_cons, List.not_mem_nil, false_implies, implies_true, and_true]
  refine ⟨rfl, rfl, rfl, rfl, rfl, rfl, ?sums, ⟨rx1, rz1⟩, ⟨rx2, rz2⟩, ⟨rx3, rz3⟩, ?reaches, ?heights⟩
  case sums =>
    exact ⟨sum_bounds bx1 (by omega), sum_bounds bz1 (by omega), sum_bounds bx2 (by omega), sum_bounds bz2 (by omega),
      sum_bounds bx3 hlen, sum_bounds bz3 hlen⟩
  case reaches => omega
  case heights => omega

end Sys2Proof.Laws
end

section
/-! The limit unit's margins: the floor height along its slope (R50), the length of a slew arc (R52), and the margin of each
limit where its basis is available (R50 to R53). -/

namespace Sys2Proof.Laws

open Sys2Proof.Machine

/-! ## The floor -/

/-- At its reference reach the floor stands at F0 (R50). -/
@[simp] theorem floorHeight_reference (f : Floor) : floorHeight f f.r0 = f.f0 := by
  simp [floorHeight]

/-- A floor whose slope is not negative does not fall with reach: the slope keeps the order of the reaches, and flooring
keeps that of the products. -/
theorem floorHeight_monotone {f : Floor} (hs : 0 ≤ f.s) : Monotone (floorHeight f) := fun a b hab =>
  have hrise : f.s * (a - f.r0) ≤ f.s * (b - f.r0) := mul_le_mul_of_nonneg_left (sub_le_sub_right hab _) hs
  add_le_add_right (Int.ediv_le_ediv (by decide) hrise) _

/-- The floor's product for the slopes and reaches the part can hold: at most the steepest slope by the longest span. -/
theorem abs_slope_mul_le {s d : Int} (hs : |s| ≤ 500) (hd : |d| ≤ 62768) : |s * d| ≤ 31384000 :=
  calc |s * d| = |s| * |d| := abs_mul s d
    _ ≤ 500 * 62768 := mul_le_mul hs hd (abs_nonneg d) (by decide)
    _ = 31384000 := by norm_num

/-- A product within its bound moves the floor height by at most a thousandth of it from F0. -/
theorem floorHeight_bounds {f : Floor} {r : Int} (hf : -20000 ≤ f.f0 ∧ f.f0 ≤ 10000)
    (hp : |f.s * (r - f.r0)| ≤ 31384000) : -51384 ≤ floorHeight f r ∧ floorHeight f r ≤ 41384 := by
  rw [abs_le] at hp
  unfold floorHeight
  omega

/-! ## The slew arc -/

/-- A wrapped angle is a signed 16-bit value. -/
theorem wrapAngle_bounds (v : Int) : -32768 ≤ wrapAngle v ∧ wrapAngle v ≤ 32767 := by
  unfold wrapAngle
  dsimp only
  split <;> omega

/-- Wrapping changes an angle by whole turns only. -/
theorem wrapAngle_sub_emod (v : Int) : (wrapAngle v - v) % 65536 = 0 := by
  unfold wrapAngle
  dsimp only
  split <;> omega

theorem arcLength_nonneg {radius v : Int} (hr : 0 ≤ radius) (hv : 0 ≤ v) : 0 ≤ arcLength radius v :=
  have hproduct : 0 ≤ radius * v * 25736 := by positivity
  Int.ediv_nonneg hproduct (by decide)

/-- An arc outside the sector is at least a millimetre long, however small its angle: the division floors. -/
theorem arcLength_le_neg_one {radius v : Int} (hr : 0 < radius) (hv : v < 0) : arcLength radius v ≤ -1 := by
  have hproduct : radius * v < 0 := mul_neg_of_pos_of_neg hr hv
  unfold arcLength
  omega

/-- Radius by angle, for the radii the part can hold and any wrapped angle. -/
theorem abs_radius_mul_le {radius v : Int} (hr : |radius| ≤ 30000) (hv : |v| ≤ 32768) : |radius * v| ≤ 983040000 :=
  calc |radius * v| = |radius| * |v| := abs_mul radius v
    _ ≤ 30000 * 32768 := mul_le_mul hr hv (abs_nonneg v) (by decide)
    _ = 983040000 := by norm_num

/-- The whole product of an arc is within the bound of R52. -/
theorem arcProduct_bounds {radius v : Int} (hp : |radius * v| ≤ 983040000) :
    -25300000000000 ≤ radius * v * 25736 ∧ radius * v * 25736 ≤ 25300000000000 := by
  rw [abs_le] at hp
  omega

/-- The longest arc is 94249 mm. The bound of `arcProduct_bounds` is too coarse for it below 0, where flooring would give
one millimetre more. -/
theorem arcLength_bounds {radius v : Int} (hp : |radius * v| ≤ 983040000) :
    -94249 ≤ arcLength radius v ∧ arcLength radius v ≤ 94249 := by
  rw [abs_le] at hp
  unfold arcLength
  omega

/-! ## The margin of each limit -/

theorem marginOf_floor {s : State} {f : Floor} (hp : s.poseUsable = true) (hf : s.lim.set.floor = some f) :
    s.marginOf .floor = some (floorMargin f s.pose.record) := by
  simp [State.marginOf, hp, hf]

theorem marginOf_ceiling {s : State} {c : Int} (hp : s.poseUsable = true) (hc : s.lim.set.ceiling = some c) :
    s.marginOf .ceiling = some (ceilingMargin c s.pose.record) := by
  simp [State.marginOf, hp, hc]

theorem marginOf_reach {s : State} {r : Int} (hp : s.poseUsable = true) (hr : s.lim.set.reach = some r) :
    s.marginOf .reach = some (reachMargin r s.pose.record) := by
  simp [State.marginOf, hp, hr]

theorem marginOf_slewLeft {s : State} {l : Int} (hv : s.slewValid = true) (hl : s.lim.set.slewLeft = some l) :
    s.marginOf .slewLeft = some (slewLeftMargin s.slewRadius l s.psi) := by
  simp [State.marginOf, hv, hl]

theorem marginOf_slewRight {s : State} {r : Int} (hv : s.slewValid = true) (hr : s.lim.set.slewRight = some r) :
    s.marginOf .slewRight = some (slewRightMargin s.slewRadius r s.psi) := by
  simp [State.marginOf, hv, hr]

/-- Neither slew limit has a margin while the slew angle is not valid (R53). -/
theorem marginOf_slew_invalid {s : State} {l : Limit} (hl : l = .slewLeft ∨ l = .slewRight) (hv : s.slewValid = false) :
    s.marginOf l = none := by
  rcases hl with rfl | rfl <;> simp [State.marginOf, hv]

/-- Settles O19: the floor's product bounds its height and the height its margin, radius by angle bounds the arc, and each
limit's margin is the one its basis gives. -/
theorem marginsOfPose : Obligations.MarginsOfPose := by
  refine ⟨fun _ _ => rfl, floorHeight_reference, fun _ _ _ hs hab => floorHeight_monotone hs hab, fun _ _ => rfl,
    ?floorBounds, fun _ _ => marginOf_floor, fun _ _ => marginOf_ceiling, fun _ _ => marginOf_reach, fun _ => rfl,
    fun _ => rfl, fun _ _ => marginOf_slewLeft, fun _ _ => marginOf_slewRight,
    fun v => ⟨(wrapAngle_bounds v).1, (wrapAngle_bounds v).2, wrapAngle_sub_emod v⟩, ?arcBounds,
    fun _ _ => marginOf_slew_invalid⟩
  case floorBounds =>
    intro f r h hf hf' hs hs' hr0 hr0' hr hr' hh hh'
    have hproduct : |f.s * (r - f.r0)| ≤ 31384000 :=
      abs_slope_mul_le (abs_le.2 ⟨hs, hs'⟩) (abs_le.2 (by omega))
    have hheight := floorHeight_bounds ⟨hf, hf'⟩ hproduct
    exact ⟨abs_le.1 hproduct, hheight, by omega⟩
  case arcBounds =>
    intro radius v hr hr' hv hv'
    have hproduct : |radius * v| ≤ 983040000 := abs_radius_mul_le (abs_le.2 (by omega)) (abs_le.2 (by omega))
    exact ⟨arcProduct_bounds hproduct, arcLength_nonneg (by omega), arcLength_le_neg_one (by omega),
      arcLength_bounds hproduct⟩

end Sys2Proof.Laws
end

section
/-! What the shared operations do to LINK, SND, NTC and ECO, said once: each is a run of a few elementary acts. A law that every
elementary act keeps is kept by every operation made of them. -/

namespace Sys2Proof.Laws

open Sys2Proof.Machine Relation

-- Many short proofs at once would each hold a thread of the checking process.
set_option Elab.async false

/-! ## The elementary acts -/

/-- What a block may do to LINK's queues: offer a frame, withdraw its frames of a kind, leave a reply's frames to LINK, and take
from the head of the receive queue. -/
inductive LinkStep (l : LinkUnit) : LinkUnit → Prop
  | offer (node : NodeState) (cls : TxClass) (f : TxFrame) (h : f.current = false) :
      LinkStep l (offerFrame node cls f l).1
  | withdraw (k : TxKind) : LinkStep l (withdrawKind k l)
  | forget (o : ReplyOwner) : LinkStep l { l with
      background := l.background.map fun f => if f.reply = some o then { f with reply := none } else f }
  | take (rx : List RxFrame) (taken bad : Nat) (h : rx.length ≤ l.rx.length) :
      LinkStep l { l with rx := rx, itemsTaken := taken, malformed := bad }

/-- What the operations that the blocks share do to LINK's queues: they offer no BACKGROUND frame. -/
inductive QueueStep (l : LinkUnit) : LinkUnit → Prop
  | offer (node : NodeState) (cls : TxClass) (f : TxFrame) (h : f.current = false) (lane : cls ≠ .background) :
      QueueStep l (offerFrame node cls f l).1
  | withdraw (k : TxKind) : QueueStep l (withdrawKind k l)
  | take (rx : List RxFrame) (taken bad : Nat) (h : rx.length ≤ l.rx.length) :
      QueueStep l { l with rx := rx, itemsTaken := taken, malformed := bad }

theorem QueueStep.linkStep {l l' : LinkUnit} (h : QueueStep l l') : LinkStep l l' := by
  cases h with
  | offer node cls f h => exact .offer node cls f h
  | withdraw k => exact .withdraw k
  | take rx taken bad h => exact .take rx taken bad h

/-- A request that a block hands to SND, none of which starts or ends the silence (R169). -/
inductive SoundRequest : (Ms → Snd → Snd) → Prop
  | class1 (on : Bool) : SoundRequest fun now d => sndClass1 now on d
  | class2 (p : Option Pattern) : SoundRequest fun now d => sndClass2 now p d
  | class3 (t : Option Nat) : SoundRequest fun now d => sndClass3 now t d
  | chirp : SoundRequest sndChirp
  | notice (id : Nat) (p : Pattern) : SoundRequest fun now d => sndNotice now id p d
  | withdraw (id : Nat) : SoundRequest fun now d => sndNoticeWithdraw now id d

/-- A request of NTC: a notice's sound placed or withdrawn (R169). -/
inductive NoticeSound : (Ms → Snd → Snd) → Prop
  | notice (id : Nat) (p : Pattern) : NoticeSound fun now d => sndNotice now id p d
  | withdraw (id : Nat) : NoticeSound fun now d => sndNoticeWithdraw now id d

theorem NoticeSound.request {f : Ms → Snd → Snd} (h : NoticeSound f) : SoundRequest f := by
  cases h with
  | notice id p => exact .notice id p
  | withdraw id => exact .withdraw id

/-- What NTC does inside one raise, clear or pass: it rearranges its collections, offers frames and hands requests to SND. -/
inductive NoticeAct : State → State → Prop
  | offer (s : State) (cls : TxClass) (k : TxKind) (dst : Byte) (data : List Byte) (lane : cls ≠ .background) :
      NoticeAct s (s.offer cls k dst data)
  | sound (s : State) {f : Ms → Snd → Snd} (h : NoticeSound f) : NoticeAct s (s.sound f)
  | ntc (s : State) (f : Ntc → Ntc)
      (h : ∀ n, f n = { n with
        pending := (f n).pending, queue := (f n).queue, locals := (f n).locals, logCount := (f n).logCount }) :
      NoticeAct s (s.onNtc f)

/-- A change of ECO's state, caps, request and the timers that go with its state. -/
def EcoMoved (e e' : Eco) : Prop :=
  e' = { e with
    state := e'.state, speedCap := e'.speedCap, pumpCap := e'.pumpCap, idleInhibit := e'.idleInhibit
    delayTimer := e'.delayTimer, delayStart := e'.delayStart, recoveryTimer := e'.recoveryTimer
    yieldTimer := e'.yieldTimer, target := e'.target, requested := e'.requested, speedGov := e'.speedGov
    pumpLimit := e'.pumpLimit, pumpGov := e'.pumpGov }

/-- What an evaluation of limits and a winner change are made of. -/
inductive Act : State → State → Prop
  | link {s : State} {l : LinkUnit} (h : QueueStep s.link l) : Act s { s with link := l }
  | sound (s : State) {f : Ms → Snd → Snd} (h : SoundRequest f) : Act s (s.sound f)
  | raise (s : State) (id : Nat) (v : Option Severity) (d : Detail) : Act s (s.raiseNotice id v d)
  | clear (s : State) (id : Nat) : Act s (s.clearNotice id)
  | eco (s : State) (f : Eco → Eco) (h : EcoMoved s.eco (f s.eco)) : Act s (s.onEco f)
  | rule (s : State) (f : RuleUnit → RuleUnit)
      (h : ∀ u, f u = { u with key := (f u).key, winner := (f u).winner, hits := (f u).hits }) : Act s (s.onRule f)
  | demand (s : State) (c : Channel) (f : ChannelRecord → ChannelRecord)
      (h : ∀ r, f r = { r with limit := (f r).limit, rule := (f r).rule, fail := (f r).fail }) : Act s (s.writeDemand c f)
  | limits (s : State) (f : LimitUnit → LimitUnit)
      (h : ∀ u, f u = { u with set := (f u).set, records := (f u).records }) : Act s (s.onLim f)

/-- A run of notice acts. -/
abbrev NoticeActs : State → State → Prop := ReflTransGen NoticeAct

/-- A run of acts. -/
abbrev Acts : State → State → Prop := ReflTransGen Act

/-- A further act made on a condition. -/
theorem reach_ite {R : State → State → Prop} {s t u : State} {p : Prop} [Decidable p]
    (h : ReflTransGen R s t) (k : ReflTransGen R s u) : ReflTransGen R s (if p then t else u) := by
  split
  · exact h
  · exact k

/-- A fold is made of its steps. -/
theorem reach_foldl {R : State → State → Prop} {α : Type} {f : State → α → State}
    (h : ∀ s a, ReflTransGen R s (f s a)) : ∀ (l : List α) (s : State), ReflTransGen R s (l.foldl f s)
  | [], _ => .refl
  | a :: l, s => (h s a).trans (reach_foldl h l (f s a))

/-! ## The notices -/

theorem offer_queueStep (s : State) (cls : TxClass) (k : TxKind) (dst : Byte) (data : List Byte) (lane : cls ≠ .background) :
    QueueStep s.link (s.offer cls k dst data).link := .offer _ _ _ rfl lane

theorem offer_noticeActs (s : State) (cls : TxClass) (k : TxKind) (dst : Byte) (data : List Byte)
    (lane : cls ≠ .background := by decide) : NoticeActs s (s.offer cls k dst data) :=
  .single (.offer s cls k dst data lane)

theorem ntc_noticeActs (s : State) (f : Ntc → Ntc)
    (h : ∀ n, f n = { n with
      pending := (f n).pending, queue := (f n).queue, locals := (f n).locals, logCount := (f n).logCount }) :
    NoticeActs s (s.onNtc f) := .single (.ntc s f h)

theorem placeSound_noticeActs (s : State) (id : Nat) (p : Option Pattern) : NoticeActs s (s.placeSound id p) := by
  cases p with
  | none => exact .refl
  | some p => exact .single (.sound s (.notice id p))

theorem withdrawSound_noticeActs (s : State) (r : NoticeRecord) : NoticeActs s (s.withdrawSound r) := by
  unfold State.withdrawSound
  split
  · exact .refl
  · exact .single (.sound s (.withdraw r.id))

theorem offerNotice_noticeActs (s : State) (r : NoticeRecord) : NoticeActs s (s.offerNotice r) := offer_noticeActs _ _ _ _ _

theorem offerCleared_noticeActs (s : State) (id cause : Nat) : NoticeActs s (s.offerCleared id cause) :=
  offer_noticeActs _ _ _ _ _

theorem pend_noticeActs (s : State) (r : NoticeRecord) : NoticeActs s (s.pend r) := ntc_noticeActs _ _ fun _ => rfl

theorem joinQueue_noticeActs (s : State) (r : NoticeRecord) : NoticeActs s (s.joinQueue r) :=
  ((ntc_noticeActs s _ fun _ => rfl).trans (offerNotice_noticeActs _ _)).trans (placeSound_noticeActs _ _ _)

theorem offerQueue_noticeActs (s : State) (r : NoticeRecord) : NoticeActs s (s.offerQueue r) := by
  unfold State.offerQueue
  refine reach_ite (joinQueue_noticeActs s r) ?_
  split
  · exact joinQueue_noticeActs s r
  · refine reach_ite ?_ (pend_noticeActs s _)
    exact (((ntc_noticeActs s _ fun _ => rfl).trans (withdrawSound_noticeActs _ _)).trans
      (offerCleared_noticeActs _ _ _)).trans ((pend_noticeActs _ _).trans (joinQueue_noticeActs _ _))

theorem presentationPass_noticeActs : ∀ (n : Nat) (s : State), NoticeActs s (presentationPass n s)
  | 0, _ => .refl
  | n + 1, s => by
    unfold presentationPass
    split
    · exact .refl
    · exact reach_ite (((ntc_noticeActs s _ fun _ => rfl).trans (offerQueue_noticeActs _ _)).trans
        (presentationPass_noticeActs n _)) .refl

theorem pass_noticeActs (s : State) : NoticeActs s s.pass := presentationPass_noticeActs _ s

theorem reapply_noticeActs (s : State) (r : NoticeRecord) : NoticeActs s (s.reapply r) :=
  reach_ite .refl (((withdrawSound_noticeActs s r).trans (placeSound_noticeActs _ _ _)).trans
    (ntc_noticeActs _ _ fun _ => rfl))

theorem conditionsChanged_noticeActs (s : State) : NoticeActs s s.conditionsChanged :=
  (reach_foldl reapply_noticeActs _ s).trans (pass_noticeActs _)

theorem raiseNew_noticeActs (s : State) (r : NoticeRecord) : NoticeActs s (s.raiseNew r) := by
  unfold State.raiseNew
  dsimp only
  split
  · exact (ntc_noticeActs s _ fun _ => rfl).trans (placeSound_noticeActs _ _ _)
  · exact reach_ite (offerQueue_noticeActs s r) ((pend_noticeActs s _).trans (placeSound_noticeActs _ _ _))

theorem raiseQueued_noticeActs (s : State) (r : NoticeRecord) (v : Severity) (d : Detail) :
    NoticeActs s (s.raiseQueued r v d) :=
  reach_ite ((ntc_noticeActs s _ fun _ => rfl).trans (offerNotice_noticeActs _ _))
    (((ntc_noticeActs s _ fun _ => rfl).trans (offerNotice_noticeActs _ _)).trans (placeSound_noticeActs _ _ _))

theorem raisePending_noticeActs (s : State) (r : NoticeRecord) (v : Severity) (d : Detail) :
    NoticeActs s (s.raisePending r v d) :=
  reach_ite (pend_noticeActs s _) (((pend_noticeActs s _).trans (reapply_noticeActs _ _)).trans (pass_noticeActs _))

theorem raiseLocal_noticeActs (s : State) (r : NoticeRecord) (v : Severity) (d : Detail) :
    NoticeActs s (s.raiseLocal r v d) :=
  reach_ite (ntc_noticeActs s _ fun _ => rfl)
    (((withdrawSound_noticeActs s r).trans (placeSound_noticeActs _ _ _)).trans (ntc_noticeActs _ _ fun _ => rfl))

theorem raiseNotice_noticeActs (s : State) (id : Nat) (v : Option Severity) (d : Detail) :
    NoticeActs s (s.raiseNotice id v d) := by
  unfold State.raiseNotice
  refine reach_ite .refl ?_
  split
  · exact .refl
  · dsimp only
    split
    · exact raiseQueued_noticeActs s _ _ _
    · exact raisePending_noticeActs s _ _ _
    · exact raiseLocal_noticeActs s _ _ _
    · exact raiseNew_noticeActs s _

theorem clearNotice_noticeActs (s : State) (id : Nat) : NoticeActs s (s.clearNotice id) := by
  unfold State.clearNotice
  refine reach_ite .refl ?_
  split
  · exact (((ntc_noticeActs s _ fun _ => rfl).trans (withdrawSound_noticeActs _ _)).trans
      (offerCleared_noticeActs _ _ _)).trans (pass_noticeActs _)
  · exact (ntc_noticeActs s _ fun _ => rfl).trans (withdrawSound_noticeActs _ _)
  · exact (ntc_noticeActs s _ fun _ => rfl).trans (withdrawSound_noticeActs _ _)
  · exact .refl

/-! ## ECO -/

theorem offer_acts (s : State) (cls : TxClass) (k : TxKind) (dst : Byte) (data : List Byte)
    (lane : cls ≠ .background := by decide) : Acts s (s.offer cls k dst data) :=
  .single (.link (offer_queueStep s cls k dst data lane))

theorem raiseNotice_acts (s : State) (id : Nat) (v : Option Severity) (d : Detail) : Acts s (s.raiseNotice id v d) :=
  .single (.raise s id v d)

theorem clearNotice_acts (s : State) (id : Nat) : Acts s (s.clearNotice id) := .single (.clear s id)

theorem eco_acts (s : State) (f : Eco → Eco) (h : EcoMoved s.eco (f s.eco)) : Acts s (s.onEco f) := .single (.eco s f h)

theorem tellSpeed_acts (s : State) (b : Option Nat) : Acts s (s.tellSpeed b) :=
  reach_ite .refl (reach_ite (offer_acts s _ _ _ _) (.single (.link (.withdraw _))))

theorem tellPump_acts (s : State) (b : Option Nat) : Acts s (s.tellPump b) :=
  reach_ite .refl (reach_ite (offer_acts s _ _ _ _) (.single (.link (.withdraw _))))

theorem reform_acts (s : State) : Acts s s.reform :=
  (eco_acts s _ (by rfl)).trans ((tellSpeed_acts _ _).trans (tellPump_acts _ _))

theorem enterEco_acts (s : State) (st : EcoState) : Acts s (s.enterEco st) :=
  (eco_acts s _ (by rfl)).trans (reform_acts _)

theorem enterNeutralWait_acts (s : State) : Acts s s.enterNeutralWait :=
  (enterEco_acts s _).trans (eco_acts _ _ (by rfl))

theorem enterWork_acts (s : State) : Acts s s.enterWork :=
  (enterEco_acts s _).trans (reach_ite (enterNeutralWait_acts _) .refl)

theorem recoveryTest_acts (s : State) : Acts s s.recoveryTest :=
  reach_ite ((clearNotice_acts s _).trans (enterWork_acts _)) .refl

theorem enterRecover_acts (s : State) : Acts s s.enterRecover :=
  ((enterEco_acts s _).trans (eco_acts _ _ (by rfl))).trans (recoveryTest_acts _)

theorem permitEvent_acts (s : State) : Acts s s.permitEvent := by
  unfold State.permitEvent
  split
  · exact reach_ite (enterNeutralWait_acts s) .refl
  · exact reach_ite .refl (enterWork_acts s)
  · exact reach_ite .refl (enterRecover_acts s)
  all_goals exact .refl

theorem reformTarget_acts (s : State) : Acts s s.reformTarget :=
  (reform_acts s).trans (reach_ite .refl (recoveryTest_acts _))

theorem writeCaps_acts (s : State) (a : RuleActions) : Acts s (s.writeCaps a) :=
  (eco_acts s _ (by rfl)).trans (reach_ite ((reformTarget_acts _).trans (permitEvent_acts _)) .refl)

theorem derateEvent_acts (s : State) : Acts s s.derateEvent := reach_ite (reformTarget_acts s) .refl

/-! ## RULE -/

theorem rule_acts (s : State) (f : RuleUnit → RuleUnit)
    (h : ∀ u, f u = { u with key := (f u).key, winner := (f u).winner, hits := (f u).hits }) : Acts s (s.onRule f) :=
  .single (.rule s f h)

theorem writeDemands_acts (s : State) (f : Channel → ChannelRecord → ChannelRecord)
    (h : ∀ c r, f c r = { r with limit := (f c r).limit, rule := (f c r).rule, fail := (f c r).fail }) :
    Acts s (s.writeDemands f) := reach_foldl (fun t c => .single (.demand t c (f c) (h c))) _ s

theorem ruleSound_acts (s : State) (old new : Option Pattern) : Acts s (s.ruleSound old new) :=
  reach_ite (.single (.sound s (.class2 new))) .refl

theorem clearRuleNotice_acts (s : State) (old : Option Nat) : Acts s (s.clearRuleNotice old) := by
  cases old
  · exact .refl
  · exact reach_ite (clearNotice_acts s _) .refl

theorem raiseRuleNotice_acts (s : State) (w : Nat) (k : Key) : Acts s (s.raiseRuleNotice w k) :=
  reach_ite (raiseNotice_acts s _ _ _) .refl

theorem changeWinner_acts (s : State) (w : Nat) (k : Key) : Acts s (s.changeWinner w k) :=
  ((((rule_acts s _ fun _ => rfl).trans (writeDemands_acts _ _ fun _ _ => rfl)).trans (writeCaps_acts _ _)).trans
    (ruleSound_acts _ _ _)).trans ((clearRuleNotice_acts _ _).trans (raiseRuleNotice_acts _ _ _))

theorem lookupKey_acts (s : State) (k : Key) : Acts s (s.lookupKey k) := reach_ite .refl (changeWinner_acts s _ k)

theorem rebuild_acts (s : State) : Acts s s.rebuild :=
  reach_ite (reach_ite .refl ((rule_acts s _ fun _ => rfl).trans (lookupKey_acts _ _))) .refl

/-! ## LIM -/

theorem stopNotice_acts (s : State) (o : PerLimit LimitRecord) (l : Limit) : Acts s (s.stopNotice o l) :=
  reach_ite (raiseNotice_acts s _ _ _) (reach_ite (clearNotice_acts s _) .refl)

theorem limitSounds_acts (s : State) : Acts s s.limitSounds := by
  unfold State.limitSounds
  dsimp only
  have first : Acts s (if s.snd.class1 = anyStop s.lim.records then s
      else s.sound fun now d => sndClass1 now (anyStop s.lim.records) d) :=
    reach_ite .refl (.single (.sound s (.class1 _)))
  refine first.trans (reach_ite .refl (.single (.sound _ (.class3 _))))

theorem writeLimitDemands_acts (s : State) : Acts s s.writeLimitDemands := by
  unfold State.writeLimitDemands
  exact writeDemands_acts s _ fun _ _ => rfl

theorem offerStatusChange_acts (s : State) : Acts s s.offerStatusChange := offer_acts _ _ _ _ _

theorem limits_acts (s : State) (f : LimitUnit → LimitUnit)
    (h : ∀ u, f u = { u with set := (f u).set, records := (f u).records }) : Acts s (s.onLim f) := .single (.limits s f h)

theorem evaluateStates_acts (s : State) (p : Limit → Bool) : Acts s (s.evaluateStates p) := by
  unfold State.evaluateStates
  exact ((limits_acts s _ fun _ => rfl).trans (reach_foldl (fun t l => stopNotice_acts t _ l) _ _)).trans
    (limitSounds_acts _)

theorem evaluateLimits_acts (s : State) (p : Limit → Bool) : Acts s (s.evaluateLimits p) := by
  unfold State.evaluateLimits
  exact ((evaluateStates_acts s p).trans (writeLimitDemands_acts _)).trans
    (reach_ite ((offerStatusChange_acts _).trans (rebuild_acts _)) .refl)

theorem settleRx_length (es : List Stream) : ∀ (rx : List RxFrame) (n : Nat), (settleRx es rx n).1.length ≤ rx.length
  | [], _ => Nat.le_refl _
  | f :: fs, n => by
    have ih := settleRx_length es fs 0
    unfold settleRx
    split
    · exact Nat.le_succ_of_le ih
    · exact Nat.le_succ_of_le ih
    · split
      · exact Nat.le_refl _
      · exact Nat.le_succ_of_le ih
    · exact Nat.le_refl _

theorem settled_acts (s : State) : Acts s s.settled :=
  .single (.link (.take _ _ _ (settleRx_length _ _ _)))

theorem takeFrame_acts (s : State) : Acts s s.takeFrame :=
  .head (.link (.take _ _ s.link.malformed (by simp))) (settled_acts _)

theorem takeItem_acts (s : State) : Acts s s.takeItem :=
  .head (.link (.take s.link.rx _ s.link.malformed (Nat.le_refl _))) (settled_acts _)

theorem respond_acts (s : State) (i : SettingItem) (r : SettingResult) (a b c : Option Int) :
    Acts s (s.respond i r a b c) := offer_acts _ _ _ _ _

theorem limitItem_acts (s : State) (n : Nat) (d : State → Int → LimitDecision) (p : Limit → Bool)
    (v : LimitSet → Option Int × Option Int × Option Int) : Acts s (s.limitItem n d p v) := by
  unfold State.limitItem
  split
  · exact .refl
  · dsimp only
    refine (takeItem_acts s).trans (ReflTransGen.trans ?_ (respond_acts _ _ _ _ _ _))
    split
    · exact .refl
    · exact (limits_acts _ _ fun _ => rfl).trans (evaluateLimits_acts _ _)

theorem raiseItem_acts (s : State) (i : ServiceItem) : Acts s (s.raiseItem i) := by
  unfold State.raiseItem
  split
  · exact .refl
  · exact raiseNotice_acts s _ _ _

end Sys2Proof.Laws
end

section
/-! What every command is made of, as far as LINK, SND and NTC go: acts, the entries to the node states, the commands of SND and NTC,
and, for the five transmit commands alone, further changes of LINK. -/

namespace Sys2Proof.Laws

open Sys2Proof.Machine Relation

-- Many short proofs at once would each hold a thread of the checking process.
set_option Elab.async false

/-! ## The parts of a command -/

/-- What a command other than a transmit command may do to LINK beyond the acts: take a frame from the bus, count and mark, empty the
classes, enter JOIN or QUIET, and start again. -/
inductive LinkMove (l : LinkUnit) : LinkUnit → Prop
  | step {l' : LinkUnit} (h : LinkStep l l') : LinkMove l l'
  | receive (f : RxFrame) (h : l.rx.length < 16) : LinkMove l { l with rx := l.rx ++ [f] }
  | mark (l' : LinkUnit)
      (h : l' = { l with
        address := l'.address, bitRate := l'.bitRate, clashes := l'.clashes, overruns := l'.overruns
        clashMark := l'.clashMark }) : LinkMove l l'
  | empty : LinkMove l (emptyClasses l)
  | join : LinkMove l (joinLink l)
  | quiet : LinkMove l (quietLink l)
  | reset : LinkMove l LinkUnit.reset

/-- What the commands of SND themselves do (R168, R171, R172). -/
inductive SoundCommand : (Ms → Snd → Snd) → Prop
  | silence : SoundCommand sndSilence
  | silenceEnd : SoundCommand sndSilenceEnd
  | oneShotEnd : SoundCommand sndOneShotEnd
  | phase (d : Ms) : SoundCommand fun _ => sndPhase d

/-- A change of NTC that leaves its three collections. -/
def KeepsNotices (f : Ntc → Ntc) : Prop :=
  ∀ n, (f n).pending = n.pending ∧ (f n).queue = n.queue ∧ (f n).locals = n.locals

/-- The parts of a command. With `wire` the changes of LINK are free: a transmit command's. -/
inductive Part (wire : Bool) : State → State → Prop
  | act {s t : State} (h : Act s t) : Part wire s t
  | link {s : State} {l : LinkUnit} (h : LinkMove s.link l) : Part wire s { s with link := l }
  | attempt (s : State) (l : LinkUnit) (h : wire = true) : Part wire s { s with link := l }
  | command (s : State) {f : Ms → Snd → Snd} (h : SoundCommand f) : Part wire s (s.sound f)
  | silent (s : State) (d : Snd) (h : d = sndClear s.snd ∨ d = Snd.reset) : Part wire s { s with snd := d }
  | desk (s : State) (f : Ntc → Ntc) (h : KeepsNotices f) : Part wire s (s.onNtc f)
  | conditions (s : State) (f : Ntc → Ntc) (h : KeepsNotices f) : Part wire s (s.setConditions f)
  | unqueue (s : State) (id : Nat) : Part wire s (s.onNtc fun n => { n with queue := withoutId id n.queue })
  | repend (s : State) (r : NoticeRecord) (h : ∃ x, findId r.id s.ntc.pending = some x) : Part wire s (s.pend r)
  | pass (s : State) : Part wire s s.pass
  | emptied (s : State) (n : Ntc) (h : n.pending = [] ∧ n.queue = [] ∧ n.locals = []) : Part wire s { s with ntc := n }
  | rest {s t : State} (hp : t.pending = s.pending) (hl : t.link = s.link) (hs : t.snd = s.snd) (hn : t.ntc = s.ntc) :
      Part wire s t

/-- A run of parts. -/
abbrev Parts (wire : Bool) : State → State → Prop := ReflTransGen (Part wire)

variable {wire : Bool} {s t : State}

theorem acts_parts (h : Acts s t) : Parts wire s t := by
  induction h with
  | refl => exact .refl
  | tail _ act ih => exact ih.tail (.act act)

/-- A change outside LINK, SND and NTC. -/
theorem rest_parts (hp : t.pending = s.pending := by rfl) (hl : t.link = s.link := by rfl) (hs : t.snd = s.snd := by rfl)
    (hn : t.ntc = s.ntc := by rfl) : Parts wire s t := .single (.rest hp hl hs hn)

theorem link_parts {l : LinkUnit} (h : LinkMove s.link l) : Parts wire s { s with link := l } := .single (.link h)

theorem linkStep_parts {l : LinkUnit} (h : LinkStep s.link l) : Parts wire s { s with link := l } := .single (.link (.step h))

theorem touches_parts {b : Blocks} (h : Touches b s t) (hb : (b.pending || b.link || b.snd || b.ntc) = false) :
    Parts wire s t := by
  simp only [Bool.or_eq_false_iff, and_assoc] at hb
  obtain ⟨hp, hl, hs, hn⟩ := hb
  exact rest_parts (h.pending hp) (h.link hl) (h.snd hs) (h.ntc hn)

theorem arriveAt_parts (s : State) (d : Ms) : Parts wire s (s.arriveAt d) :=
  touches_parts (arriveAt_touches s d) rfl

theorem pick_parts (s : State) (n : Nat) : Parts wire s (s.pick n).2 := by
  unfold State.pick
  split
  · exact .refl
  · exact rest_parts

/-- Events in a free order are made of the parts of the events. -/
theorem anyOrder_parts (threads : List (List (State → State))) (s : State)
    (h : ∀ thread ∈ threads, ∀ event ∈ thread, ∀ t, Parts wire t (event t)) : Parts wire s (anyOrder threads s) :=
  anyOrder_keeps (P := fun t => Parts wire s t) (fun _ _ k => k.trans rest_parts) threads s
    (fun thread ht event he t k => k.trans (h thread ht event he t)) .refl

/-! ## Replies -/

theorem setReply_parts (s : State) (o : ReplyOwner) (r : Option ListReply) : Parts wire s (s.setReply o r) := by
  cases o <;> exact rest_parts

theorem deliver_parts : ∀ (n : Nat) (o : ReplyOwner) (s : State), Parts wire s (deliver n o s)
  | 0, _, _ => .refl
  | n + 1, o, s => by
    unfold deliver
    split
    · exact .refl
    · exact setReply_parts s o none
    · rename_i dst m rest _
      dsimp only
      have offered := (setReply_parts (wire := wire) s o (some ⟨dst, rest⟩)).trans
        (linkStep_parts (l := (offerFrame s.cfg.node .background
          { s.frame .statsReply dst (s.replyFrame o m) with reply := some o } s.link).1)
          (by rw [show (s.setReply o (some ⟨dst, rest⟩)).link = s.link by cases o <;> rfl]
              exact .offer _ _ _ rfl))
      split
      · exact offered
      · exact offered.trans (deliver_parts n _ _)

theorem report_parts (s : State) (o : Option ReplyOwner) : Parts wire s (s.report o) := by
  cases o
  · exact .refl
  · exact deliver_parts _ _ s

theorem reports_parts (s : State) (os : List ReplyOwner) : Parts wire s (s.reports os) :=
  reach_foldl (fun t o => report_parts t (some o)) os s

theorem offerBackground_parts (s : State) (f : TxFrame) (h : f.current = false) : Parts wire s (s.offerBackground f) :=
  (linkStep_parts (.offer _ _ f h)).trans (report_parts _ _)

theorem beginReply_parts (s : State) (o : ReplyOwner) (d : Byte) (x : Option (List Byte)) (n : List Nat) :
    Parts wire s (s.beginReply o d x n) := by
  have abandoned : Parts wire s (s.abandonReply o) :=
    (setReply_parts s o none).trans (linkStep_parts (.forget o))
  unfold State.beginReply
  refine abandoned.trans ?_
  split
  · exact (setReply_parts _ o _).trans (offerBackground_parts _ _ rfl)
  · exact .refl
  · exact (setReply_parts _ o _).trans (offerBackground_parts _ _ rfl)

/-! ## NTC, ECO and HOLD -/

theorem takeTimestamp_parts (s : State) : Parts wire s s.takeTimestamp := by
  unfold State.takeTimestamp
  refine reach_ite .refl ?_
  split
  · exact .single (.conditions s _ fun _ => ⟨rfl, rfl, rfl⟩)
  · exact reach_ite (.single (.conditions s _ fun _ => ⟨rfl, rfl, rfl⟩)) (.single (.conditions s _ fun _ => ⟨rfl, rfl, rfl⟩))

theorem takeDisplay_parts (s : State) : Parts wire s s.takeDisplay := .single (.conditions s _ fun _ => ⟨rfl, rfl, rfl⟩)

theorem formNtc_parts (s : State) : Parts wire s s.formNtc := (takeTimestamp_parts s).trans (takeDisplay_parts _)

theorem formNeutral_parts (s : State) (d : Ms) : Parts wire s (s.formNeutral d) :=
  (touches_parts (onEco_touches s _) rfl).trans (reach_ite .refl (takeTimestamp_parts _))

theorem engineCondition_parts (s : State) : Parts wire s s.engineCondition :=
  (touches_parts (onEco_touches s _) rfl).trans
    (reach_ite (reach_ite (acts_parts (enterWork_acts _)) .refl) (reach_ite .refl (acts_parts (enterEco_acts _ _))))

theorem ecoHydraulic_parts (s : State) (d : Ms) : Parts wire s (s.ecoHydraulic d) :=
  (formNeutral_parts s d).trans (acts_parts (permitEvent_acts _))

theorem ecoGrant_parts (s : State) : Parts wire s s.ecoGrant :=
  (touches_parts (holdGrant_touches s) rfl).trans
    ((touches_parts (onEco_touches _ _) rfl).trans (reach_ite (acts_parts (enterWork_acts _)) .refl))

theorem ecoEnterRun_parts (s : State) : Parts wire s s.ecoEnterRun :=
  ((formNeutral_parts s _).trans (acts_parts (reform_acts _))).trans (engineCondition_parts _)

theorem ecoEngineArrival_parts (s : State) (e : Stream) : Parts wire s (s.ecoEngineArrival e) :=
  ((touches_parts (fuelArrival_touches s e) rfl).trans (engineCondition_parts _)).trans
    (acts_parts (recoveryTest_acts _))

theorem ecoEngineState_parts (s : State) (e : Stream) : Parts wire s (s.ecoEngineState e) :=
  (touches_parts (onEco_touches s _) rfl).trans (engineCondition_parts _)

theorem ecoCycle_parts (s : State) (n : Nat) : Parts wire s (s.ecoCycle n) := by
  unfold State.ecoCycle
  exact (offerBackground_parts s _ rfl).trans (touches_parts (onEco_touches _ _) rfl)

theorem changeHold_parts (s : State) (f : HoldTable → HoldTable) : Parts wire s (s.changeHold f) := by
  have table : ∀ g, Parts wire s ((s.onHold f).writeDemands g) := fun g =>
    ReflTransGen.trans (touches_parts (onHold_touches s f) rfl)
      (touches_parts (writeDemands_touches _ g) rfl)
  unfold State.changeHold
  dsimp only
  have rebuilt := reach_ite (p := ((s.onHold f).writeDemands fun c r =>
    { r with hold := (s.onHold f).hold.demand c }).hold.active = s.hold.active)
    (table fun c r => { r with hold := (s.onHold f).hold.demand c })
    ((table fun c r => { r with hold := (s.onHold f).hold.demand c }).trans (acts_parts (rebuild_acts _)))
  exact reach_ite (rebuilt.trans (acts_parts (clearNotice_acts _ _))) rebuilt

theorem takeHold_parts (s : State) (r : HoldRequest) : Parts wire s (s.takeHold r) := by
  unfold State.takeHold
  refine reach_ite .refl ?_
  split
  · have changed := changeHold_parts (wire := wire) s fun _ => (decideHold s.img.holds s.now s.hold r).table
    refine ReflTransGen.trans (reach_ite (changed.trans ?_) changed) (acts_parts (offer_acts _ _ _ _ _))
    exact acts_parts (.head (.sound _ .chirp) (raiseNotice_acts _ _ _ _))
  · exact acts_parts (offer_acts _ _ _ _ _)
  · exact acts_parts (offer_acts _ _ _ _ _)
  all_goals exact .refl

/-! ## SVC -/

theorem formDerate_parts (s : State) : Parts wire s s.formDerate :=
  reach_ite .refl ((touches_parts (onSvc_touches s _) rfl).trans (acts_parts (derateEvent_acts _)))

theorem evaluate_parts (s : State) (p : ServiceItem → Bool) : Parts wire s (s.evaluate p) := by
  unfold State.evaluate
  exact ((touches_parts (onSvc_touches s _) rfl).trans
    (reach_foldl (fun t i => acts_parts (raiseItem_acts t _)) _ _)).trans (formDerate_parts _)

theorem remindAgain_parts (s : State) (i : ServiceItem) : Parts wire s (s.remindAgain i) :=
  reach_ite (acts_parts (raiseItem_acts s i)) .refl

theorem countReminds_parts (s : State) : Parts wire s s.countReminds :=
  (touches_parts (onSvc_touches s _) rfl).trans (reach_foldl remindAgain_parts _ _)

theorem requestWrite_parts (s : State) : Parts wire s s.requestWrite :=
  touches_parts (requestWrite_touches s) rfl

theorem svcSecond_parts (s : State) : Parts wire s s.svcSecond := by
  unfold State.svcSecond
  dsimp only
  have counted : Parts wire s s.countSecond := touches_parts (countSecond_touches s) rfl
  refine reach_ite ?_ counted
  have evaluated := counted.trans (evaluate_parts s.countSecond inHours)
  exact ReflTransGen.trans (reach_ite (evaluated.trans (requestWrite_parts _)) evaluated) (countReminds_parts _)

theorem countCycle_parts (s : State) : Parts wire s s.countCycle :=
  reach_ite (((touches_parts (onSvc_touches s _) rfl).trans (evaluate_parts _ _)).trans (ecoCycle_parts _ _)) .refl

theorem digStep_parts (s : State) : Parts wire s s.digStep :=
  (touches_parts (onSvc_touches s _) rfl).trans (reach_ite (countCycle_parts _) .refl)

theorem recordGood_parts (s : State) : Parts wire s s.recordGood := by
  unfold State.recordGood
  split
  · exact .refl
  · exact (touches_parts (onCfg_touches s _) rfl).trans (acts_parts (clearNotice_acts _ _))

theorem endWrite_parts (s : State) (ok : Bool) : Parts wire s (s.endWrite ok) := by
  unfold State.endWrite
  dsimp only
  have noted : Parts wire s (s.onSvc fun v => { v with
      write := none, lastFailed := !ok, writeFails := if ok then v.writeFails else sat16 v.writeFails }) :=
    touches_parts (onSvc_touches s _) rfl
  have good := reach_ite (p := ok = true) (noted.trans (recordGood_parts _)) noted
  exact reach_ite (good.trans ((touches_parts (onSvc_touches _ _) rfl).trans
    (touches_parts (startWrite_touches _) rfl))) good

theorem doService_parts (s : State) (n : Int) : Parts wire s (s.doService n) :=
  (((touches_parts (onSvc_touches s _) rfl).trans (acts_parts (clearNotice_acts _ _))).trans
    (formDerate_parts _)).trans (requestWrite_parts _)

theorem svcEnterRun_parts (s : State) : Parts wire s s.svcEnterRun := by
  unfold State.svcEnterRun
  exact ((touches_parts (onSvc_touches s _) rfl).trans (formDerate_parts _)).trans
    (reach_foldl (fun t i => acts_parts (raiseItem_acts t i)) _ _)

/-! ## STM -/

theorem tellFault_parts (s : State) (a b : Stream) : Parts wire s (s.tellFault a b) := by
  unfold State.tellFault
  refine reach_ite .refl ?_
  split
  · exact acts_parts (raiseNotice_acts s _ _ _)
  · exact acts_parts (clearNotice_acts s _)

theorem streamEvent_parts (s : State) (e : Stream) (a c : Bool) : Parts wire s (s.streamEvent e a c) := by
  unfold State.streamEvent
  refine reach_ite (reach_ite (touches_parts (holdGrant_touches s) rfl) .refl) ?_
  split
  · refine reach_ite (anyOrder_parts _ _ ?_) .refl
    simp only [List.mem_cons, List.not_mem_nil, or_false, forall_eq_or_imp, forall_eq]
    exact ⟨fun _ => acts_parts (evaluateLimits_acts _ _), fun _ => acts_parts (rebuild_acts _)⟩
  · refine ReflTransGen.trans (reach_ite (ecoEngineArrival_parts s e) (ecoEngineState_parts s e)) (acts_parts (rebuild_acts _))
  · exact ecoGrant_parts s
  · exact (ecoHydraulic_parts s _).trans (acts_parts (rebuild_acts _))
  · exact reach_ite (takeDisplay_parts s) .refl
  all_goals exact .refl

theorem changeEntry_parts (s : State) (e e' : Stream) (a : Bool) : Parts wire s (s.changeEntry e e' a) :=
  ((touches_parts (setEntry_touches s e') rfl).trans (tellFault_parts _ _ _)).trans (streamEvent_parts _ _ _ _)

theorem arrive_parts (s : State) (e : Stream) (data : List Byte) : Parts wire s (s.arrive e data) := by
  unfold State.arrive
  refine reach_ite (touches_parts (setEntry_touches s _) rfl) ?_
  dsimp only
  split
  · exact touches_parts (setEntry_touches s _) rfl
  · exact changeEntry_parts s _ _ _
  · exact changeEntry_parts s _ _ _

/-! ## The node states -/

theorem enterJoin_parts (s : State) : Parts wire s s.enterJoin :=
  (link_parts .join).trans rest_parts

theorem offerNodeStatus_parts (s : State) : Parts wire s s.offerNodeStatus := offerBackground_parts s _ rfl

theorem enterQuiet_parts (s : State) : Parts wire s s.enterQuiet :=
  ((link_parts .quiet).trans rest_parts).trans (offerNodeStatus_parts _)

theorem joinOrQuiet_parts (s : State) : Parts wire s s.joinOrQuiet :=
  reach_ite (enterJoin_parts s) (enterQuiet_parts s)

theorem leaveRun_parts (s : State) : Parts wire s s.leaveRun := by
  have quietened : Parts wire s { s with
      link := emptyClasses s.link, snd := sndClear s.snd, ntc := leaveNtc s.img.notices.busyFlag s.ntc } :=
    ((link_parts .empty).trans (.single (.silent _ _ (.inl rfl)))).trans (.single (.emptied _ _ ⟨rfl, rfl, rfl⟩))
  exact (quietened.trans rest_parts).trans (requestWrite_parts _)

theorem keyEvent_parts (s : State) : Parts wire s s.keyEvent := by
  unfold State.keyEvent
  split
  · exact reach_ite .refl (enterQuiet_parts s)
  · exact reach_ite .refl (leaveRun_parts s)
  · exact reach_ite (enterJoin_parts s) .refl
  all_goals exact .refl

theorem raiseFaults_parts (s : State) : Parts wire s s.raiseFaults := by
  refine reach_foldl (fun t e => ?_) _ s
  split
  · exact acts_parts (raiseNotice_acts t _ _ _)
  · exact .refl

theorem raiseClash_parts (s : State) : Parts wire s s.raiseClash := by
  unfold State.raiseClash
  split
  · exact .refl
  · exact (link_parts (.mark _ rfl)).trans (acts_parts (raiseNotice_acts _ _ _ _))

theorem raiseLost_parts (s : State) : Parts wire s s.raiseLost := by
  unfold State.raiseLost
  split
  · exact .refl
  · exact acts_parts (raiseNotice_acts s _ _ _)

theorem beginPeriod_parts (s : State) (c : Channel) : Parts wire s (s.beginPeriod c) :=
  touches_parts (beginPeriod_touches s c) rfl

/-- The events of LIM's thread at the entry to RUN. -/
theorem mem_limitThread {first : Bool} {event : State → State} (h : event ∈ limitThread first) :
    event = (fun s => s.evaluateStates fun _ => true) ∨ event = State.rebuild ∨ event = State.writeLimitDemands := by
  unfold limitThread at h
  rcases List.mem_cons.1 h with h | h
  · exact .inl h
  · refine .inr ?_
    split at h
    · rcases List.mem_cons.1 h with h | h
      · exact .inl h
      · exact .inr (List.mem_singleton.1 h)
    · rcases List.mem_cons.1 h with h | h
      · exact .inr h
      · exact .inl (List.mem_singleton.1 h)

theorem runThreads_parts (first : Bool) : ∀ thread ∈ runThreads first, ∀ event ∈ thread, ∀ t, Parts wire t (event t) := by
  have limits : ∀ event ∈ limitThread first, ∀ t, Parts wire t (event t) := by
    intro event h t
    rcases mem_limitThread h with rfl | rfl | rfl
    · exact acts_parts (evaluateStates_acts t _)
    · exact acts_parts (rebuild_acts t)
    · exact acts_parts (writeLimitDemands_acts t)
  simp only [runThreads, List.mem_cons, List.not_mem_nil, or_false, forall_eq_or_imp, forall_eq]
  exact ⟨raiseFaults_parts, limits, fun _ => beginPeriod_parts _ _, fun _ => beginPeriod_parts _ _,
    fun _ => beginPeriod_parts _ _, fun _ => beginPeriod_parts _ _, fun _ => beginPeriod_parts _ _,
    fun _ => beginPeriod_parts _ _, ecoEnterRun_parts, svcEnterRun_parts, formNtc_parts, raiseClash_parts, raiseLost_parts⟩

theorem startRun_parts (s : State) : Parts wire s s.startRun :=
  ReflTransGen.trans (.single (.desk s (fun n => { n with summaryTimer := some (after s.now 1000) }) fun _ => ⟨rfl, rfl, rfl⟩))
    rest_parts

theorem reportEntry_parts (s b : State) : Parts wire s (s.reportEntry b) := by
  unfold State.reportEntry
  exact ReflTransGen.trans (reach_ite (acts_parts (offerStatusChange_acts s)) .refl)
    (reach_foldl (fun t _ => acts_parts (offerStatusChange_acts t)) _ _)

theorem enterRun_parts (s : State) : Parts wire s s.enterRun :=
  (((startRun_parts s).trans (pick_parts _ 2)).trans (anyOrder_parts _ _ (runThreads_parts _))).trans
    (reportEntry_parts _ _)

theorem endRecordRead_parts (s : State) (block : Option (List Byte)) : Parts wire s (s.endRecordRead block) := by
  unfold State.endRecordRead
  dsimp only
  refine ReflTransGen.trans ?_ (joinOrQuiet_parts _)
  refine ReflTransGen.trans ?_ (touches_parts (onEco_touches _ _) rfl)
  exact ReflTransGen.trans rest_parts (evaluate_parts _ _)

theorem storeEnd_parts (s : State) : Parts wire s s.storeEnd := reach_ite (joinOrQuiet_parts s) .refl

theorem acceptImage_parts (s : State) (im : Image) : Parts wire s (s.acceptImage im) :=
  ((link_parts (.mark { s.link with address := BitVec.ofNat 8 im.nodeAddress, bitRate := im.bitRate } rfl)).trans
    (.single (.desk _ (fun n => { n with busyInhibit := (rangeImage im).notices.busyFlag }) fun _ => ⟨rfl, rfl, rfl⟩))).trans
    rest_parts

theorem refuseImage_parts (s : State) (r : Option ImageRead) (c : FaultCode) : Parts wire s (s.refuseImage r c) :=
  (link_parts (.mark { s.link with address := (faultBus r).1, bitRate := some (faultBus r).2 } rfl)).trans rest_parts

/-! ## Reception -/

theorem receive_parts (s : State) (f : RxFrame) : Parts wire s (s.receive f) := by
  refine reach_ite ?clash (reach_ite ?enqueue .refl)
  case clash =>
    unfold State.clash
    dsimp only
    refine ReflTransGen.trans (link_parts (.mark { s.link with clashes := sat16 s.link.clashes } rfl)) ?_
    split
    · exact acts_parts (raiseNotice_acts _ _ _ _)
    · exact link_parts (.mark _ rfl)
    · exact link_parts (.mark _ rfl)
    all_goals exact .refl
  case enqueue =>
    unfold State.enqueue
    split
    · rename_i room
      exact (link_parts (.receive f room)).trans (acts_parts (settled_acts _))
    · exact link_parts (.mark _ rfl)

end Sys2Proof.Laws
end

section
/-! Every command ends in a next state that is made of parts: one case per command. -/

namespace Sys2Proof.Laws

open Sys2Proof.Machine Relation

-- Many short proofs at once would each hold a thread of the checking process.
set_option Elab.async false

/-- The commands of LINK's transmitter (R182 to R184). -/
def isTransmit : Instr → Bool
  | .transmitAttemptStart | .transmitSuccess | .arbitrationLost | .transmitFailure | .silentHoldExpiry => true
  | _ => false

/-- An outcome is a next state made of parts. -/
def Completes (wire : Bool) (s : State) (o : Host.Outcome State Fault Refusal) : Prop :=
  ∃ t, o = .next t ∧ Parts wire s t

variable {wire : Bool} {s : State}

theorem completes_next {t : State} (h : Parts wire s t) : Completes wire s (.next t) := ⟨t, rfl, h⟩

/-! ## LINK's transmitter -/

theorem attempt_parts (s : State) : Parts true s s.attempt := by
  have selected : Parts true s s.select := by
    refine reach_ite .refl ?_
    exact ReflTransGen.trans (.head (.attempt s _ rfl) (reports_parts _ _)) (.single (.attempt _ _ rfl))
  exact selected.trans (.single (.attempt _ _ rfl))

theorem judgeCurrent_parts (s : State) : Parts true s s.judgeCurrent :=
  .head (.attempt s _ rfl) (report_parts _ _)

theorem transmitSuccess_completes : Completes true s (execTransmitSuccess s) := by
  refine completes_next (reach_ite ?_ .refl)
  have sent : Parts true s ({ s with link := (attemptSucceeded s.link).1 }.report (attemptSucceeded s.link).2) :=
    .head (.attempt s _ rfl) (report_parts _ _)
  exact reach_ite sent (sent.trans (acts_parts (clearNotice_acts _ _)))

theorem arbitrationLost_completes : Completes true s (execArbitrationLost s) :=
  completes_next (reach_ite (.head (.attempt s _ rfl) (judgeCurrent_parts _)) .refl)

theorem transmitFailure_completes : Completes true s (execTransmitFailure s) := by
  refine completes_next (reach_ite ?_ .refl)
  have counted : Parts true s (s.onLink fun l => countFailure s.now (attemptOver l)) := .single (.attempt s _ rfl)
  exact ReflTransGen.trans (reach_ite (counted.trans (acts_parts (raiseNotice_acts _ _ _ _))) counted) (judgeCurrent_parts _)

theorem silentHoldExpiry_completes : Completes true s (execSilentHoldExpiry s) := by
  unfold execSilentHoldExpiry
  split
  · exact completes_next .refl
  · rename_i d _
    have judged : Parts true s ((s.arriveAt d).onLink fun l => { l with silentHold := none, probe := true }).judgeCurrent :=
      ReflTransGen.trans (.tail (arriveAt_parts s d) (.attempt _ _ rfl)) (judgeCurrent_parts _)
    exact completes_next (reach_ite (judged.trans (attempt_parts _)) judged)

/-! ## CFG, POSE and reception -/

theorem powerOnStart_completes : Completes wire s (execPowerOnStart s) := by
  refine completes_next (t := _) ?_
  have fresh : Parts wire s { s with link := LinkUnit.reset, snd := Snd.reset, ntc := Ntc.reset } :=
    ((link_parts .reset).trans (.single (.silent _ _ (.inr rfl)))).trans (.single (.emptied _ _ ⟨rfl, rfl, rfl⟩))
  exact fresh.trans rest_parts

theorem keyDebounceExpiry_completes : Completes wire s (execKeyDebounceExpiry s) := by
  unfold execKeyDebounceExpiry
  split
  · exact completes_next .refl
  · rename_i d _
    exact completes_next (((arriveAt_parts s d).trans (touches_parts (onCfg_touches _ _) rfl)).trans (keyEvent_parts _))

theorem imageReadDone_completes (r : Option ImageRead) : Completes wire s (execImageReadDone r s) := by
  unfold execImageReadDone
  split
  · split
    · exact completes_next (acceptImage_parts s _)
    · exact completes_next (refuseImage_parts s _ _)
    · exact completes_next (refuseImage_parts s _ _)
  · exact completes_next .refl

theorem nodeStatusTimerExpiry_completes : Completes wire s (execNodeStatusTimerExpiry s) := by
  unfold execNodeStatusTimerExpiry
  split
  · exact completes_next .refl
  · rename_i d _
    exact completes_next (((arriveAt_parts s d).trans (touches_parts (onCfg_touches _ _) rfl)).trans (offerNodeStatus_parts _))

theorem poseConsumers_parts : ∀ thread ∈ poseConsumers, ∀ event ∈ thread, ∀ t, Parts wire t (event t) := by
  simp only [poseConsumers, List.mem_cons, List.not_mem_nil, or_false, forall_eq_or_imp, forall_eq]
  exact ⟨fun t => acts_parts ((evaluateLimits_acts t _).trans (offer_acts _ _ _ _ _)), fun t => acts_parts (rebuild_acts t),
    digStep_parts, fun t => acts_parts (offer_acts t _ _ _ _)⟩

theorem posePeriodExpiry_completes : Completes wire s (execPosePeriodExpiry s) := by
  unfold execPosePeriodExpiry
  split
  · exact completes_next .refl
  · rename_i d _
    exact completes_next (((arriveAt_parts s d).trans rest_parts).trans (anyOrder_parts _ _ poseConsumers_parts))

theorem keyInputChange_completes (level : Bool) : Completes wire s (execKeyInputChange level s) :=
  completes_next (reach_ite .refl (touches_parts (onCfg_touches s _) rfl))

theorem recordWriteDone_completes (answered : Bool) : Completes wire s (execRecordWriteDone answered s) := by
  unfold execRecordWriteDone
  split
  · exact completes_next .refl
  · exact completes_next ((endWrite_parts s _).trans (storeEnd_parts _))

theorem recordWriteTimeout_completes : Completes wire s (execRecordWriteTimeout s) := by
  unfold execRecordWriteTimeout
  split
  · exact completes_next .refl
  · rename_i w _
    exact completes_next (((arriveAt_parts s w.deadline).trans (endWrite_parts _ _)).trans (storeEnd_parts _))

/-! ## STM -/

theorem streamFrameArrival_completes : Completes wire s (execStreamFrameArrival s) := by
  unfold execStreamFrameArrival
  split
  · exact completes_next .refl
  · rename_i f _
    refine completes_next ?_
    have taken : Parts wire s s.takeFrame := acts_parts (takeFrame_acts s)
    split
    · exact reach_ite (taken.trans (arrive_parts _ _ _)) taken
    · exact taken

/-- A timer of an entry: where it acts, time goes to its end and the entry changes. -/
theorem entryTimer_completes (n : Nat) (p : Stream → Bool) (end_ : Stream → Ms) (turn : Stream → Stream) :
    Completes wire s (match s.entry n with
      | some e => .next (if p e then (s.arriveAt (end_ e)).changeEntry e (turn e) false else s)
      | none => .next s) := by
  split
  · exact completes_next (reach_ite ((arriveAt_parts s _).trans (changeEntry_parts _ _ _ _)) .refl)
  · exact completes_next .refl

theorem absenceWatchExpiry_completes (n : Nat) : Completes wire s (execAbsenceWatchExpiry n s) := by
  unfold execAbsenceWatchExpiry
  split
  · refine completes_next ?_
    split
    · exact reach_ite ((arriveAt_parts s _).trans (changeEntry_parts _ _ _ _)) .refl
    · exact .refl
  · exact completes_next .refl

/-! ## Setting items and queries -/

theorem limitItem_completes (n : Nat) (d : State → Int → LimitDecision) (p : Limit → Bool)
    (v : LimitSet → Option Int × Option Int × Option Int) : Completes wire s (.next (s.limitItem n d p v)) :=
  completes_next (acts_parts (limitItem_acts s n d p v))

/-- A query taken from the head of the queue, and answered in RUN. -/
theorem query_completes (o : RxOwner) (answer : RxFrame → State → State) (h : ∀ f t, Parts wire t (answer f t)) :
    Completes wire s (match s.headFor o with
      | none => .next s
      | some f => .next (if s.takeFrame.inRun then answer f s.takeFrame else s.takeFrame)) := by
  split
  · exact completes_next .refl
  · rename_i f _
    exact completes_next (reach_ite ((acts_parts (takeFrame_acts s)).trans (h f _)) (acts_parts (takeFrame_acts s)))

theorem changeMode_parts (s : State) (m : WorkMode) : Parts wire s (s.changeMode m) :=
  reach_ite .refl ((touches_parts (onEco_touches s _) rfl).trans
    (acts_parts ((reformTarget_acts _).trans (rebuild_acts _))))

theorem changeEnable_parts (s : State) (on : Bool) : Parts wire s (s.changeEnable on) :=
  reach_ite .refl ((touches_parts (onEco_touches s _) rfl).trans (acts_parts (permitEvent_acts _)))

theorem changeDelay_parts (s : State) (n : Nat) : Parts wire s (s.changeDelay n) := by
  unfold State.changeDelay
  dsimp only
  have set : Parts wire s (s.onEco fun e => { e with delay := n }) := touches_parts (onEco_touches s _) rfl
  exact reach_ite .refl (reach_ite (reach_ite (set.trans (acts_parts (enterEco_acts _ _)))
    (set.trans (touches_parts (onEco_touches _ _) rfl))) set)

theorem setProfile_completes : Completes wire s (execSetProfile s) := by
  unfold execSetProfile
  split
  · exact completes_next .refl
  · rename_i i _
    have set : Parts wire s (s.takeItem.onRule fun u =>
        { u with profile := (decideProfile s.inRun s.rule.profile i.value).2 }) :=
      (acts_parts (takeItem_acts s)).trans (touches_parts (onRule_touches _ _) rfl)
    exact completes_next (ReflTransGen.trans (reach_ite set (set.trans (acts_parts (rebuild_acts _))))
      (acts_parts (respond_acts _ _ _ _ _ _)))

theorem ackItem_parts (s : State) (id : Nat) : Parts wire s (s.ackItem id) := touches_parts (onSvc_touches s _) rfl

theorem acknowledge_parts (s : State) (v : Int) : Parts wire s (s.acknowledge v) := by
  unfold State.acknowledge
  split
  · rename_i r _
    dsimp only
    have silenced : Parts wire s ((s.onNtc fun n => { n with queue := withoutId r.id n.queue }).withdrawSound r) := by
      refine .head (.unqueue s r.id) ?_
      unfold State.withdrawSound
      split
      · exact .refl
      · exact .single (.act (.sound _ (.withdraw r.id)))
    exact ReflTransGen.tail (reach_ite (silenced.trans (ackItem_parts _ _)) silenced) (.pass _)
  · exact .single (.desk s _ fun _ => ⟨rfl, rfl, rfl⟩)

theorem noticeAck_completes : Completes wire s (execNoticeAck s) := by
  unfold execNoticeAck
  split
  · exact completes_next .refl
  · rename_i i _
    exact completes_next
      (reach_ite ((acts_parts (takeItem_acts s)).trans (acknowledge_parts _ _)) (acts_parts (takeItem_acts s)))

theorem noticeInhibit_completes : Completes wire s (execNoticeInhibit s) := by
  unfold execNoticeInhibit
  split
  · exact completes_next .refl
  · rename_i i _
    exact completes_next
      (ReflTransGen.trans (.tail (acts_parts (takeItem_acts s)) (.conditions _ (fun n => { n with
      operatorInhibit := (decideInhibit s.inRun s.ntc.operatorInhibit i.value).2 }) fun _ => ⟨rfl, rfl, rfl⟩))
      (acts_parts (respond_acts _ _ _ _ _ _)))

theorem silence_completes : Completes wire s (execSilence s) := by
  unfold execSilence
  split
  · exact completes_next .refl
  · rename_i i _
    exact completes_next
      (reach_ite (ReflTransGen.trans (.tail (acts_parts (takeItem_acts s)) (.command _ .silence)) (acts_parts (respond_acts _ _ _ _ _ _)))
      ((acts_parts (takeItem_acts s)).trans (acts_parts (respond_acts _ _ _ _ _ _))))

theorem settingItemUnknown_completes : Completes wire s (execSettingItemUnknown s) := by
  unfold execSettingItemUnknown
  split
  · exact completes_next .refl
  · rename_i i _
    exact completes_next
      (reach_ite .refl (acts_parts ((takeItem_acts s).trans (respond_acts _ _ _ _ _ _))))

theorem serviceDone_completes : Completes wire s (execServiceDone s) := by
  unfold execServiceDone
  split
  · exact completes_next .refl
  · rename_i i _
    refine completes_next ?_
    have taken : Parts wire s s.takeItem := acts_parts (takeItem_acts s)
    exact ReflTransGen.trans (reach_ite (taken.trans (doService_parts _ _)) taken) (acts_parts (respond_acts _ _ _ _ _ _))

/-! ## HOLD, ECO, SVC, NTC and SND -/

theorem offerSpeed_parts (s : State) : Parts wire s s.offerSpeed := acts_parts (offer_acts s _ _ _ _)

theorem offerPump_parts (s : State) : Parts wire s s.offerPump := acts_parts (offer_acts s _ _ _ _)

theorem requestTimerExpiry_completes : Completes wire s (execRequestTimerExpiry s) := by
  unfold execRequestTimerExpiry
  split
  · exact completes_next .refl
  · rename_i d _
    have restarted : Parts wire s ((s.arriveAt d).onEco fun e => { e with requestTimer := some (after d 100) }) :=
      (arriveAt_parts s d).trans (touches_parts (onEco_touches _ _) rfl)
    have sped := restarted.trans (reach_ite (p := ((s.arriveAt d).onEco fun e =>
      { e with requestTimer := some (after d 100) }).eco.state.requesting = true) (offerSpeed_parts _) .refl)
    exact completes_next (reach_ite sped (sped.trans (offerPump_parts _)))

theorem recoveryTimerExpiry_completes : Completes wire s (execRecoveryTimerExpiry s) := by
  unfold execRecoveryTimerExpiry
  split
  · exact completes_next .refl
  · rename_i d _
    exact completes_next ((arriveAt_parts s d).trans
    (acts_parts ((raiseNotice_acts _ _ _ _).trans (enterWork_acts _))))

theorem reremindExpiry_completes (n : Nat) : Completes wire s (execReremindExpiry n s) := by
  unfold execReremindExpiry
  split
  · exact completes_next (reach_ite (((arriveAt_parts s _).trans (touches_parts (onSvc_touches _ _) rfl)).trans
      (remindAgain_parts _ _)) .refl)
  · exact completes_next .refl

/-- A report timer: it restarts, and its frame is offered. -/
theorem report_completes {t : Option Ms} (restart : Ms → State → State) (data : State → List Byte) (k : TxKind)
    (h : ∀ d u, Parts wire u (restart d u)) :
    Completes wire s (match t with
      | none => .next s
      | some d => .next ((restart d (s.arriveAt d)).offerBackground
          ((restart d (s.arriveAt d)).frame k 0xFF (data (restart d (s.arriveAt d)))))) := by
  split
  · exact completes_next .refl
  · rename_i d
    exact completes_next (((arriveAt_parts s d).trans (h d _)).trans (offerBackground_parts _ _ rfl))

theorem escalationTimerExpiry_completes (id : Nat) : Completes wire s (execEscalationTimerExpiry id s) := by
  unfold execEscalationTimerExpiry
  split
  · exact completes_next .refl
  · rename_i r found
    split
    · exact completes_next .refl
    · rename_i b _
      have held : findId r.id (s.arriveAt (after b s.escalationMs)).ntc.pending = some r := by
        rw [arriveAt_ntc]
        have hr : r.id = id := by simpa using List.find?_some found
        rw [hr]; exact found
      exact completes_next (ReflTransGen.tail (.tail (arriveAt_parts s _) (.repend _ { r with escalated := true, escalationStart := none } ⟨r, held⟩)) (.pass _))

theorem oneShotEnd_completes : Completes wire s (execOneShotEnd s) := by
  unfold execOneShotEnd
  split
  · exact completes_next (.tail (arriveAt_parts s _) (.command _ .oneShotEnd))
  · exact completes_next .refl

theorem cadencePhaseExpiry_completes : Completes wire s (execCadencePhaseExpiry s) := by
  unfold execCadencePhaseExpiry
  split
  · exact completes_next (.tail (arriveAt_parts s _) (.command _ (.phase _)))
  · exact completes_next .refl

/-! ## Timers and items with nothing else to say -/

theorem joinTimerExpiry_completes : Completes wire s (execJoinTimerExpiry s) := by
  unfold execJoinTimerExpiry
  split
  · exact completes_next .refl
  · rename_i d _
    exact completes_next ((arriveAt_parts s d).trans (enterRun_parts _))

theorem workMode_completes : Completes wire s (execWorkMode s) := by
  unfold execWorkMode
  split
  · exact completes_next .refl
  · exact completes_next (((acts_parts (takeItem_acts s)).trans (changeMode_parts _ _)).trans (acts_parts (respond_acts _ _ _ _ _ _)))

theorem autoIdleEnable_completes : Completes wire s (execAutoIdleEnable s) := by
  unfold execAutoIdleEnable
  split
  · exact completes_next .refl
  · exact completes_next (((acts_parts (takeItem_acts s)).trans (changeEnable_parts _ _)).trans (acts_parts (respond_acts _ _ _ _ _ _)))

theorem autoIdleDelay_completes : Completes wire s (execAutoIdleDelay s) := by
  unfold execAutoIdleDelay
  split
  · exact completes_next .refl
  · exact completes_next (((acts_parts (takeItem_acts s)).trans (changeDelay_parts _ _)).trans (acts_parts (respond_acts _ _ _ _ _ _)))

theorem holdRequest_completes : Completes wire s (execHoldRequest s) := by
  unfold execHoldRequest
  split
  · exact completes_next .refl
  · exact completes_next ((acts_parts (takeFrame_acts s)).trans (takeHold_parts _ _))

theorem limitStatusTimerExpiry_completes : Completes wire s (execLimitStatusTimerExpiry s) := by
  unfold execLimitStatusTimerExpiry
  split
  · exact completes_next .refl
  · rename_i d _
    exact completes_next (((arriveAt_parts s d).trans (touches_parts (onLim_touches _ _) rfl)).trans (acts_parts (offer_acts _ _ _ _ _)))

theorem quantumTimerExpiry_completes : Completes wire s (execQuantumTimerExpiry s) := by
  unfold execQuantumTimerExpiry
  split
  · exact completes_next .refl
  · rename_i d _
    exact completes_next ((arriveAt_parts s d).trans (changeHold_parts _ _))

theorem holdEntryExpiry_completes (who : Option Byte) : Completes wire s (execHoldEntryExpiry who s) := by
  unfold execHoldEntryExpiry
  split
  · exact completes_next .refl
  · rename_i d _
    exact completes_next (reach_ite ((arriveAt_parts s d).trans (changeHold_parts _ _)) .refl)

theorem idleDelayExpiry_completes : Completes wire s (execIdleDelayExpiry s) := by
  unfold execIdleDelayExpiry
  split
  · exact completes_next .refl
  · rename_i d _
    exact completes_next ((arriveAt_parts s d).trans (acts_parts (enterEco_acts _ _)))

theorem yieldTimerExpiry_completes : Completes wire s (execYieldTimerExpiry s) := by
  unfold execYieldTimerExpiry
  split
  · exact completes_next .refl
  · rename_i d _
    exact completes_next ((arriveAt_parts s d).trans (acts_parts (enterEco_acts _ _)))

theorem ecoSecondExpiry_completes : Completes wire s (execEcoSecondExpiry s) := by
  unfold execEcoSecondExpiry
  split
  · exact completes_next .refl
  · rename_i d _
    exact completes_next ((arriveAt_parts s d).trans (touches_parts (onEco_touches _ _) rfl))

theorem svcSecondExpiry_completes : Completes wire s (execSvcSecondExpiry s) := by
  unfold execSvcSecondExpiry
  split
  · exact completes_next .refl
  · rename_i d _
    exact completes_next (((arriveAt_parts s d).trans (touches_parts (onSvc_touches _ _) rfl)).trans (svcSecond_parts _))

theorem settleTimerExpiry_completes : Completes wire s (execSettleTimerExpiry s) := by
  unfold execSettleTimerExpiry
  split
  · exact completes_next .refl
  · rename_i d _
    exact completes_next (.tail (arriveAt_parts s d) (.conditions _ _ fun _ => ⟨rfl, rfl, rfl⟩))

theorem silenceTimerExpiry_completes : Completes wire s (execSilenceTimerExpiry s) := by
  unfold execSilenceTimerExpiry
  split
  · exact completes_next .refl
  · rename_i d _
    exact completes_next (.tail (arriveAt_parts s d) (.command _ .silenceEnd))

/-- Every command ends in a next state that is made of parts. -/
theorem exec_completes (c : Instr) (s : State) : Completes (isTransmit c) s (exec c s) := by
  cases c with
  | powerOnStart => exact powerOnStart_completes
  | keyDebounceExpiry => exact keyDebounceExpiry_completes
  | imageReadDone r => exact imageReadDone_completes r
  | recordReadDone b => exact completes_next (reach_ite (endRecordRead_parts s b) .refl)
  | joinTimerExpiry => exact joinTimerExpiry_completes
  | nodeStatusTimerExpiry => exact nodeStatusTimerExpiry_completes
  | posePeriodExpiry => exact posePeriodExpiry_completes
  | frameReceived f => exact completes_next (reach_ite (receive_parts s _) .refl)
  | streamFrameArrival => exact streamFrameArrival_completes
  | lateTimerExpiry n => exact entryTimer_completes n _ _ _
  | staleTimerExpiry n => exact entryTimer_completes n _ _ _
  | recoveryWindowExpiry n => exact entryTimer_completes n _ _ _
  | absenceWatchExpiry n => exact absenceWatchExpiry_completes n
  | setFloor | setFloorAtTip | setGradeSlope | clearFloor | setCeiling | clearCeiling | setReach | clearReach
  | setSlewLeft | setSlewRight | setSlewLeftHere | setSlewRightHere | clearSlew => exact limitItem_completes _ _ _ _
  | workMode => exact workMode_completes
  | autoIdleEnable => exact autoIdleEnable_completes
  | autoIdleDelay => exact autoIdleDelay_completes
  | setProfile => exact setProfile_completes
  | serviceDone => exact serviceDone_completes
  | noticeInhibit => exact noticeInhibit_completes
  | noticeAck => exact noticeAck_completes
  | silence => exact silence_completes
  | settingItemUnknown => exact settingItemUnknown_completes
  | holdRequest => exact holdRequest_completes
  | streamStats =>
    exact query_completes .streamStats
      (fun f t => t.beginReply .stm f.source none (t.streams.map (·.number))) fun f t => beginReply_parts _ _ _ _ _
  | ruleStats =>
    exact query_completes .ruleStats
      (fun f t => t.beginReply .rule f.source (some (ruleHeader t)) (t.img.rules.map (·.index) ++ [32]))
      fun f t => beginReply_parts _ _ _ _ _
  | ruleStatsClear =>
    exact query_completes .ruleStatsClear
      (fun f t => (if keyEngineRunning (t.rule.key.getD 0) then t
        else t.onRule fun u => { u with hits := List.replicate 33 0 }).offerBackground
          ((if keyEngineRunning (t.rule.key.getD 0) then t
            else t.onRule fun u => { u with hits := List.replicate 33 0 }).frame .statsReply f.source
              (replyData 4 [byteOf (bit (keyEngineRunning (t.rule.key.getD 0)))])))
      fun f t => (reach_ite .refl (touches_parts (onRule_touches t _) rfl)).trans (offerBackground_parts _ _ rfl)
  | itemTable =>
    exact query_completes .itemTable
      (fun f t => t.beginReply .svc f.source none (t.svc.items.map (·.config.number))) fun f t => beginReply_parts _ _ _ _ _
  | limitStatusTimerExpiry => exact limitStatusTimerExpiry_completes
  | quantumTimerExpiry => exact quantumTimerExpiry_completes
  | holdEntryExpiry who => exact holdEntryExpiry_completes who
  | periodStart c =>
    have begun : Parts false s (s.beginPeriod c) := touches_parts (beginPeriod_touches s c) rfl
    exact completes_next (reach_ite begun (begun.trans (acts_parts (offerStatusChange_acts _))))
  | dutyEnd c => exact completes_next (reach_ite (touches_parts (onVch_touches s _) rfl) .refl)
  | idleDelayExpiry => exact idleDelayExpiry_completes
  | recoveryTimerExpiry => exact recoveryTimerExpiry_completes
  | yieldTimerExpiry => exact yieldTimerExpiry_completes
  | requestTimerExpiry => exact requestTimerExpiry_completes
  | ecoSecondExpiry => exact ecoSecondExpiry_completes
  | economyReportTimerExpiry =>
    exact report_completes
      (fun d u => u.onEco fun e => { e with reportTimer := some (after d 10000) }) economyData .economyReport
      fun _ u => touches_parts (onEco_touches u _) rfl
  | svcSecondExpiry => exact svcSecondExpiry_completes
  | reremindExpiry n => exact reremindExpiry_completes n
  | serviceSummaryTimerExpiry =>
    exact report_completes
      (fun d u => u.onSvc fun v => { v with summaryTimer := some (after d 10000) }) summaryData .serviceSummary
      fun _ u => touches_parts (onSvc_touches u _) rfl
  | recordWriteDone answered => exact recordWriteDone_completes answered
  | recordWriteTimeout => exact recordWriteTimeout_completes
  | settleTimerExpiry => exact settleTimerExpiry_completes
  | escalationTimerExpiry id => exact escalationTimerExpiry_completes id
  | noticeSummaryTimerExpiry =>
    exact report_completes
      (fun d u => u.onNtc fun n => { n with summaryTimer := some (after d 1000) }) noticeSummary .noticeSummary
      fun _ u => .single (.desk u _ fun _ => ⟨rfl, rfl, rfl⟩)
  | oneShotEnd => exact oneShotEnd_completes
  | cadencePhaseExpiry => exact cadencePhaseExpiry_completes
  | silenceTimerExpiry => exact silenceTimerExpiry_completes
  | transmitAttemptStart => exact completes_next (reach_ite (attempt_parts s) .refl)
  | transmitSuccess => exact transmitSuccess_completes
  | arbitrationLost => exact arbitrationLost_completes
  | transmitFailure => exact transmitFailure_completes
  | silentHoldExpiry => exact silentHoldExpiry_completes
  | keyInputChange level => exact keyInputChange_completes level

/-- The next state of a command is made of parts. -/
theorem exec_parts {c : Instr} {s t : State} (h : exec c s = .next t) : Parts (isTransmit c) s t := by
  obtain ⟨u, hu, parts⟩ := exec_completes c s
  rw [hu] at h
  cases h
  exact parts

end Sys2Proof.Laws
end

section
/-! LINK's transmit classes: what each operation does to the frames of a class, and from it the two laws of LINK, the capacities
(R176, R180) and the soundness of the transmitter (R179 to R184). -/

namespace Sys2Proof.Laws

open Sys2Proof.Machine Relation

-- Many short proofs at once would each hold a thread of the checking process.
set_option Elab.async false

/-! ## The frames of a class -/

@[simp] theorem classOf_setClass (l : LinkUnit) (cls : TxClass) (fs : List TxFrame) :
    classOf (setClass l cls fs) cls = fs := by cases cls <;> rfl

theorem classOf_setClass_ne (l : LinkUnit) {cls c : TxClass} (fs : List TxFrame) (h : c ≠ cls) :
    classOf (setClass l cls fs) c = classOf l c := by
  cases cls <;> cases c <;> first | rfl | exact absurd rfl h

theorem classOf_setClass_ite (l : LinkUnit) (cls c : TxClass) (fs : List TxFrame) :
    classOf (setClass l cls fs) c = if c = cls then fs else classOf l c := by
  split
  · subst c; exact classOf_setClass l cls fs
  · exact classOf_setClass_ne l fs ‹_›

/-- A change of a class changes nothing of LINK but the frames and thinning. -/
theorem setClass_eq (l : LinkUnit) (cls : TxClass) (fs : List TxFrame) :
    setClass l cls fs = { l with
      urgent := (setClass l cls fs).urgent, normal := (setClass l cls fs).normal
      background := (setClass l cls fs).background, thinning := (setClass l cls fs).thinning } := by
  cases cls <;> rfl

@[simp] theorem setClass_rx (l : LinkUnit) (cls : TxClass) (fs : List TxFrame) : (setClass l cls fs).rx = l.rx := by
  cases cls <;> rfl
@[simp] theorem setClass_onWire (l : LinkUnit) (cls : TxClass) (fs : List TxFrame) :
    (setClass l cls fs).onWire = l.onWire := by cases cls <;> rfl
@[simp] theorem setClass_beside (l : LinkUnit) (cls : TxClass) (fs : List TxFrame) :
    (setClass l cls fs).beside = l.beside := by cases cls <;> rfl
@[simp] theorem setClass_state (l : LinkUnit) (cls : TxClass) (fs : List TxFrame) :
    (setClass l cls fs).state = l.state := by cases cls <;> rfl
@[simp] theorem setClass_silentHold (l : LinkUnit) (cls : TxClass) (fs : List TxFrame) :
    (setClass l cls fs).silentHold = l.silentHold := by cases cls <;> rfl
@[simp] theorem setClass_probe (l : LinkUnit) (cls : TxClass) (fs : List TxFrame) :
    (setClass l cls fs).probe = l.probe := by cases cls <;> rfl

/-- The first frame that leaves is one of the list, and only one leaves (R180). -/
theorem dropFirst_sublist (w : Bool) : ∀ fs : List TxFrame, (dropFirst w fs).2.Sublist fs
  | [] => .slnil
  | [f] => by simp [dropFirst]
  | f :: g :: fs => by
    unfold dropFirst
    split
    · exact (dropFirst_sublist w (g :: fs)).cons_cons f
    · exact List.sublist_cons_self f _

theorem dropFirst_length (w : Bool) : ∀ {fs : List TxFrame}, fs ≠ [] → (dropFirst w fs).2.length + 1 = fs.length
  | [], h => absurd rfl h
  | [f], _ => by simp [dropFirst]
  | f :: g :: fs, _ => by
    unfold dropFirst
    split
    · simpa using dropFirst_length w (List.cons_ne_nil g fs)
    · rfl

theorem replaceKind_length (f : TxFrame) : ∀ fs : List TxFrame, (replaceKind f fs).length = fs.length
  | [] => rfl
  | g :: gs => by
    unfold replaceKind
    split
    · rfl
    · simp [replaceKind_length f gs]

theorem settleCurrent_length (r : Option TxFrame) : ∀ fs : List TxFrame, (settleCurrent r fs).length ≤ fs.length
  | [] => Nat.le_refl _
  | f :: fs => by
    unfold settleCurrent
    split
    · cases r <;> simp
    · simpa using settleCurrent_length r fs

theorem markHead_length : ∀ fs : List TxFrame, (markHead fs).length = fs.length
  | [] => rfl
  | _ :: _ => rfl

/-! ## Where one class changes -/

/-- What an offer leaves: LINK as it was, a frame held beside the attempt, or one class changed (R179 to R181). -/
theorem offerFrame_cases (node : NodeState) (cls : TxClass) (f : TxFrame) (l : LinkUnit) :
    (∃ n, (offerFrame node cls f l).1 = { l with thinned := n })
    ∨ (∃ g, (classOf l cls).find? (fun g => g.kind == f.kind) = some g ∧ periodic cls f.kind = true ∧ g.current = true
        ∧ l.onWire = true ∧ (offerFrame node cls f l).1 = { l with beside := some f })
    ∨ (periodic cls f.kind = true ∧ (offerFrame node cls f l).1 = setClass l cls (replaceKind f (classOf l cls)))
    ∨ ((periodic cls f.kind = true → (classOf l cls).find? (fun g => g.kind == f.kind) = none)
        ∧ (offerFrame node cls f l).1 = (joinClass cls f l).1) := by
  unfold offerFrame
  split
  · exact .inl ⟨l.thinned, rfl⟩
  split
  · exact .inl ⟨_, rfl⟩
  split
  · rename_i per
    split
    · rename_i g found
      split
      · rename_i wired
        simp only [Bool.and_eq_true] at wired
        exact .inr (.inl ⟨g, found, per, wired.1, wired.2, rfl⟩)
      · exact .inr (.inr (.inl ⟨per, rfl⟩))
    · rename_i missing
      exact .inr (.inr (.inr ⟨fun _ => missing, rfl⟩))
  · rename_i per
    exact .inr (.inr (.inr ⟨fun h => absurd h per, rfl⟩))

/-- What joining a class leaves: the frame at its end, and where the class was full one frame fewer before it (R180). -/
theorem joinClass_cases (cls : TxClass) (f : TxFrame) (l : LinkUnit) :
    ((classOf l cls).length < capacity cls ∧ (joinClass cls f l).1 = setClass l cls (classOf l cls ++ [f]))
    ∨ (capacity cls ≤ (classOf l cls).length ∧ ∃ n, (joinClass cls f l).1
        = setClass (setClass { l with overflows := n } cls (dropFirst l.onWire (classOf l cls)).2) cls
            ((dropFirst l.onWire (classOf l cls)).2 ++ [f])) := by
  unfold joinClass
  dsimp only
  split
  · rename_i room
    exact .inl ⟨room, rfl⟩
  · rename_i full
    exact .inr ⟨Nat.le_of_not_lt full, _, rfl⟩

/-! ## The capacities -/

/-- `LinkBounded` of LINK alone, class by class. -/
def ClassesBounded (l : LinkUnit) : Prop := (∀ cls, (classOf l cls).length ≤ capacity cls) ∧ l.rx.length ≤ 16

theorem linkBounded_iff (s : State) : LinkBounded s ↔ ClassesBounded s.link := by
  constructor
  · rintro ⟨u, n, b, r⟩
    exact ⟨fun cls => by cases cls <;> assumption, r⟩
  · rintro ⟨h, r⟩
    exact ⟨h .urgent, h .normal, h .background, r⟩

/-- A class that changes within its capacity keeps the bounds. -/
theorem setClass_bounded {l : LinkUnit} {cls : TxClass} {fs : List TxFrame} (h : ClassesBounded l)
    (room : fs.length ≤ capacity cls) : ClassesBounded (setClass l cls fs) := by
  refine ⟨fun c => ?_, by rw [setClass_rx]; exact h.2⟩
  rw [classOf_setClass_ite]
  split
  · subst c; exact room
  · exact h.1 c

theorem capacity_pos (cls : TxClass) : 4 ≤ capacity cls := by cases cls <;> decide

theorem joinClass_bounded {cls : TxClass} {f : TxFrame} {l : LinkUnit} (h : ClassesBounded l) :
    ClassesBounded (joinClass cls f l).1 := by
  obtain ⟨room, e⟩ | ⟨full, n, e⟩ := joinClass_cases cls f l <;> rw [e]
  · exact setClass_bounded h (by simpa using room)
  · have ne : classOf l cls ≠ [] := by
      intro e; rw [e] at full; have := capacity_pos cls; simp at full; omega
    have less := dropFirst_length l.onWire ne
    have bound := h.1 cls
    have counted : ClassesBounded { l with overflows := n } := h
    exact setClass_bounded (setClass_bounded counted (by omega)) (by simp; omega)

theorem offerFrame_bounded {node : NodeState} {cls : TxClass} {f : TxFrame} {l : LinkUnit} (h : ClassesBounded l) :
    ClassesBounded (offerFrame node cls f l).1 := by
  obtain ⟨n, e⟩ | ⟨g, _, _, _, _, e⟩ | ⟨_, e⟩ | ⟨_, e⟩ := offerFrame_cases node cls f l <;> rw [e]
  · exact h
  · exact h
  · exact setClass_bounded h (by rw [replaceKind_length]; exact h.1 cls)
  · exact joinClass_bounded h

/-- The classes cut down one after another keep the bounds. -/
theorem cut_bounded {l : LinkUnit} {u n b : List TxFrame} (h : ClassesBounded l) (hu : u.length ≤ l.urgent.length)
    (hn : n.length ≤ l.normal.length) (hb : b.length ≤ l.background.length) :
    ClassesBounded (setClass (setClass (setClass l .urgent u) .normal n) .background b) :=
  setClass_bounded (setClass_bounded (setClass_bounded h (hu.trans (h.1 .urgent))) (hn.trans (h.1 .normal)))
    (hb.trans (h.1 .background))

theorem emptyClasses_bounded {l : LinkUnit} (h : ClassesBounded l) : ClassesBounded (emptyClasses l) :=
  ⟨fun cls => by cases cls <;> exact Nat.zero_le _, h.2⟩

theorem linkStep_bounded {l l' : LinkUnit} (step : LinkStep l l') (h : ClassesBounded l) : ClassesBounded l' := by
  cases step with
  | offer => exact offerFrame_bounded h
  | withdraw k =>
    exact cut_bounded (l := { l with onWire := _, beside := _, probe := _ }) h (List.length_filter_le _ _)
      (List.length_filter_le _ _) (List.length_filter_le _ _)
  | forget o =>
    refine ⟨fun cls => ?_, h.2⟩
    cases cls
    · exact h.1 .urgent
    · exact h.1 .normal
    · simpa [classOf] using h.1 .background
  | take rx n m less => exact ⟨h.1, less.trans h.2⟩

theorem linkMove_bounded {l l' : LinkUnit} (move : LinkMove l l') (h : ClassesBounded l) : ClassesBounded l' := by
  cases move with
  | step step => exact linkStep_bounded step h
  | receive f room => exact ⟨h.1, by simp; omega⟩
  | mark _ e => rw [e]; exact h
  | empty => exact emptyClasses_bounded h
  | join => exact ⟨fun cls => by cases cls <;> exact Nat.zero_le _, Nat.zero_le _⟩
  | quiet =>
    refine ⟨fun cls => ?_, h.2⟩
    cases cls
    · exact (List.length_filter_le _ _).trans (h.1 .urgent)
    · exact (List.length_filter_le _ _).trans (h.1 .normal)
    · exact (List.length_filter_le _ _).trans (h.1 .background)
  | reset => exact ⟨fun cls => by cases cls <;> exact Nat.zero_le _, Nat.zero_le _⟩

/-! ## From the moves of LINK to the parts of a command -/

/-- What every step of the queues keeps, every run of notice acts keeps. -/
theorem noticeActs_queue {P : LinkUnit → Prop} (keeps : ∀ {l l'}, QueueStep l l' → P l → P l') {s t : State}
    (h : NoticeActs s t) (hs : P s.link) : P t.link := by
  induction h with
  | refl => exact hs
  | @tail u _ _ act ih =>
    cases act with
    | offer cls k dst data lane => exact keeps (offer_queueStep u cls k dst data lane) ih
    | sound _ => rw [(sound_touches u _).link rfl]; exact ih
    | ntc => exact ih

theorem act_queue {P : LinkUnit → Prop} (keeps : ∀ {l l'}, QueueStep l l' → P l → P l') {s t : State}
    (h : Act s t) (hs : P s.link) : P t.link := by
  cases h with
  | link step => exact keeps step hs
  | sound _ => rw [(sound_touches s _).link rfl]; exact hs
  | raise id v d => exact noticeActs_queue keeps (raiseNotice_noticeActs s id v d) hs
  | clear id => exact noticeActs_queue keeps (clearNotice_noticeActs s id) hs
  | eco | rule | limits => exact hs
  | demand c f => rw [(writeDemand_touches s c f).link rfl]; exact hs

theorem noticeActs_link {P : LinkUnit → Prop} (keeps : ∀ {l l'}, LinkStep l l' → P l → P l') {s t : State}
    (h : NoticeActs s t) (hs : P s.link) : P t.link := noticeActs_queue (fun step => keeps step.linkStep) h hs

theorem act_link {P : LinkUnit → Prop} (keeps : ∀ {l l'}, LinkStep l l' → P l → P l') {s t : State}
    (h : Act s t) (hs : P s.link) : P t.link := act_queue (fun step => keeps step.linkStep) h hs

theorem setConditions_noticeActs (s : State) (f : Ntc → Ntc) : NoticeActs (s.onNtc f) (s.setConditions f) :=
  reach_ite .refl (conditionsChanged_noticeActs _)

/-- What every move of LINK keeps, every command without attempts keeps. -/
theorem parts_link {P : LinkUnit → Prop} (keeps : ∀ {l l'}, LinkMove l l' → P l → P l') {s t : State}
    (h : Parts false s t) (hs : P s.link) : P t.link := by
  have keepsStep : ∀ {l l'}, LinkStep l l' → P l → P l' := fun step => keeps (.step step)
  induction h with
  | refl => exact hs
  | @tail u _ _ part ih =>
    cases part with
    | act act => exact act_link keepsStep act ih
    | link move => exact keeps move ih
    | attempt _ w => cases w
    | command _ => rw [(sound_touches u _).link rfl]; exact ih
    | conditions f => exact noticeActs_link keepsStep (setConditions_noticeActs u f) ih
    | pass => exact noticeActs_link keepsStep (pass_noticeActs u) ih
    | rest _ hl => rw [hl]; exact ih
    | silent | desk | unqueue | repend | emptied => exact ih

/-- The clock's turn: a microsecond with nothing due, and else a command that joins the queue by a free choice. -/
theorem clock_cases (s : State) :
    (s.due = [] ∧ s.clock = s.tick) ∨ ∃ p n, s.clock = { s with pending := p, freeCount := n } := by
  unfold State.clock
  split
  · rename_i idle
    exact .inl ⟨List.isEmpty_iff.1 idle, rfl⟩
  · refine .inr ?_
    unfold State.pick
    dsimp only
    split
    · exact ⟨_, s.freeCount, rfl⟩
    · exact ⟨_, _, rfl⟩

theorem step_of_empty {s : State} (h : s.pending = []) : step s = .next s.clock := by
  unfold step
  rw [h]

theorem step_of_cons {s : State} {c : Instr} {rest : List Instr} (h : s.pending = c :: rest) :
    step s = exec c { s with pending := rest } := by
  unfold step
  rw [h]

/-- A law of a part of State that the queue, the clock and every command keep is kept by every step. -/
theorem step_keeps {P : State → Prop} (queue : ∀ s p n, P s → P { s with pending := p, freeCount := n })
    (tick : ∀ s, P s → s.due = [] → P s.tick) (command : ∀ c s t, P s → exec c s = .next t → P t)
    {s t : State} (hs : P s) (h : step s = .next t) : P t := by
  cases hp : s.pending with
  | nil =>
    rw [step_of_empty hp] at h
    obtain rfl : s.clock = t := by injection h
    obtain ⟨idle, e⟩ | ⟨p, n, e⟩ := clock_cases s <;> rw [e]
    · exact tick s hs idle
    · exact queue s p n hs
  | cons c rest =>
    rw [step_of_cons hp] at h
    exact command c _ t (queue s rest s.freeCount hs) h

/-! ## The transmit commands -/

/-- LINK after offers alone. -/
abbrev Offers : LinkUnit → LinkUnit → Prop :=
  ReflTransGen fun l l' => ∃ node cls f, f.current = false ∧ l' = (offerFrame node cls f l).1

theorem deliver_offers : ∀ (n : Nat) (o : ReplyOwner) (s : State), Offers s.link (deliver n o s).link
  | 0, _, _ => .refl
  | n + 1, o, s => by
    unfold deliver
    split
    · exact .refl
    · rw [show (s.setReply o none).link = s.link by cases o <;> rfl]
    · rename_i dst m rest _
      dsimp only
      have offered : Offers s.link (offerFrame s.cfg.node .background
          { s.frame .statsReply dst (s.replyFrame o m) with reply := some o } s.link).1 :=
        .single ⟨_, _, _, rfl, rfl⟩
      split
      · exact offered
      · exact offered.trans (deliver_offers n _ { s.setReply o (some ⟨dst, rest⟩) with link := _ })

theorem report_offers (s : State) (o : Option ReplyOwner) : Offers s.link (s.report o).link := by
  cases o
  · exact .refl
  · exact deliver_offers _ _ s

theorem reports_offers : ∀ (os : List ReplyOwner) (s : State), Offers s.link (s.reports os).link
  | [], _ => .refl
  | o :: os, s => (report_offers s (some o)).trans (reports_offers os (s.report (some o)))

theorem offers_keep {P : LinkUnit → Prop} (keeps : ∀ {l l'}, LinkStep l l' → P l → P l') {l l' : LinkUnit}
    (h : Offers l l') (hl : P l) : P l' := by
  induction h with
  | refl => exact hl
  | tail _ offer ih =>
    obtain ⟨node, cls, f, hf, rfl⟩ := offer
    exact keeps (.offer node cls f hf) ih

theorem ageClass_bounded {now : Ms} {cls : TxClass} {l : LinkUnit} (h : ClassesBounded l) :
    ClassesBounded (ageClass now cls l).1 :=
  setClass_bounded (l := { l with ageDiscards := _ }) h ((List.length_filter_le _ _).trans (h.1 cls))

theorem ageAll_bounded {now : Ms} {l : LinkUnit} (h : ClassesBounded l) : ClassesBounded (ageAll now l).1 :=
  ageClass_bounded (ageClass_bounded (ageClass_bounded h))

theorem chooseFrame_bounded {node : NodeState} {l : LinkUnit} (h : ClassesBounded l) : ClassesBounded (chooseFrame node l) := by
  have marked : ∀ cls, ClassesBounded (setClass l cls (markHead (classOf l cls))) := fun cls =>
    setClass_bounded h (by rw [markHead_length]; exact h.1 cls)
  unfold chooseFrame
  split
  · exact marked .urgent
  split
  · exact marked .normal
  split
  · exact marked .background
  · exact h

theorem startAttempt_bounded {l : LinkUnit} (h : ClassesBounded l) : ClassesBounded (startAttempt l) := by
  unfold startAttempt
  split <;> exact h

theorem ageCurrent_bounded {now : Ms} {l : LinkUnit} (h : ClassesBounded l) : ClassesBounded (ageCurrent now l).1 := by
  unfold ageCurrent
  split
  · rename_i cls f _
    split
    · exact setClass_bounded (l := { l with ageDiscards := _ }) h ((settleCurrent_length _ _).trans (h.1 cls))
    · exact h
  · exact h

theorem attemptOver_bounded {l : LinkUnit} (h : ClassesBounded l) : ClassesBounded (attemptOver l) := by
  unfold attemptOver
  dsimp only
  split
  · exact setClass_bounded (l := { l with onWire := _, beside := _ }) h ((settleCurrent_length _ _).trans (h.1 _))
  · exact h

theorem attemptSucceeded_bounded {l : LinkUnit} (h : ClassesBounded l) : ClassesBounded (attemptSucceeded l).1 := by
  unfold attemptSucceeded
  dsimp only
  split
  · exact setClass_bounded (l := { l with onWire := _, beside := _, failures := _, state := _, silentHold := _, probe := _ })
      h ((settleCurrent_length _ _).trans (h.1 _))
  · exact h

theorem countFailure_bounded {now : Ms} {l : LinkUnit} (h : ClassesBounded l) : ClassesBounded (countFailure now l) := by
  unfold countFailure
  dsimp only
  split
  · exact h
  split <;> exact h

theorem judgeCurrent_bounded {s : State} (h : ClassesBounded s.link) : ClassesBounded s.judgeCurrent.link :=
  offers_keep linkStep_bounded (report_offers _ _) (ageCurrent_bounded h)

theorem attempt_bounded {s : State} (h : ClassesBounded s.link) : ClassesBounded s.attempt.link := by
  have selected : ClassesBounded s.select.link := by
    unfold State.select
    split
    · exact h
    · exact chooseFrame_bounded (offers_keep linkStep_bounded (reports_offers _ _) (ageAll_bounded h))
  exact startAttempt_bounded selected

theorem clearNotice_link {P : LinkUnit → Prop} (keeps : ∀ {l l'}, LinkStep l l' → P l → P l') {s : State} (id : Nat)
    (h : P s.link) : P (s.clearNotice id).link := noticeActs_link keeps (clearNotice_noticeActs s id) h

theorem raiseNotice_link {P : LinkUnit → Prop} (keeps : ∀ {l l'}, LinkStep l l' → P l → P l') {s : State} (id : Nat)
    (v : Option Severity) (d : Detail) (h : P s.link) : P (s.raiseNotice id v d).link :=
  noticeActs_link keeps (raiseNotice_noticeActs s id v d) h

theorem exec_bounded (c : Instr) (s t : State) (hs : ClassesBounded s.link) (h : exec c s = .next t) :
    ClassesBounded t.link := by
  by_cases w : isTransmit c = false
  · exact parts_link linkMove_bounded (w ▸ exec_parts h) hs
  · cases c <;> first | exact absurd rfl w | skip
    case transmitAttemptStart =>
      cases h
      split
      · exact attempt_bounded hs
      · exact hs
    case transmitSuccess =>
      cases h
      split
      · have sent := offers_keep linkStep_bounded
          (report_offers { s with link := (attemptSucceeded s.link).1 } (attemptSucceeded s.link).2)
          (attemptSucceeded_bounded hs)
        split
        · exact sent
        · exact clearNotice_link linkStep_bounded _ sent
      · exact hs
    case arbitrationLost =>
      cases h
      split
      · exact judgeCurrent_bounded (attemptOver_bounded hs)
      · exact hs
    case transmitFailure =>
      cases h
      split
      · refine judgeCurrent_bounded ?_
        have counted : ClassesBounded (countFailure s.now (attemptOver s.link)) := countFailure_bounded (attemptOver_bounded hs)
        split
        · exact raiseNotice_link linkStep_bounded _ _ _ counted
        · exact counted
      · exact hs
    case silentHoldExpiry =>
      simp only [exec, execSilentHoldExpiry] at h
      split at h
      · cases h; exact hs
      · rename_i d _
        cases h
        have judged : ClassesBounded ((s.arriveAt d).onLink fun l =>
            { l with silentHold := none, probe := true }).judgeCurrent.link :=
          judgeCurrent_bounded (by rw [onLink_link, arriveAt_link]; exact hs)
        split
        · exact attempt_bounded judged
        · exact judged

/-- Settles O50: no offer joins a class beyond its capacity, no frame the receive queue beyond 16, and nothing else adds a frame. -/
theorem stepKeepsLinkBounded : Obligations.StepKeepsLinkBounded := by
  intro s t hs h
  rw [linkBounded_iff] at hs ⊢
  exact step_keeps (P := fun s => ClassesBounded s.link) (fun _ _ _ h => h) (fun _ h _ => h) exec_bounded hs h

end Sys2Proof.Laws
end

section
/-! The transmitter's law (R179 to R184): which kinds of current frames a class holds, and how many frames of a kind. -/

namespace Sys2Proof.Laws

open Sys2Proof.Machine Relation

-- Many short proofs at once would each hold a thread of the checking process.
set_option Elab.async false

/-! ## Current frames and frames of a kind -/

/-- The kinds of the current frames of a list. -/
def currentKinds (fs : List TxFrame) : List TxKind := (fs.filter (·.current)).map (·.kind)

/-- How many frames of a kind a list holds. -/
def kindCount (k : TxKind) (fs : List TxFrame) : Nat := (fs.filter (·.kind == k)).length

@[simp] theorem currentKinds_nil : currentKinds [] = [] := rfl

theorem currentKinds_cons (f : TxFrame) (fs : List TxFrame) :
    currentKinds (f :: fs) = if f.current then f.kind :: currentKinds fs else currentKinds fs := by
  unfold currentKinds
  rw [List.filter_cons]
  split <;> rfl

theorem currentKinds_append (fs gs : List TxFrame) : currentKinds (fs ++ gs) = currentKinds fs ++ currentKinds gs := by
  simp [currentKinds]

theorem currentKinds_sublist {fs gs : List TxFrame} (h : fs.Sublist gs) :
    (currentKinds fs).Sublist (currentKinds gs) := (h.filter _).map _

theorem kindCount_sublist {k : TxKind} {fs gs : List TxFrame} (h : fs.Sublist gs) : kindCount k fs ≤ kindCount k gs :=
  (h.filter _).length_le

theorem kindCount_cons (k : TxKind) (f : TxFrame) (fs : List TxFrame) :
    kindCount k (f :: fs) = (if f.kind = k then 1 else 0) + kindCount k fs := by
  unfold kindCount
  rw [List.filter_cons]
  by_cases h : f.kind = k <;> simp [h, Nat.add_comm]

theorem kindCount_append (k : TxKind) (fs gs : List TxFrame) : kindCount k (fs ++ gs) = kindCount k fs + kindCount k gs := by
  simp [kindCount]

theorem kindCount_eq_zero {k : TxKind} {fs : List TxFrame} (h : fs.find? (fun g => g.kind == k) = none) :
    kindCount k fs = 0 := by
  rw [kindCount, List.length_eq_zero_iff, List.filter_eq_nil_iff]
  exact List.find?_eq_none.1 h

/-- A replacement in place keeps which frames are current (R179). -/
theorem currentKinds_replaceKind (f : TxFrame) : ∀ fs : List TxFrame, currentKinds (replaceKind f fs) = currentKinds fs
  | [] => rfl
  | g :: gs => by
    unfold replaceKind
    split
    · rename_i same
      simp [currentKinds_cons, same]
    · simp [currentKinds_cons, currentKinds_replaceKind f gs]

theorem kindCount_replaceKind (k : TxKind) (f : TxFrame) : ∀ fs : List TxFrame, kindCount k (replaceKind f fs) = kindCount k fs
  | [] => rfl
  | g :: gs => by
    unfold replaceKind
    split
    · rename_i same
      simp [kindCount_cons, same]
    · simp [kindCount_cons, kindCount_replaceKind k f gs]

/-- A discard to make room leaves the frame whose attempt is on the wire, if another is there (R180). -/
theorem currentKinds_dropFirst : ∀ {fs : List TxFrame}, 2 ≤ fs.length → (currentKinds fs).length ≤ 1 →
    currentKinds (dropFirst true fs).2 = currentKinds fs
  | [], h, _ => by simp at h
  | [_], h, _ => by simp at h
  | f :: g :: fs, _, one => by
    unfold dropFirst
    split
    · rename_i current
      simp only [Bool.and_true] at current
      have none : currentKinds (g :: fs) = [] := by
        rw [currentKinds_cons, if_pos current] at one
        exact List.length_eq_zero_iff.1 (by simp at one; simpa using one)
      have less := currentKinds_sublist (dropFirst_sublist true (g :: fs))
      rw [none, List.sublist_nil] at less
      rw [currentKinds_cons, currentKinds_cons, none, less]
    · rename_i free
      simp only [Bool.and_true] at free
      rw [currentKinds_cons f, if_neg free]

/-- The current frame leaves its list, or gives its place to a frame of its kind. -/
theorem currentKinds_settle_none : ∀ {fs : List TxFrame}, currentKinds (settleCurrent none fs) = (currentKinds fs).tail
  | [] => rfl
  | f :: fs => by
    unfold settleCurrent
    rw [currentKinds_cons f]
    split
    · rfl
    · rename_i free
      rw [currentKinds_cons, if_neg free, currentKinds_settle_none]

theorem currentKinds_settle_some {b : TxFrame} : ∀ {fs : List TxFrame}, currentKinds fs = [b.kind] →
    currentKinds (settleCurrent (some b) fs) = if b.current then [b.kind] else []
  | [], h => by simp at h
  | f :: fs, h => by
    unfold settleCurrent
    rw [currentKinds_cons] at h
    split
    · rename_i cur
      rw [if_pos cur] at h
      have rest : currentKinds fs = [] := (List.cons.inj h).2
      simp only [Option.toList_some, List.singleton_append, currentKinds_cons, rest]
    · rename_i free
      rw [if_neg free] at h
      rw [currentKinds_cons, if_neg free, currentKinds_settle_some h]

theorem kindCount_settle {k : TxKind} : ∀ {r : Option TxFrame} {fs : List TxFrame},
    (∀ b ∈ r, ∀ x ∈ currentKinds fs, x = b.kind) → kindCount k (settleCurrent r fs) ≤ kindCount k fs
  | _, [], _ => Nat.le_refl _
  | r, f :: fs, same => by
    unfold settleCurrent
    split
    · rename_i cur
      cases r with
      | none => rw [kindCount_cons]; simp
      | some b =>
        have hk : f.kind = b.kind := same b rfl f.kind (by simp [currentKinds_cons, cur])
        simp [kindCount_cons, hk]
    · rename_i free
      have := kindCount_settle (k := k) (r := r) (fs := fs) fun b hb x hx => same b hb x (by
        rw [currentKinds_cons, if_neg free]; exact hx)
      rw [kindCount_cons, kindCount_cons]
      omega

theorem currentKinds_markHead {f : TxFrame} {fs : List TxFrame} (none : currentKinds (f :: fs) = []) :
    currentKinds (markHead (f :: fs)) = [f.kind] := by
  have rest : currentKinds fs = [] := by
    have := currentKinds_sublist (List.sublist_cons_self f fs)
    rw [none, List.sublist_nil] at this
    exact this
  simp [markHead, currentKinds_cons, rest]

theorem kindCount_markHead (k : TxKind) : ∀ fs : List TxFrame, kindCount k (markHead fs) = kindCount k fs
  | [] => rfl
  | f :: fs => by simp [markHead, kindCount_cons]

theorem currentKinds_eq_nil {fs : List TxFrame} : currentKinds fs = [] ↔ fs.find? (·.current) = none := by
  simp [currentKinds, List.filter_eq_nil_iff]

/-! ## The law -/

/-- `TransmitterSound` of LINK alone, class by class: its parts by name. -/
structure TransmitSound (l : LinkUnit) : Prop where
  one : (currentKinds l.urgent).length + (currentKinds l.normal).length + (currentKinds l.background).length ≤ 1
  wire : l.onWire = true → ∃ cls, currentKinds (classOf l cls) ≠ []
  beside : ∀ b ∈ l.beside, l.onWire = true ∧ ∃ cls, b.kind ∈ currentKinds (classOf l cls) ∧ periodic cls b.kind = true
  hold : l.silentHold.isSome = true → l.state = .silent ∧ l.probe = false ∧ l.onWire = false
  kinds : ∀ cls k, periodic cls k = true → kindCount k (classOf l cls) ≤ 1
  thin : (6 ≤ l.normal.length → l.thinning = true) ∧ (l.normal.length ≤ 3 → l.thinning = false)

theorem TransmitSound.alone {l : LinkUnit} (h : TransmitSound l) (cls : TxClass) :
    (currentKinds (classOf l cls)).length ≤ 1 := by
  have := h.one
  cases cls <;> simp only [classOf] <;> omega

/-- Of two classes one holds no current frame. -/
theorem TransmitSound.unique {l : LinkUnit} (h : TransmitSound l) {c d : TxClass} (hc : currentKinds (classOf l c) ≠ [])
    (hd : currentKinds (classOf l d) ≠ []) : c = d := by
  have one := h.one
  have pc := List.length_pos_iff.2 hc
  have pd := List.length_pos_iff.2 hd
  cases c <;> cases d <;> first | rfl | (simp only [classOf] at pc pd; omega)

theorem currentFrame_class {l : LinkUnit} {cls : TxClass} {f : TxFrame} (h : currentFrame l = some (cls, f)) :
    (classOf l cls).find? (·.current) = some f := by
  unfold currentFrame at h
  split at h <;> cases h <;> assumption

theorem currentFrame_kind {l : LinkUnit} {cls : TxClass} {f : TxFrame} (h : currentFrame l = some (cls, f)) :
    f.kind ∈ currentKinds (classOf l cls) := by
  have found := currentFrame_class h
  have hc := List.find?_some found
  exact List.mem_map.2 ⟨f, List.mem_filter.2 ⟨List.mem_of_find?_eq_some found, hc⟩, rfl⟩

theorem currentFrame_none {l : LinkUnit} : currentFrame l = none ↔ ∀ cls, currentKinds (classOf l cls) = [] := by
  simp only [currentKinds_eq_nil]
  unfold currentFrame
  constructor
  · intro h
    split at h <;> cases h
    intro cls
    cases cls <;> assumption
  · intro h
    have u : l.urgent.find? (·.current) = none := h .urgent
    have n : l.normal.find? (·.current) = none := h .normal
    have b : l.background.find? (·.current) = none := h .background
    rw [u, n, b]

theorem currentFrame_isSome {l : LinkUnit} : (currentFrame l).isSome = true ↔ ∃ cls, currentKinds (classOf l cls) ≠ [] := by
  rw [← Option.ne_none_iff_isSome, ne_eq, currentFrame_none]
  simp

/-- In a sound transmitter the current frame's kind is its class's one kind. -/
theorem TransmitSound.currentKinds_of {l : LinkUnit} (h : TransmitSound l) {cls : TxClass} {f : TxFrame}
    (hf : currentFrame l = some (cls, f)) : currentKinds (classOf l cls) = [f.kind] := by
  have mem := currentFrame_kind hf
  have one := h.alone cls
  match e : currentKinds (classOf l cls) with
  | [] => rw [e] at mem; cases mem
  | [k] => rw [e, List.mem_singleton] at mem; rw [mem]
  | _ :: _ :: _ => rw [e] at one; simp at one

theorem TransmitSound.current_of {l : LinkUnit} (h : TransmitSound l) {cls : TxClass} {k : TxKind}
    (hk : k ∈ currentKinds (classOf l cls)) : ∃ f, currentFrame l = some (cls, f) ∧ f.kind = k := by
  have some := currentFrame_isSome.2 ⟨cls, List.ne_nil_of_mem hk⟩
  obtain ⟨⟨c, f⟩, hf⟩ := Option.isSome_iff_exists.1 some
  obtain rfl : c = cls := h.unique (List.ne_nil_of_mem (currentFrame_kind hf)) (List.ne_nil_of_mem hk)
  rw [h.currentKinds_of hf, List.mem_singleton] at hk
  exact ⟨f, hf, hk.symm⟩

theorem transmitterSound_iff (s : State) : TransmitterSound s ↔ TransmitSound s.link := by
  have currents : ((s.link.urgent ++ s.link.normal ++ s.link.background).filter (·.current)).length
      = (currentKinds s.link.urgent).length + (currentKinds s.link.normal).length
        + (currentKinds s.link.background).length := by simp [currentKinds]; omega
  unfold TransmitterSound
  rw [currents, currentFrame_isSome]
  constructor
  · rintro ⟨one, wire, beside, hold, kinds, thin⟩
    refine ⟨one, wire, fun b hb => ?_, hold, kinds, thin⟩
    obtain ⟨w, ⟨cls, f⟩, hx, hk, hp⟩ := beside b hb
    exact ⟨w, cls, hk ▸ currentFrame_kind hx, hp⟩
  · intro h
    refine ⟨h.one, h.wire, fun b hb => ?_, h.hold, h.kinds, h.thin⟩
    obtain ⟨w, cls, hk, hp⟩ := h.beside b hb
    obtain ⟨f, hf, e⟩ := h.current_of hk
    exact ⟨w, (cls, f), hf, e, hp⟩

/-! ## A change of one class -/

/-- Thinning follows the number of frames, whatever it was (R181). -/
theorem setClass_thin {l : LinkUnit} (cls : TxClass) (fs : List TxFrame)
    (h : (6 ≤ l.normal.length → l.thinning = true) ∧ (l.normal.length ≤ 3 → l.thinning = false)) :
    (6 ≤ (setClass l cls fs).normal.length → (setClass l cls fs).thinning = true)
      ∧ ((setClass l cls fs).normal.length ≤ 3 → (setClass l cls fs).thinning = false) := by
  cases cls
  · exact h
  · simp only [setClass]
    refine ⟨fun six => by rw [if_pos six], fun three => by rw [if_neg (by omega), if_pos three]⟩
  · exact h

/-- A class that keeps its current frame, or loses it while no attempt is on the wire, and does not gain a second frame of a
periodic kind, keeps the transmitter sound. -/
theorem setClass_sound {l : LinkUnit} {cls : TxClass} {fs : List TxFrame} (h : TransmitSound l)
    (current : currentKinds fs = currentKinds (classOf l cls)
      ∨ l.onWire = false ∧ (currentKinds fs).length ≤ (currentKinds (classOf l cls)).length)
    (kinds : ∀ k, periodic cls k = true → kindCount k fs ≤ 1) : TransmitSound (setClass l cls fs) where
  one := by
    have less : (currentKinds fs).length ≤ (currentKinds (classOf l cls)).length := by
      obtain e | ⟨-, less⟩ := current
      · rw [e]
      · exact less
    have one := h.one
    cases cls <;> simp only [classOf] at less <;> simp only [setClass] <;> omega
  wire := by
    rw [setClass_onWire]
    intro w
    obtain e | ⟨off, -⟩ := current
    · obtain ⟨c, hc⟩ := h.wire w
      refine ⟨c, ?_⟩
      rw [classOf_setClass_ite]
      split
      · subst c; rw [e]; exact hc
      · exact hc
    · rw [w] at off; cases off
  beside := by
    rw [setClass_onWire, setClass_beside]
    intro b hb
    obtain ⟨w, c, hk, hp⟩ := h.beside b hb
    obtain e | ⟨off, -⟩ := current
    · refine ⟨w, c, ?_, hp⟩
      rw [classOf_setClass_ite]
      split
      · subst c; rw [e]; exact hk
      · exact hk
    · rw [w] at off; cases off
  hold := by rw [setClass_silentHold, setClass_state, setClass_probe, setClass_onWire]; exact h.hold
  kinds := by
    intro c k hk
    rw [classOf_setClass_ite]
    split
    · subst c; exact kinds k hk
    · exact h.kinds c k hk
  thin := setClass_thin cls fs h.thin

theorem offerFrame_sound {node : NodeState} {cls : TxClass} {f : TxFrame} {l : LinkUnit} (fresh : f.current = false)
    (h : TransmitSound l) : TransmitSound (offerFrame node cls f l).1 := by
  have freshKinds : currentKinds [f] = [] := by simp [currentKinds_cons, fresh]
  obtain ⟨n, e⟩ | ⟨g, found, per, cur, w, e⟩ | ⟨_, e⟩ | ⟨missing, e⟩ := offerFrame_cases node cls f l <;> rw [e]
  · exact ⟨h.one, h.wire, h.beside, h.hold, h.kinds, h.thin⟩
  · refine ⟨h.one, h.wire, fun b hb => ⟨w, cls, ?_, ?_⟩, h.hold, h.kinds, h.thin⟩
    · obtain rfl : f = b := by simpa using hb
      have hk : g.kind = f.kind := by simpa using List.find?_some found
      exact List.mem_map.2 ⟨g, List.mem_filter.2 ⟨List.mem_of_find?_eq_some found, cur⟩, hk⟩
    · obtain rfl : f = b := by simpa using hb
      exact per
  · exact setClass_sound h (.inl (currentKinds_replaceKind f _)) fun k hk => by
      rw [kindCount_replaceKind]; exact h.kinds cls k hk
  · have room : ∀ fs : List TxFrame, fs.Sublist (classOf l cls) → ∀ k, periodic cls k = true → kindCount k (fs ++ [f]) ≤ 1 := by
      intro fs less k hk
      have bound := (kindCount_sublist (k := k) less).trans (h.kinds cls k hk)
      rw [kindCount_append, kindCount_cons]
      by_cases same : f.kind = k
      · subst same
        have zero := kindCount_eq_zero (missing hk)
        have none : kindCount f.kind fs = 0 := Nat.le_zero.1 (zero ▸ kindCount_sublist less)
        rw [none, if_pos rfl]
        exact Nat.le_refl 1
      · simpa [same, kindCount] using bound
    obtain ⟨_, e⟩ | ⟨full, n, e⟩ := joinClass_cases cls f l <;> rw [e]
    · exact setClass_sound h (.inl (by rw [currentKinds_append, freshKinds, List.append_nil])) (room _ (.refl _))
    · have counted : TransmitSound { l with overflows := n } := ⟨h.one, h.wire, h.beside, h.hold, h.kinds, h.thin⟩
      have long : 2 ≤ (classOf l cls).length := by have := capacity_pos cls; omega
      have kept : currentKinds (dropFirst l.onWire (classOf l cls)).2 = currentKinds (classOf l cls)
          ∨ l.onWire = false ∧ (currentKinds (dropFirst l.onWire (classOf l cls)).2).length
            ≤ (currentKinds (classOf l cls)).length := by
        cases w : l.onWire
        · exact .inr ⟨rfl, (currentKinds_sublist (dropFirst_sublist _ _)).length_le⟩
        · exact .inl (currentKinds_dropFirst long (h.alone cls))
      have dropped := setClass_sound counted kept fun k hk =>
        (kindCount_sublist (dropFirst_sublist l.onWire (classOf l cls))).trans (h.kinds cls k hk)
      refine setClass_sound dropped (.inl ?_) (room _ (dropFirst_sublist _ _))
      rw [currentKinds_append, freshKinds, List.append_nil, classOf_setClass]

/-! ## The moves of LINK -/

/-- LINK with fewer frames: every kept frame's currentness stands, and the attempt and the held frame go on only where the current
frame stays. -/
theorem filtered_sound {l : LinkUnit} (h : TransmitSound l) (p : TxFrame → Bool) {w : Bool} {b : Option TxFrame} {pr : Bool}
    (hw : w = true → l.onWire = true ∧ ∃ cls, currentKinds ((classOf l cls).filter p) ≠ [])
    (hb : ∀ x ∈ b, x ∈ l.beside ∧ w = true ∧ ∀ f : TxFrame, f.kind = x.kind → p f = true)
    (hp : l.onWire = false → pr = l.probe) :
    TransmitSound (setClass (setClass (setClass { l with onWire := w, beside := b, probe := pr } .urgent (l.urgent.filter p))
      .normal (l.normal.filter p)) .background (l.background.filter p)) where
  one := by
    have u := (currentKinds_sublist (List.filter_sublist (l := l.urgent) (p := p))).length_le
    have n := (currentKinds_sublist (List.filter_sublist (l := l.normal) (p := p))).length_le
    have b := (currentKinds_sublist (List.filter_sublist (l := l.background) (p := p))).length_le
    have one := h.one
    simp only [setClass]
    omega
  wire := by
    intro on
    obtain ⟨-, cls, hc⟩ := hw on
    exact ⟨cls, by cases cls <;> exact hc⟩
  beside := by
    intro x hx
    obtain ⟨old, on, keep⟩ := hb x hx
    obtain ⟨-, cls, hk, hper⟩ := h.beside x old
    obtain ⟨f, hf, e⟩ := List.mem_map.1 hk
    obtain ⟨mem, cur⟩ := List.mem_filter.1 hf
    have kept : x.kind ∈ currentKinds ((classOf l cls).filter p) :=
      List.mem_map.2 ⟨f, List.mem_filter.2 ⟨List.mem_filter.2 ⟨mem, keep f e⟩, cur⟩, e⟩
    exact ⟨on, cls, by cases cls <;> exact kept, hper⟩
  hold := by
    intro hold
    obtain ⟨silent, probe, off⟩ := h.hold hold
    have offNow : w = false := by
      cases hw' : w
      · rfl
      · have on := (hw hw').1; rw [off] at on; cases on
    exact ⟨silent, (hp off).trans probe, offNow⟩
  kinds := by
    intro cls k hk
    have bound := (kindCount_sublist (k := k) (List.filter_sublist (l := classOf l cls) (p := p))).trans (h.kinds cls k hk)
    cases cls <;> exact bound
  thin := setClass_thin .background _ (setClass_thin .normal _ (setClass_thin .urgent _ h.thin))

theorem withdrawKind_sound (k : TxKind) {l : LinkUnit} (h : TransmitSound l) : TransmitSound (withdrawKind k l) := by
  unfold withdrawKind
  refine filtered_sound h _ ?_ ?_ ?_
  · simp only [Bool.and_eq_true, Bool.not_eq_true', Bool.and_eq_false_imp, List.any_eq_false, List.mem_append,
      beq_iff_eq, not_and]
    rintro ⟨on, none⟩
    refine ⟨on, ?_⟩
    obtain ⟨cls, hc⟩ := h.wire on
    obtain ⟨x, hx⟩ := List.exists_mem_of_ne_nil _ hc
    obtain ⟨f, hf, e⟩ := List.mem_map.1 hx
    obtain ⟨mem, cur⟩ := List.mem_filter.1 hf
    have other : f.kind ≠ k := none on f (by cases cls <;> simp_all [classOf]) cur
    exact ⟨cls, List.ne_nil_of_mem (List.mem_map.2
      ⟨f, List.mem_filter.2 ⟨List.mem_filter.2 ⟨mem, by simpa using other⟩, cur⟩, rfl⟩)⟩
  · intro x hx
    obtain ⟨old, other⟩ := Option.filter_eq_some_iff.1 hx
    have other : x.kind ≠ k := by simpa using other
    obtain ⟨on, cls, hk, -⟩ := h.beside x old
    refine ⟨old, ?_, fun f hf => by rw [hf]; simpa using other⟩
    simp only [Bool.and_eq_true, Bool.not_eq_true', Bool.and_eq_false_imp, List.any_eq_false, List.mem_append, on,
      true_and, beq_iff_eq, not_and]
    intro _ f hf cur same
    have mem : ∃ d, f ∈ classOf l d := by
      obtain (u | n) | b := hf
      · exact ⟨.urgent, u⟩
      · exact ⟨.normal, n⟩
      · exact ⟨.background, b⟩
    obtain ⟨d, hd⟩ := mem
    have inClass : f.kind ∈ currentKinds (classOf l d) := List.mem_map.2 ⟨f, List.mem_filter.2 ⟨hd, cur⟩, rfl⟩
    obtain rfl : d = cls := h.unique (List.ne_nil_of_mem inClass) (List.ne_nil_of_mem hk)
    obtain ⟨g, hg, e⟩ := h.current_of hk
    rw [h.currentKinds_of hg, List.mem_singleton] at inClass
    exact other (e.symm.trans (inClass.symm.trans same))
  · intro off
    simp [off]

theorem emptyClasses_sound {l : LinkUnit} (h : TransmitSound l) : TransmitSound (emptyClasses l) where
  one := Nat.zero_le _
  wire := by intro w; cases w
  beside := by intro b hb; cases hb
  hold := by
    intro hold
    obtain ⟨silent, probe, off⟩ := h.hold hold
    exact ⟨silent, by simp [emptyClasses, probe, off], rfl⟩
  kinds := by intro cls k _; cases cls <;> exact Nat.zero_le _
  thin := ⟨fun six => absurd six (show ¬ 6 ≤ 0 by decide), fun _ => rfl⟩

theorem joinLink_sound (l : LinkUnit) : TransmitSound (joinLink l) where
  one := Nat.zero_le _
  wire := by intro w; cases w
  beside := by intro b hb; cases hb
  hold := by intro hold; cases hold
  kinds := by intro cls k _; cases cls <;> exact Nat.zero_le _
  thin := ⟨fun six => absurd six (show ¬ 6 ≤ 0 by decide), fun _ => rfl⟩

theorem reset_sound : TransmitSound LinkUnit.reset where
  one := Nat.zero_le _
  wire := by intro w; cases w
  beside := by intro b hb; cases hb
  hold := by intro hold; cases hold
  kinds := by intro cls k _; cases cls <;> exact Nat.zero_le _
  thin := ⟨fun six => absurd six (show ¬ 6 ≤ 0 by decide), fun _ => rfl⟩

theorem quietLink_sound {l : LinkUnit} (h : TransmitSound l) : TransmitSound (quietLink l) := by
  refine filtered_sound h (fun f => f.kind == .nodeStatus)
    (w := l.onWire && (currentFrame l).any fun c => c.2.kind == .nodeStatus) ?_ ?_ ?_
  · intro on
    simp only [Bool.and_eq_true, Option.any_eq_true, beq_iff_eq] at on
    obtain ⟨on, ⟨cls, f⟩, hf, hk⟩ := on
    have found := currentFrame_class hf
    exact ⟨on, cls, List.ne_nil_of_mem (List.mem_map.2 ⟨f, List.mem_filter.2
      ⟨List.mem_filter.2 ⟨List.mem_of_find?_eq_some found, by simpa using hk⟩, List.find?_some found⟩, rfl⟩)⟩
  · intro x hx
    obtain ⟨old, hk⟩ := Option.filter_eq_some_iff.1 hx
    obtain ⟨on, cls, mem, -⟩ := h.beside x old
    obtain ⟨f, hf, e⟩ := h.current_of mem
    refine ⟨old, ?_, fun g hg => by rw [hg]; exact hk⟩
    simp only [on, Bool.true_and, Option.any_eq_true]
    exact ⟨_, hf, by rw [e]; exact hk⟩
  · intro off
    show (l.probe || (l.onWire && !((currentFrame l).any fun c => c.2.kind == .nodeStatus) && l.state == .silent)) = l.probe
    simp [off]

/-- Frames left to LINK by a reply stay as they are otherwise. -/
theorem forget_sound (o : ReplyOwner) {l : LinkUnit} (h : TransmitSound l) : TransmitSound { l with
    background := l.background.map fun f => if f.reply = some o then { f with reply := none } else f } := by
  have kept : ∀ f : TxFrame, (if f.reply = some o then { f with reply := none } else f).current = f.current
      ∧ (if f.reply = some o then { f with reply := none } else f).kind = f.kind := by
    intro f; split <;> exact ⟨rfl, rfl⟩
  have current : currentKinds (l.background.map fun f => if f.reply = some o then { f with reply := none } else f)
      = currentKinds l.background := by
    induction l.background with
    | nil => rfl
    | cons f fs ih => rw [List.map_cons, currentKinds_cons, currentKinds_cons, ih, (kept f).1, (kept f).2]
  have count : ∀ k, kindCount k (l.background.map fun f => if f.reply = some o then { f with reply := none } else f)
      = kindCount k l.background := by
    intro k
    induction l.background with
    | nil => rfl
    | cons f fs ih => rw [List.map_cons, kindCount_cons, kindCount_cons, ih, (kept f).2]
  exact setClass_sound (cls := .background) h (.inl current) fun k hk => by rw [count]; exact h.kinds .background k hk

theorem linkStep_sound {l l' : LinkUnit} (step : LinkStep l l') (h : TransmitSound l) : TransmitSound l' := by
  cases step with
  | offer _ _ _ fresh => exact offerFrame_sound fresh h
  | withdraw k => exact withdrawKind_sound k h
  | forget o => exact forget_sound o h
  | take => exact ⟨h.one, h.wire, h.beside, h.hold, h.kinds, h.thin⟩

theorem linkMove_sound {l l' : LinkUnit} (move : LinkMove l l') (h : TransmitSound l) : TransmitSound l' := by
  cases move with
  | step step => exact linkStep_sound step h
  | receive => exact ⟨h.one, h.wire, h.beside, h.hold, h.kinds, h.thin⟩
  | mark _ e => rw [e]; exact ⟨h.one, h.wire, h.beside, h.hold, h.kinds, h.thin⟩
  | empty => exact emptyClasses_sound h
  | join => exact joinLink_sound l
  | quiet => exact quietLink_sound h
  | reset => exact reset_sound

/-! ## The transmit commands -/

/-- Between attempts with no current frame: what a selection starts from (R182). -/
structure Idle (l : LinkUnit) : Prop where
  sound : TransmitSound l
  off : l.onWire = false
  none : ∀ cls, currentKinds (classOf l cls) = []

theorem Idle.setClass {l : LinkUnit} (h : Idle l) {cls : TxClass} {fs : List TxFrame} (none : currentKinds fs = [])
    (kinds : ∀ k, periodic cls k = true → kindCount k fs ≤ 1) : Idle (Machine.setClass l cls fs) where
  sound := setClass_sound h.sound (.inl (none.trans (h.none cls).symm)) kinds
  off := by rw [setClass_onWire]; exact h.off
  none := by
    intro c
    rw [classOf_setClass_ite]
    split
    · exact none
    · exact h.none c

theorem offers_idle {l l' : LinkUnit} (h : Offers l l') (idle : Idle l) : Idle l' := by
  induction h with
  | refl => exact idle
  | tail _ offer ih =>
    obtain ⟨node, cls, f, fresh, rfl⟩ := offer
    have sound := offerFrame_sound (node := node) (cls := cls) fresh ih.sound
    have freshKinds : currentKinds [f] = [] := by simp [currentKinds_cons, fresh]
    obtain ⟨n, e⟩ | ⟨_, _, _, _, on, _⟩ | ⟨_, e⟩ | ⟨_, e⟩ := offerFrame_cases node cls f _
    · rw [e] at sound ⊢; exact ⟨sound, ih.off, ih.none⟩
    · rw [ih.off] at on; cases on
    · rw [e] at sound ⊢
      refine ih.setClass ((currentKinds_replaceKind f _).trans (ih.none cls)) fun k hk => ?_
      rw [kindCount_replaceKind]; exact ih.sound.kinds cls k hk
    · obtain ⟨_, e'⟩ | ⟨_, n, e'⟩ := joinClass_cases cls f _
      · rw [e, e'] at sound ⊢
        refine ⟨sound, by rw [setClass_onWire]; exact ih.off, fun c => ?_⟩
        rw [classOf_setClass_ite]
        split
        · rw [currentKinds_append, ih.none cls, freshKinds]; rfl
        · exact ih.none c
      · rw [e, e'] at sound ⊢
        refine ⟨sound, by rw [setClass_onWire, setClass_onWire]; exact ih.off, fun c => ?_⟩
        rw [classOf_setClass_ite]
        split
        · have less := currentKinds_sublist (dropFirst_sublist ‹LinkUnit›.onWire (classOf ‹LinkUnit› cls))
          rw [ih.none cls, List.sublist_nil] at less
          rw [currentKinds_append, less, freshKinds]; rfl
        · rw [classOf_setClass_ite, if_neg ‹_›]; exact ih.none c

theorem ageClass_idle {now : Ms} {cls : TxClass} {l : LinkUnit} (h : Idle l) : Idle (ageClass now cls l).1 := by
  have counted : ∀ n, Idle { l with ageDiscards := n } := fun n =>
    ⟨⟨h.sound.one, h.sound.wire, h.sound.beside, h.sound.hold, h.sound.kinds, h.sound.thin⟩, h.off, h.none⟩
  have none := currentKinds_sublist (List.filter_sublist (l := classOf l cls) (p := fun f => f.current || !tooOld now cls f))
  rw [h.none cls, List.sublist_nil] at none
  exact (counted _).setClass none fun k hk => (kindCount_sublist List.filter_sublist).trans (h.sound.kinds cls k hk)

theorem chooseFrame_sound {node : NodeState} {l : LinkUnit} (h : Idle l) :
    TransmitSound (chooseFrame node l) ∧ (chooseFrame node l).onWire = false := by
  have marked : ∀ cls, classOf l cls ≠ [] → TransmitSound (setClass l cls (markHead (classOf l cls)))
      ∧ (setClass l cls (markHead (classOf l cls))).onWire = false := by
    intro cls ne
    obtain ⟨f, fs, e⟩ := List.exists_cons_of_ne_nil ne
    have one := currentKinds_markHead (f := f) (fs := fs) (e ▸ h.none cls)
    rw [← e] at one
    have none := h.none
    refine ⟨⟨?_, ?_, ?_, ?_, ?_, setClass_thin cls _ h.sound.thin⟩, by rw [setClass_onWire]; exact h.off⟩
    · have u := none .urgent
      have n := none .normal
      have b := none .background
      cases cls <;> simp only [classOf] at u n b one <;> simp [setClass, classOf, one, u, n, b]
    · rw [setClass_onWire, h.off]; intro w; cases w
    · rw [setClass_beside]
      intro b hb
      have on := (h.sound.beside b hb).1
      rw [h.off] at on; cases on
    · rw [setClass_silentHold, setClass_state, setClass_probe, setClass_onWire]; exact h.sound.hold
    · intro c k hk
      rw [classOf_setClass_ite]
      split
      · subst c; exact (kindCount_markHead k _).symm ▸ h.sound.kinds cls k hk
      · exact h.sound.kinds c k hk
  have nonempty : ∀ {fs : List TxFrame}, (!fs.isEmpty) = true → fs ≠ [] := by
    intro fs h e; rw [e] at h; cases h
  unfold chooseFrame
  split
  · exact marked .urgent (nonempty ‹_›)
  split
  · exact marked .normal (nonempty ‹_›)
  split
  · rename_i sel
    simp only [selectable, Bool.and_eq_true] at sel
    exact marked .background (nonempty sel.1)
  · exact ⟨h.sound, h.off⟩

theorem startAttempt_sound {l : LinkUnit} (h : TransmitSound l) (free : l.silentHold = none) :
    TransmitSound (startAttempt l) := by
  unfold startAttempt
  split
  · rename_i some
    refine ⟨h.one, fun _ => currentFrame_isSome.1 some, fun b hb => ⟨rfl, (h.beside b hb).2⟩, ?_, h.kinds, h.thin⟩
    rw [free]; intro hold; cases hold
  · exact h

theorem ageCurrent_sound {now : Ms} {l : LinkUnit} (h : TransmitSound l) (off : l.onWire = false) :
    TransmitSound (ageCurrent now l).1 ∧ (ageCurrent now l).1.onWire = false
      ∧ (ageCurrent now l).1.silentHold = l.silentHold := by
  unfold ageCurrent
  split
  · rename_i cls f _
    split
    · have counted : TransmitSound { l with ageDiscards := sat16 l.ageDiscards } :=
        ⟨h.one, h.wire, h.beside, h.hold, h.kinds, h.thin⟩
      refine ⟨setClass_sound counted (.inr ⟨off, ?_⟩) fun k hk => ?_, by rw [setClass_onWire]; exact off,
        by rw [setClass_silentHold]⟩
      · rw [currentKinds_settle_none, List.length_tail]; exact Nat.sub_le _ _
      · exact (kindCount_settle (by intro b hb; cases hb)).trans (h.kinds cls k hk)
    · exact ⟨h, off, rfl⟩
  · exact ⟨h, off, rfl⟩

/-- The end of an attempt without success leaves the transmitter sound, off the wire, with no frame held (R179). -/
theorem attemptOver_sound {l : LinkUnit} (h : TransmitSound l) :
    TransmitSound (attemptOver l) ∧ (attemptOver l).onWire = false ∧ (attemptOver l).silentHold = l.silentHold := by
  have ended : TransmitSound { l with onWire := false, beside := none } :=
    ⟨h.one, fun w => (by cases w), fun b hb => (by cases hb),
      fun hold => ⟨(h.hold hold).1, (h.hold hold).2.1, rfl⟩, h.kinds, h.thin⟩
  unfold attemptOver
  dsimp only
  split
  · rename_i b cls f hb hf
    have hk : f.kind = b.kind := by
      obtain ⟨-, c, mem, -⟩ := h.beside b hb
      obtain ⟨g, hg, e⟩ := h.current_of mem
      rw [hf] at hg
      cases hg
      exact e
    have one := h.currentKinds_of hf
    rw [hk] at one
    refine ⟨setClass_sound ended (.inl ?_) fun k hper => ?_, by rw [setClass_onWire], by rw [setClass_silentHold]⟩
    · exact (currentKinds_settle_some (b := { b with current := true }) one).trans one.symm
    · refine (kindCount_settle ?_).trans (h.kinds cls k hper)
      intro x hx y hy
      obtain rfl : { b with current := true } = x := by simpa using hx
      rw [one, List.mem_singleton] at hy
      exact hy
  · exact ⟨ended, rfl, rfl⟩

theorem attemptSucceeded_sound {l : LinkUnit} (h : TransmitSound l) : TransmitSound (attemptSucceeded l).1 := by
  have ended : TransmitSound { l with
      onWire := false, beside := none, failures := 0, state := .active, silentHold := none, probe := false } :=
    ⟨h.one, fun w => (by cases w), fun b hb => (by cases hb), fun hold => (by cases hold), h.kinds, h.thin⟩
  unfold attemptSucceeded
  dsimp only
  split
  · rename_i cls f hf
    refine setClass_sound ended (.inr ⟨rfl, ?_⟩) fun k hper => ?_
    · cases hb : l.beside with
      | none => exact currentKinds_settle_none ▸ (by rw [List.length_tail]; exact Nat.sub_le _ _)
      | some b =>
        obtain ⟨-, c, mem, -⟩ := h.beside b hb
        obtain ⟨g, hg, e⟩ := h.current_of mem
        rw [hf] at hg
        cases hg
        have one := h.currentKinds_of hf
        rw [e] at one
        exact (currentKinds_settle_some (b := { b with current := false }) one).symm ▸ Nat.zero_le _
    · refine (kindCount_settle ?_).trans (h.kinds cls k hper)
      intro x hx y hy
      obtain ⟨b, hb, rfl⟩ := Option.map_eq_some_iff.1 hx
      obtain ⟨-, c, mem, -⟩ := h.beside b hb
      obtain ⟨g, hg, e⟩ := h.current_of mem
      rw [hf] at hg
      cases hg
      rw [h.currentKinds_of hf, List.mem_singleton] at hy
      exact hy.trans e
  · exact ended

theorem countFailure_sound {now : Ms} {l : LinkUnit} (h : TransmitSound l) (off : l.onWire = false) :
    TransmitSound (countFailure now l) ∧ (countFailure now l).onWire = false := by
  unfold countFailure
  dsimp only
  split
  · exact ⟨⟨h.one, h.wire, h.beside, fun _ => ⟨rfl, rfl, off⟩, h.kinds, h.thin⟩, off⟩
  rename_i calm
  simp only [Bool.or_eq_true, beq_iff_eq, not_or] at calm
  split
  · exact ⟨⟨h.one, h.wire, h.beside, fun hold => absurd (h.hold hold).1 calm.1, h.kinds, h.thin⟩, off⟩
  · exact ⟨⟨h.one, h.wire, h.beside, h.hold, h.kinds, h.thin⟩, off⟩

theorem offers_sound {l l' : LinkUnit} (offers : Offers l l') (h : TransmitSound l) : TransmitSound l' :=
  offers_keep linkStep_sound offers h

theorem judgeCurrent_sound {s : State} (h : TransmitSound s.link) (off : s.link.onWire = false) :
    TransmitSound s.judgeCurrent.link := offers_sound (report_offers _ _) (ageCurrent_sound h off).1

/-- An offer moves neither the hold of SILENT nor, with no attempt on the wire, the wire. -/
theorem offerFrame_silentHold (node : NodeState) (cls : TxClass) (f : TxFrame) (l : LinkUnit) :
    (offerFrame node cls f l).1.silentHold = l.silentHold := by
  obtain ⟨n, e⟩ | ⟨_, _, _, _, _, e⟩ | ⟨_, e⟩ | ⟨_, e⟩ := offerFrame_cases node cls f l <;> rw [e]
  · rw [setClass_silentHold]
  · obtain ⟨_, e⟩ | ⟨_, _, e⟩ := joinClass_cases cls f l <;> rw [e] <;> simp only [setClass_silentHold]

theorem offers_silentHold {l l' : LinkUnit} (h : Offers l l') : l'.silentHold = l.silentHold := by
  induction h with
  | refl => rfl
  | tail _ offer ih =>
    obtain ⟨node, cls, f, _, rfl⟩ := offer
    rw [offerFrame_silentHold, ih]

theorem chooseFrame_silentHold (node : NodeState) (l : LinkUnit) : (chooseFrame node l).silentHold = l.silentHold := by
  unfold chooseFrame
  repeat' split
  all_goals rfl

theorem select_sound {s : State} (h : TransmitSound s.link) (off : s.link.onWire = false) :
    TransmitSound s.select.link ∧ s.select.link.silentHold = s.link.silentHold := by
  unfold State.select
  split
  · exact ⟨h, rfl⟩
  · rename_i idle
    simp only [Bool.or_eq_true, not_or, Bool.not_eq_true, Option.isSome_eq_false_iff, Option.isNone_iff_eq_none] at idle
    have start : Idle s.link := ⟨h, off, currentFrame_none.1 idle.1⟩
    have aged : Idle (ageAll s.now s.link).1 := by
      unfold ageAll
      dsimp only
      exact ageClass_idle (ageClass_idle (ageClass_idle start))
    have offers := reports_offers (ageAll s.now s.link).2 { s with link := (ageAll s.now s.link).1 }
    refine ⟨(chooseFrame_sound (offers_idle offers aged)).1, (chooseFrame_silentHold _ _).trans ?_⟩
    rw [offers_silentHold offers]
    simp only [ageAll, ageClass, setClass_silentHold]

theorem attempt_sound {s : State} (h : TransmitSound s.link) (may : s.mayAttempt = true) :
    TransmitSound s.attempt.link := by
  simp only [State.mayAttempt, Bool.and_eq_true, Bool.not_eq_true', Bool.or_eq_true, bne_iff_ne, ne_eq] at may
  obtain ⟨⟨-, off⟩, free⟩ := may
  obtain ⟨sound, hold⟩ := select_sound h off
  refine startAttempt_sound sound ?_
  rw [hold]
  cases hh : s.link.silentHold with
  | none => rfl
  | some d =>
    obtain ⟨silent, probe, -⟩ := h.hold (by rw [hh]; rfl)
    rw [probe] at free
    exact absurd silent (free.resolve_right (by decide))

/-- No step of LINK puts an attempt on the wire. -/
theorem linkStep_offWire {l l' : LinkUnit} (step : LinkStep l l') (off : l.onWire = false) : l'.onWire = false := by
  cases step with
  | offer node cls f _ =>
    obtain ⟨n, e⟩ | ⟨_, _, _, _, on, _⟩ | ⟨_, e⟩ | ⟨_, e⟩ := offerFrame_cases node cls f l
    · rw [e]; exact off
    · rw [off] at on; cases on
    · rw [e, setClass_onWire]; exact off
    · rw [e]
      obtain ⟨_, e⟩ | ⟨_, _, e⟩ := joinClass_cases cls f l <;> rw [e] <;> simpa only [setClass_onWire] using off
  | withdraw k => simp only [withdrawKind, setClass_onWire, off, Bool.false_and]
  | forget | take => exact off

theorem exec_sound (c : Instr) (s t : State) (hs : TransmitSound s.link) (h : exec c s = .next t) :
    TransmitSound t.link := by
  by_cases w : isTransmit c = false
  · exact parts_link linkMove_sound (w ▸ exec_parts h) hs
  · cases c <;> first | exact absurd rfl w | skip
    case transmitAttemptStart =>
      cases h
      split
      · exact attempt_sound hs ‹_›
      · exact hs
    case transmitSuccess =>
      cases h
      split
      · have sent := offers_sound
          (report_offers { s with link := (attemptSucceeded s.link).1 } (attemptSucceeded s.link).2)
          (attemptSucceeded_sound hs)
        split
        · exact sent
        · exact clearNotice_link linkStep_sound _ sent
      · exact hs
    case arbitrationLost =>
      cases h
      split
      · rename_i on
        obtain ⟨ended, off, hold⟩ := attemptOver_sound hs
        refine judgeCurrent_sound ⟨ended.one, ended.wire, ended.beside, fun held => ?_, ended.kinds, ended.thin⟩ off
        have some : s.link.silentHold.isSome = true := hold ▸ held
        rw [(hs.hold some).2.2] at on
        cases on
      · exact hs
    case transmitFailure =>
      cases h
      split
      · obtain ⟨ended, off, -⟩ := attemptOver_sound hs
        obtain ⟨counted, off⟩ := countFailure_sound (now := s.now) ended off
        dsimp only
        split
        · refine judgeCurrent_sound (raiseNotice_link linkStep_sound _ _ _ counted) ?_
          exact raiseNotice_link (P := fun l => l.onWire = false) linkStep_offWire _ _ _ off
        · exact judgeCurrent_sound counted off
      · exact hs
    case silentHoldExpiry =>
      simp only [exec, execSilentHoldExpiry] at h
      split at h
      · cases h; exact hs
      · rename_i d hd
        cases h
        have off := (hs.hold (by rw [hd]; rfl)).2.2
        have probing : TransmitSound { s.link with silentHold := none, probe := true } :=
          ⟨hs.one, hs.wire, hs.beside, fun hold => (by cases hold), hs.kinds, hs.thin⟩
        have judged : TransmitSound ((s.arriveAt d).onLink fun l =>
            { l with silentHold := none, probe := true }).judgeCurrent.link :=
          judgeCurrent_sound (by rw [onLink_link, arriveAt_link]; exact probing)
            (by rw [onLink_link, arriveAt_link]; exact off)
        split
        · exact attempt_sound judged ‹_›
        · exact judged

/-- Settles O60: an offer never makes a second current frame or a second unsent one of a periodic kind, a choice makes a frame
current only where none is, and thinning is set afresh with every change of NORMAL. -/
theorem stepKeepsTransmitterSound : Obligations.StepKeepsTransmitterSound := by
  intro s t hs h
  rw [transmitterSound_iff] at hs ⊢
  exact step_keeps (P := fun s => TransmitSound s.link) (fun _ _ _ h => h) (fun _ h _ => h) exec_sound hs h

end Sys2Proof.Laws
end

section
/-! The sounder's law (R170 to R172): what an arbitration needs to find, and that every request leaves it. -/

namespace Sys2Proof.Laws

open Sys2Proof.Machine Relation

-- Many short proofs at once would each hold a thread of the checking process.
set_option Elab.async false

/-- `SounderRanked` of SND alone. -/
def Ranked (d : Snd) : Prop :=
  (∀ o ∈ d.waiting, sndMuted d o.cls = false) ∧
  match d.playing with
  | .nothing => sndLive d = [] ∧ d.waiting = none
  | .oneShot o _ => sndOutranked d o.cls = false ∧ sndMuted d o.cls = false
  | .sustained cls p _ _ =>
    d.waiting = none ∧ ∃ r, (sndLive d).head? = some r ∧ r.1 = cls ∧ samePattern p r.2 = true

theorem sounderRanked_iff (s : State) : SounderRanked s ↔ Ranked s.snd := Iff.rfl

/-- What an arbitration needs (R170, R171): no muted one-shot waits or plays, and none waits beside a sustained pattern. -/
structure Settleable (d : Snd) : Prop where
  waiting : ∀ o ∈ d.waiting, sndMuted d o.cls = false
  oneShot : ∀ o till, d.playing = .oneShot o till → sndMuted d o.cls = false
  sustained : ∀ cls p on till, d.playing = .sustained cls p on till → d.waiting = none

theorem Ranked.settleable {d : Snd} (h : Ranked d) : Settleable d := by
  obtain ⟨waiting, playing⟩ := h
  refine ⟨waiting, fun o till e => ?_, fun cls p on till e => ?_⟩
  · rw [e] at playing; exact playing.2
  · rw [e] at playing; exact playing.1

theorem samePattern_refl (p : Sustained) : samePattern p p = true := by cases p <;> rfl

/-- What is live, outranked and muted does not depend on what plays, waits or was dropped. -/
theorem sndLive_congr {d e : Snd} (h : e = { d with playing := e.playing, waiting := e.waiting, dropped := e.dropped }) :
    sndLive e = sndLive d := by rw [h]; rfl

theorem sndStart_ranked {now : Ms} {r : Nat × Sustained} {d : Snd} (head : (sndLive d).head? = some r)
    (free : d.waiting = none) : Ranked (sndStart now r d) :=
  ⟨fun o ho => (by rw [show (sndStart now r d).waiting = d.waiting from rfl, free] at ho; cases ho),
    free, r, head, rfl, samePattern_refl r.2⟩

/-- The highest-ranked live request plays, or nothing does (R170). -/
theorem sndPlayTop_ranked {now : Ms} {d : Snd} (free : d.waiting = none) : Ranked (sndPlayTop now d) := by
  unfold sndPlayTop
  split
  · exact sndStart_ranked ‹_› free
  · rename_i none
    refine ⟨fun o ho => ?_, List.head?_eq_none_iff.1 none, free⟩
    rw [show ({ d with playing := .nothing } : Snd).waiting = d.waiting from rfl, free] at ho
    cases ho

/-- What follows a one-shot or a pattern that has ended (R171). -/
theorem sndTurn_ranked {now : Ms} {d : Snd} (waiting : ∀ o ∈ d.waiting, sndMuted d o.cls = false) :
    Ranked (sndTurn now d) := by
  unfold sndTurn
  split
  · exact sndPlayTop_ranked ‹_›
  · rename_i o ho
    dsimp only
    split
    · exact sndPlayTop_ranked rfl
    · rename_i top
      exact ⟨fun _ h => (by cases h), eq_false_of_ne_true top, waiting o ho⟩

/-- An arbitration leaves the sounder playing what its rank gives it (R170). -/
theorem sndSettle_ranked {now : Ms} {d : Snd} (h : Settleable d) : Ranked (sndSettle now d) := by
  unfold sndSettle
  split
  · exact sndTurn_ranked h.waiting
  · rename_i o till playing
    split
    · exact sndTurn_ranked h.waiting
    · rename_i top
      refine ⟨h.waiting, ?_⟩
      rw [playing]
      exact ⟨by simpa using top, h.oneShot o till playing⟩
  · rename_i cls p on till playing
    have free := h.sustained cls p on till playing
    split
    · exact sndTurn_ranked h.waiting
    · rename_i r head
      split
      · rename_i same
        refine ⟨h.waiting, ?_⟩
        rw [playing]
        exact ⟨free, r, head, same.1, same.2⟩
      split
      · exact sndStart_ranked head free
      · exact sndTurn_ranked h.waiting

/-! ## Requests -/

/-- A change of the sustained requests leaves an arbitration what it needs. -/
theorem Settleable.slots {d : Snd} (h : Settleable d) {e : Snd} (same : e = { d with
    class1 := e.class1, class2 := e.class2, class3 := e.class3, class4 := e.class4 }) : Settleable e := by
  rw [same]
  exact ⟨h.waiting, h.oneShot, h.sustained⟩

/-- A one-shot that is placed leaves an arbitration what it needs (R171, R172). -/
theorem sndPlaceOneShot_settleable {now : Ms} {o : OneShot} {d : Snd} (h : Settleable d) :
    Settleable (sndPlaceOneShot now o d) := by
  unfold sndPlaceOneShot
  have dropped : Settleable (sndDrop d) := ⟨h.waiting, h.oneShot, h.sustained⟩
  split
  · exact dropped
  rename_i heard
  simp only [Bool.or_eq_true, not_or, Bool.not_eq_true] at heard
  have plays : Settleable (sndPlayOneShot now o d) :=
    ⟨h.waiting, fun x till e => (by cases e; exact heard.1), fun _ _ _ _ e => (by cases e)⟩
  split
  · rename_i playing _
    refine ⟨fun x hx => ?_, h.oneShot, fun _ _ _ _ e => ?_⟩
    · obtain rfl : o = x := by simpa using hx
      exact heard.1
    · rw [show ({ d with waiting := some o } : Snd).playing = d.playing from rfl, playing] at e
      cases e
  · exact dropped
  · exact plays

theorem sndPlaceOneShot_ranked {now : Ms} {o : OneShot} {d : Snd} (h : Ranked d) : Ranked (sndPlaceOneShot now o d) := by
  unfold sndPlaceOneShot
  have dropped : Ranked (sndDrop d) := h
  split
  · exact dropped
  rename_i heard
  simp only [Bool.or_eq_true, not_or, Bool.not_eq_true] at heard
  split
  · rename_i playing _
    refine ⟨fun x hx => ?_, ?_⟩
    · obtain rfl : o = x := by simpa using hx
      exact heard.1
    · have plays := h.2
      rw [playing] at plays
      rw [show ({ d with waiting := some o } : Snd).playing = d.playing from rfl, playing]
      exact plays
  · exact dropped
  · exact ⟨h.1, heard.2, heard.1⟩

/-- Fewer one-shots wait, and what plays is the same or stops. -/
theorem Settleable.fewer {d : Snd} (h : Settleable d) (p : OneShot → Bool) {q : Playing} (hq : q = .nothing ∨ q = d.playing) :
    Settleable { d with waiting := d.waiting.filter p, playing := q } where
  waiting o ho := h.waiting o (Option.filter_eq_some_iff.1 ho).1
  oneShot o till e := by
    obtain rfl | rfl := hq
    · cases e
    · exact h.oneShot o till e
  sustained cls pat on till e := by
    obtain rfl | rfl := hq
    · cases e
    · have none := h.sustained cls pat on till e
      show d.waiting.filter p = Option.none
      rw [none]; rfl

theorem sndClass2_ranked {now : Ms} {p : Option Pattern} {d : Snd} (h : Ranked d) : Ranked (sndClass2 now p d) := by
  have emptied : Settleable { d with
      class2 := none
      waiting := d.waiting.filter fun o => o.cls != 2
      playing := if playsClass2 d.playing then .nothing else d.playing } :=
    (h.settleable.fewer (fun o => o.cls != 2) (q := if playsClass2 d.playing then .nothing else d.playing)
      (by split <;> simp)).slots rfl
  unfold sndClass2
  dsimp only
  split
  · exact sndSettle_ranked emptied
  · exact sndSettle_ranked (sndPlaceOneShot_settleable emptied)
  · exact sndSettle_ranked (sndPlaceOneShot_settleable emptied)
  · exact sndSettle_ranked (emptied.slots rfl)
  · exact sndSettle_ranked (emptied.slots rfl)

theorem sndNotice_ranked {now : Ms} {id : Nat} {p : Pattern} {d : Snd} (h : Ranked d) : Ranked (sndNotice now id p d) := by
  cases p
  · exact sndPlaceOneShot_ranked h
  · exact sndPlaceOneShot_ranked h
  · exact sndSettle_ranked (h.settleable.slots rfl)
  · exact sndSettle_ranked (h.settleable.slots rfl)

theorem sndNoticeWithdraw_ranked {now : Ms} {id : Nat} {d : Snd} (h : Ranked d) : Ranked (sndNoticeWithdraw now id d) := by
  have emptied : Settleable { d with
      class4 := d.class4.filter fun e => e.1 != id, waiting := d.waiting.filter fun o => !ofNotice id o } :=
    (h.settleable.fewer (fun o => !ofNotice id o) (.inr rfl)).slots rfl
  unfold sndNoticeWithdraw
  dsimp only
  split
  · split
    · exact sndTurn_ranked emptied.waiting
    · exact sndSettle_ranked emptied
  · exact sndSettle_ranked emptied

theorem soundRequest_ranked {f : Ms → Snd → Snd} (hf : SoundRequest f) {now : Ms} {d : Snd} (h : Ranked d) :
    Ranked (f now d) := by
  cases hf with
  | class1 | class3 => exact sndSettle_ranked (h.settleable.slots rfl)
  | class2 => exact sndClass2_ranked h
  | chirp => exact sndPlaceOneShot_ranked h
  | notice => exact sndNotice_ranked h
  | withdraw => exact sndNoticeWithdraw_ranked h

/-! ## The commands of SND -/

theorem sndMuted_low (d : Snd) {cls : Nat} (h : ¬ 3 ≤ cls) : sndMuted d cls = false := by
  simp [sndMuted, h]

/-- A silence takes no request of class 1 or 2 out of the arbitration, and adds none (R172). -/
theorem mem_sndLive_silence {d : Snd} {t : Ms} {r : Nat × Sustained} (h : r ∈ sndLive { d with silence := some t }) :
    r ∈ sndLive d := by
  have muted : ∀ cls, 3 ≤ cls → sndMuted { d with silence := some t } cls = true := fun cls low => by simp [sndMuted, low]
  simp only [sndLive, muted 3 (by omega), muted 4 (by omega), if_true, List.append_nil] at h
  simp only [sndLive, List.append_assoc, List.mem_append] at h ⊢
  obtain h | h := h
  · exact .inl h
  · exact .inr (.inl h)

theorem sndSilence_ranked {now : Ms} {d : Snd} (h : Ranked d) : Ranked (sndSilence now d) := by
  obtain ⟨e, he⟩ : ∃ e, e = (match d.waiting with
    | some o => if 3 ≤ o.cls then sndDrop { { d with silence := some (after now 30000) } with waiting := none }
        else { d with silence := some (after now 30000) }
    | none => { d with silence := some (after now 30000) } : Snd) := ⟨_, rfl⟩
  have low : ∀ o ∈ e.waiting, ¬ 3 ≤ o.cls := by
    intro o ho
    rw [he] at ho
    split at ho
    · rename_i x hx
      split at ho
      · cases ho
      · rename_i lowx
        rw [show ({ d with silence := some (after now 30000) } : Snd).waiting = d.waiting from rfl, hx] at ho
        obtain rfl : x = o := by simpa using ho
        exact lowx
    · rename_i hx
      rw [show ({ d with silence := some (after now 30000) } : Snd).waiting = d.waiting from rfl, hx] at ho
      cases ho
  have playing : e.playing = d.playing := by rw [he]; split <;> [split; skip] <;> rfl
  have live : sndLive e = sndLive { d with silence := some (after now 30000) } := by
    rw [he]; split <;> [split; skip] <;> rfl
  have free : d.waiting = none → e.waiting = none := by intro n; rw [he, n]
  have waiting : ∀ o ∈ e.waiting, sndMuted e o.cls = false := fun o ho => sndMuted_low e (low o ho)
  have unfolded : sndSilence now d = match e.playing with
      | .oneShot o _ => if 3 ≤ o.cls then sndTurn now { e with playing := .nothing } else e
      | _ => sndSettle now e := by
    rw [he]
    unfold sndSilence
    rfl
  rw [unfolded]
  split
  · rename_i o till po
    split
    · exact sndTurn_ranked waiting
    · rename_i lowo
      refine ⟨waiting, ?_⟩
      rw [po]
      refine ⟨?_, sndMuted_low e lowo⟩
      have before := h.2
      rw [← playing, po] at before
      simp only [sndOutranked, List.any_eq_false, decide_eq_true_eq] at before ⊢
      intro r hr
      exact before.1 r (mem_sndLive_silence (live ▸ hr))
  · rename_i no
    refine sndSettle_ranked ⟨waiting, fun o till po => absurd po (no o till), fun cls p on till ps => ?_⟩
    have before := h.2
    rw [← playing, ps] at before
    exact free before.1

theorem soundCommand_ranked {f : Ms → Snd → Snd} (hf : SoundCommand f) {now : Ms} {d : Snd} (h : Ranked d) :
    Ranked (f now d) := by
  cases hf with
  | silence => exact sndSilence_ranked h
  | silenceEnd =>
    have unmuted : ∀ cls, sndMuted { d with silence := none } cls = false := fun _ => rfl
    exact sndSettle_ranked ⟨fun _ _ => unmuted _, fun _ _ _ => unmuted _, h.settleable.sustained⟩
  | oneShotEnd =>
    unfold sndOneShotEnd
    split
    · exact sndTurn_ranked h.1
    · exact h
  | phase t =>
    show Ranked (sndPhase t d)
    unfold sndPhase
    split
    · rename_i cls p on till playing
      have plays := h.2
      rw [playing] at plays
      obtain ⟨free, r, head, rank, same⟩ := plays
      split
      · exact ⟨h.1, free, r, head, rank, same⟩
      · refine ⟨h.1, free, r, head, rank, ?_⟩
        dsimp only
        split
        · rename_i ht _
          revert same
          cases r.2 <;> exact id
        · exact same
    · exact h

/-! ## From SND to the parts of a command -/

theorem sound_snd {P : Snd → Prop} {s : State} {f : Ms → Snd → Snd} (h : P s.snd) (hf : P (f s.now s.snd)) :
    P (s.sound f).snd := by
  unfold State.sound
  split
  · exact hf
  · exact h

/-- What every request of NTC keeps, every run of notice acts keeps. -/
theorem noticeActs_snd {P : Snd → Prop} (keeps : ∀ {f}, NoticeSound f → ∀ {now d}, P d → P (f now d)) {s t : State}
    (h : NoticeActs s t) (hs : P s.snd) : P t.snd := by
  induction h with
  | refl => exact hs
  | tail _ act ih =>
    cases act with
    | offer => exact ih
    | sound hf => exact sound_snd ih (keeps hf ih)
    | ntc => exact ih

theorem act_snd {P : Snd → Prop} (keeps : ∀ {f}, SoundRequest f → ∀ {now d}, P d → P (f now d)) {s t : State}
    (h : Act s t) (hs : P s.snd) : P t.snd := by
  cases h with
  | sound hf => exact sound_snd hs (keeps hf hs)
  | raise id v d => exact noticeActs_snd (fun hf => keeps hf.request) (raiseNotice_noticeActs s id v d) hs
  | clear id => exact noticeActs_snd (fun hf => keeps hf.request) (clearNotice_noticeActs s id) hs
  | demand c f => rw [(writeDemand_touches s c f).snd rfl]; exact hs
  | link | eco | rule | limits => exact hs

/-- What every request and every command of SND keep, and an emptied sounder has, every command keeps. -/
theorem parts_snd {P : Snd → Prop} (keeps : ∀ {f}, SoundRequest f → ∀ {now d}, P d → P (f now d))
    (commands : ∀ {f}, SoundCommand f → ∀ {now d}, P d → P (f now d))
    (silent : ∀ d e, e = sndClear d ∨ e = Snd.reset → P e) {wire : Bool} {s t : State}
    (h : Parts wire s t) (hs : P s.snd) : P t.snd := by
  induction h with
  | refl => exact hs
  | @tail u _ _ part ih =>
    cases part with
    | act act => exact act_snd keeps act ih
    | command hf => exact sound_snd ih (commands hf ih)
    | silent d e => exact silent _ d e
    | conditions f => exact noticeActs_snd (fun hf => keeps hf.request) (setConditions_noticeActs u f) ih
    | pass => exact noticeActs_snd (fun hf => keeps hf.request) (pass_noticeActs u) ih
    | rest _ _ hd => rw [hd]; exact ih
    | link | attempt | desk | unqueue | repend | emptied => exact ih

theorem silent_ranked (d e : Snd) (h : e = sndClear d ∨ e = Snd.reset) : Ranked e := by
  obtain rfl | rfl := h <;> exact ⟨fun _ h => (by cases h), rfl, rfl⟩

/-- Settles O59: every request ends in an arbitration or in a one-shot that nothing outranks, and either leaves the sounder
playing what its rank gives it. -/
theorem stepKeepsSounderRanked : Obligations.StepKeepsSounderRanked := by
  intro s t hs h
  rw [sounderRanked_iff] at hs ⊢
  exact step_keeps (P := fun s => Ranked s.snd) (fun _ _ _ h => h) (fun _ h _ => h)
    (fun c s t hs h => parts_snd soundRequest_ranked soundCommand_ranked silent_ranked (exec_parts h) hs) hs h

end Sys2Proof.Laws
end

section
/-! The notices' law (R161): what the collections hold after each operation on them, and that every raise, clear and pass keeps the
queue in its order and every id in one place. -/

namespace Sys2Proof.Laws

open Sys2Proof.Machine Relation

-- Many short proofs at once would each hold a thread of the checking process.
set_option Elab.async false

/-! ## The collections -/

theorem findId_mem {id : Nat} {rs : List NoticeRecord} {r : NoticeRecord} (h : findId id rs = some r) : r ∈ rs ∧ r.id = id :=
  ⟨List.mem_of_find?_eq_some h, by simpa using List.find?_some h⟩

theorem findId_none {id : Nat} {rs : List NoticeRecord} (h : findId id rs = none) : ∀ r ∈ rs, r.id ≠ id := by
  simpa [findId, List.find?_eq_none] using h

theorem mem_withoutId {id : Nat} {rs : List NoticeRecord} {r : NoticeRecord} :
    r ∈ withoutId id rs ↔ r ∈ rs ∧ r.id ≠ id := by simp [withoutId]

theorem withoutId_sublist (id : Nat) (rs : List NoticeRecord) : (withoutId id rs).Sublist rs := List.filter_sublist

/-- A set in the order of its ids. -/
abbrev InIdOrder (rs : List NoticeRecord) : Prop := rs.Pairwise fun a b => a.id < b.id

theorem mem_insertById {r x : NoticeRecord} : ∀ {rs : List NoticeRecord}, InIdOrder rs →
    (x ∈ insertById r rs ↔ x = r ∨ x ∈ rs ∧ x.id ≠ r.id)
  | [], _ => by simp [insertById]
  | y :: ys, h => by
    obtain ⟨first, rest⟩ := List.pairwise_cons.1 h
    have ih := mem_insertById (r := r) (x := x) rest
    have above : ∀ z ∈ ys, y.id < z.id := first
    unfold insertById
    split
    · rename_i low
      rw [List.mem_cons, ih, List.mem_cons]
      constructor
      · rintro (rfl | rfl | ⟨mem, ne⟩)
        · exact .inr ⟨.inl rfl, by omega⟩
        · exact .inl rfl
        · exact .inr ⟨.inr mem, ne⟩
      · rintro (rfl | ⟨rfl | mem, ne⟩)
        · exact .inr (.inl rfl)
        · exact .inl rfl
        · exact .inr (.inr ⟨mem, ne⟩)
    split
    · rename_i same
      rw [List.mem_cons, List.mem_cons]
      constructor
      · rintro (rfl | mem)
        · exact .inl rfl
        · exact .inr ⟨.inr mem, by have := above x mem; omega⟩
      · rintro (rfl | ⟨rfl | mem, ne⟩)
        · exact .inl rfl
        · exact absurd same ne
        · exact .inr mem
    · rw [List.mem_cons, List.mem_cons]
      constructor
      · rintro (rfl | rfl | mem)
        · exact .inl rfl
        · exact .inr ⟨.inl rfl, by omega⟩
        · exact .inr ⟨.inr mem, by have := above x mem; omega⟩
      · rintro (rfl | ⟨mem, -⟩)
        · exact .inl rfl
        · exact .inr mem

theorem insertById_inIdOrder {r : NoticeRecord} : ∀ {rs : List NoticeRecord}, InIdOrder rs → InIdOrder (insertById r rs)
  | [], _ => by simp [insertById]
  | y :: ys, h => by
    obtain ⟨first, rest⟩ := List.pairwise_cons.1 h
    unfold insertById
    split
    · rename_i low
      refine List.pairwise_cons.2 ⟨fun x hx => ?_, insertById_inIdOrder rest⟩
      obtain rfl | ⟨mem, -⟩ := (mem_insertById rest).1 hx
      · exact low
      · exact first x mem
    split
    · rename_i same
      exact List.pairwise_cons.2 ⟨fun x hx => same ▸ first x hx, rest⟩
    · refine List.pairwise_cons.2 ⟨fun x hx => ?_, h⟩
      obtain rfl | mem := List.mem_cons.1 hx
      · omega
      · have := first x mem; omega

/-! ## The queue's order -/

theorem queueBefore_iff {a b : NoticeRecord} : queueBefore a b = true ↔ b.severity.rank < a.severity.rank
    ∨ a.severity.rank = b.severity.rank
      ∧ (a.raised.toNat < b.raised.toNat ∨ a.raised.toNat = b.raised.toNat ∧ a.id < b.id) := by
  simp [queueBefore, BitVec.toNat_inj]

theorem queueBefore_trans {a b c : NoticeRecord} (h : queueBefore a b = true) (k : queueBefore b c = true) :
    queueBefore a c = true := by
  rw [queueBefore_iff] at *
  omega

/-- Of two records with different ids one comes first (R161). -/
theorem queueBefore_total {a b : NoticeRecord} (ne : a.id ≠ b.id) (h : ¬ queueBefore a b = true) : queueBefore b a = true := by
  rw [queueBefore_iff] at *
  omega

/-- A queue in its order. -/
abbrev InQueueOrder (rs : List NoticeRecord) : Prop := rs.Pairwise fun a b => queueBefore a b = true

theorem mem_insertQueue {r x : NoticeRecord} : ∀ {rs : List NoticeRecord}, x ∈ insertQueue r rs ↔ x = r ∨ x ∈ rs
  | [] => by simp [insertQueue]
  | y :: ys => by
    unfold insertQueue
    split
    · simp
    · rw [List.mem_cons, mem_insertQueue, List.mem_cons]
      tauto

theorem insertQueue_perm (r : NoticeRecord) : ∀ rs : List NoticeRecord, (insertQueue r rs).Perm (r :: rs)
  | [] => .refl _
  | y :: ys => by
    unfold insertQueue
    split
    · exact .refl _
    · exact ((insertQueue_perm r ys).cons y).trans (.swap r y ys)

theorem insertQueue_inQueueOrder {r : NoticeRecord} : ∀ {rs : List NoticeRecord}, InQueueOrder rs → (∀ x ∈ rs, x.id ≠ r.id) →
    InQueueOrder (insertQueue r rs)
  | [], _, _ => by simp [insertQueue]
  | y :: ys, h, ne => by
    obtain ⟨first, rest⟩ := List.pairwise_cons.1 h
    unfold insertQueue
    split
    · rename_i before
      refine List.pairwise_cons.2 ⟨fun x hx => ?_, h⟩
      obtain rfl | mem := List.mem_cons.1 hx
      · exact before
      · exact queueBefore_trans before (first x mem)
    · rename_i not
      refine List.pairwise_cons.2 ⟨fun x hx => ?_, insertQueue_inQueueOrder rest fun x hx => ne x (by simp [hx])⟩
      obtain rfl | mem := mem_insertQueue.1 hx
      · exact queueBefore_total (ne y (by simp)).symm not
      · exact first x mem

/-! ## The law -/

/-- `NoticesOrdered` of NTC alone, part by part. -/
structure Ordered (n : Ntc) : Prop where
  room : n.queue.length ≤ 8
  once : (n.queue.map (·.id)).Nodup
  queuePending : ∀ a ∈ n.queue, ∀ b ∈ n.pending, a.id ≠ b.id
  queueLocal : ∀ a ∈ n.queue, ∀ b ∈ n.locals, a.id ≠ b.id
  pendingLocal : ∀ a ∈ n.pending, ∀ b ∈ n.locals, a.id ≠ b.id
  pending : InIdOrder n.pending
  locals : InIdOrder n.locals
  queue : InQueueOrder n.queue

theorem nodup_of_inIdOrder {rs : List NoticeRecord} (h : InIdOrder rs) : (rs.map (·.id)).Nodup :=
  List.pairwise_map.2 (h.imp Nat.ne_of_lt)

theorem noticesOrdered_iff (s : State) : NoticesOrdered s ↔ Ordered s.ntc := by
  unfold NoticesOrdered
  constructor
  · rintro ⟨room, nodup, pending, locals, queue⟩
    rw [List.map_append, List.map_append, List.nodup_append, List.nodup_append] at nodup
    obtain ⟨⟨once, -, qp⟩, -, disjoint⟩ := nodup
    refine ⟨room, once, fun a ha b hb => qp _ (List.mem_map_of_mem ha) _ (List.mem_map_of_mem hb),
      fun a ha b hb => disjoint _ ?_ _ (List.mem_map_of_mem hb),
      fun a ha b hb => disjoint _ ?_ _ (List.mem_map_of_mem hb), pending, locals, queue⟩
    · exact List.mem_append_left _ (List.mem_map_of_mem ha)
    · exact List.mem_append_right _ (List.mem_map_of_mem ha)
  · intro h
    refine ⟨h.room, ?_, h.pending, h.locals, h.queue⟩
    rw [List.map_append, List.map_append, List.nodup_append, List.nodup_append]
    refine ⟨⟨h.once, nodup_of_inIdOrder h.pending, ?_⟩, nodup_of_inIdOrder h.locals, ?_⟩
    · simp only [List.mem_map]
      rintro _ ⟨a, ha, rfl⟩ _ ⟨b, hb, rfl⟩
      exact h.queuePending a ha b hb
    · simp only [List.mem_append, List.mem_map]
      rintro _ (⟨a, ha, rfl⟩ | ⟨a, ha, rfl⟩) _ ⟨b, hb, rfl⟩
      · exact h.queueLocal a ha b hb
      · exact h.pendingLocal a ha b hb

/-- NTC holds no notice of an id. -/
structure Absent (n : Ntc) (id : Nat) : Prop where
  queue : ∀ r ∈ n.queue, r.id ≠ id
  pending : ∀ r ∈ n.pending, r.id ≠ id
  locals : ∀ r ∈ n.locals, r.id ≠ id

/-- NTC with a part of its queue and of its sets, the rest free. -/
theorem Ordered.sub {n m : Ntc} (h : Ordered n) (q : m.queue.Sublist n.queue) (p : m.pending.Sublist n.pending)
    (l : m.locals.Sublist n.locals) : Ordered m where
  room := q.length_le.trans h.room
  once := h.once.sublist (q.map _)
  queuePending a ha b hb := h.queuePending a (q.subset ha) b (p.subset hb)
  queueLocal a ha b hb := h.queueLocal a (q.subset ha) b (l.subset hb)
  pendingLocal a ha b hb := h.pendingLocal a (p.subset ha) b (l.subset hb)
  pending := h.pending.sublist p
  locals := h.locals.sublist l
  queue := h.queue.sublist q

theorem Ordered.same {n m : Ntc} (h : Ordered n) (q : m.queue = n.queue) (p : m.pending = n.pending)
    (l : m.locals = n.locals) : Ordered m :=
  h.sub (q ▸ .refl _) (p ▸ .refl _) (l ▸ .refl _)

/-- A record joins a queue with room that holds no other of its id. -/
theorem Ordered.join {n : Ntc} (h : Ordered n) {r : NoticeRecord} (room : n.queue.length < 8) (absent : Absent n r.id) :
    Ordered { n with queue := insertQueue r n.queue } where
  room := by rw [(insertQueue_perm r n.queue).length_eq]; exact room
  once := by
    rw [((insertQueue_perm r n.queue).map _).nodup_iff, List.map_cons, List.nodup_cons]
    refine ⟨fun mem => ?_, h.once⟩
    obtain ⟨x, hx, e⟩ := List.mem_map.1 mem
    exact absent.queue x hx e
  queuePending a ha b hb := by
    obtain rfl | mem := mem_insertQueue.1 ha
    · exact (absent.pending b hb).symm
    · exact h.queuePending a mem b hb
  queueLocal a ha b hb := by
    obtain rfl | mem := mem_insertQueue.1 ha
    · exact (absent.locals b hb).symm
    · exact h.queueLocal a mem b hb
  pendingLocal := h.pendingLocal
  pending := h.pending
  locals := h.locals
  queue := insertQueue_inQueueOrder h.queue absent.queue

/-- A record enters the pending set, or takes its place there. -/
theorem Ordered.pend {n : Ntc} (h : Ordered n) {r : NoticeRecord} (queue : ∀ a ∈ n.queue, a.id ≠ r.id)
    (locals : ∀ a ∈ n.locals, a.id ≠ r.id) : Ordered { n with pending := insertById r n.pending } where
  room := h.room
  once := h.once
  queuePending a ha b hb := by
    obtain rfl | ⟨mem, -⟩ := (mem_insertById h.pending).1 hb
    · exact queue a ha
    · exact h.queuePending a ha b mem
  queueLocal := h.queueLocal
  pendingLocal a ha b hb := by
    obtain rfl | ⟨mem, -⟩ := (mem_insertById h.pending).1 ha
    · exact (locals b hb).symm
    · exact h.pendingLocal a mem b hb
  pending := insertById_inIdOrder h.pending
  locals := h.locals
  queue := h.queue

/-- A record enters the local set, or takes its place there. -/
theorem Ordered.localize {n : Ntc} (h : Ordered n) {r : NoticeRecord} (queue : ∀ a ∈ n.queue, a.id ≠ r.id)
    (pending : ∀ a ∈ n.pending, a.id ≠ r.id) (log : Nat) :
    Ordered { n with locals := insertById r n.locals, logCount := log } where
  room := h.room
  once := h.once
  queuePending := h.queuePending
  queueLocal a ha b hb := by
    obtain rfl | ⟨mem, -⟩ := (mem_insertById h.locals).1 hb
    · exact queue a ha
    · exact h.queueLocal a ha b mem
  pendingLocal a ha b hb := by
    obtain rfl | ⟨mem, -⟩ := (mem_insertById h.locals).1 hb
    · exact pending a ha
    · exact h.pendingLocal a ha b mem
  pending := h.pending
  locals := insertById_inIdOrder h.locals
  queue := h.queue

/-! ## The queue and the pass -/

theorem joinQueue_ntc (s : State) (r : NoticeRecord) : (s.joinQueue r).ntc = { s.ntc with
    queue := insertQueue { r with escalationStart := none, sound := (s.ntc.method r).2 } s.ntc.queue } := by
  unfold State.joinQueue
  dsimp only
  have placed : ∀ (t : State) (id : Nat) (p : Option Pattern), (t.placeSound id p).ntc = t.ntc := by
    intro t id p
    cases p
    · rfl
    · exact (sound_touches t _).ntc rfl
  rw [placed]
  rfl

theorem placeSound_ntc (s : State) (id : Nat) (p : Option Pattern) : (s.placeSound id p).ntc = s.ntc := by
  cases p
  · rfl
  · exact (sound_touches s _).ntc rfl

theorem withdrawSound_ntc (s : State) (r : NoticeRecord) : (s.withdrawSound r).ntc = s.ntc := by
  unfold State.withdrawSound
  split
  · rfl
  · exact (sound_touches s _).ntc rfl

/-- The displaced last record of a full queue and the record that displaces it (R161). -/
theorem offerQueue_ordered {s : State} {r : NoticeRecord} (h : Ordered s.ntc) (absent : Absent s.ntc r.id) :
    Ordered (s.offerQueue r).ntc := by
  unfold State.offerQueue
  split
  · rename_i room
    rw [joinQueue_ntc]
    exact h.join room ⟨absent.queue, absent.pending, absent.locals⟩
  rename_i full
  split
  · rename_i none
    rw [List.getLast?_eq_none_iff] at none
    rw [none] at full
    exact absurd (by decide) full
  rename_i last found
  have mem : last ∈ s.ntc.queue := List.mem_of_getLast? found
  split
  · rw [joinQueue_ntc]
    obtain ⟨v, hv⟩ : ∃ v : Ntc, v = { s.ntc with
        queue := s.ntc.queue.dropLast
        pending := insertById { asPending s.now last with sound := none } s.ntc.pending } := ⟨_, rfl⟩
    have split : s.ntc.queue = s.ntc.queue.dropLast ++ [last] := (List.dropLast_append_getLast? last found).symm
    have others : ∀ a ∈ s.ntc.queue.dropLast, a.id ≠ last.id := by
      have once := h.once
      rw [split, List.map_append, List.nodup_append] at once
      intro a ha
      exact once.2.2 _ (List.mem_map_of_mem ha) _ (by simp)
    have dropped : Ordered { s.ntc with queue := s.ntc.queue.dropLast } := h.sub (List.dropLast_sublist _) (.refl _) (.refl _)
    have moved : Ordered v := hv ▸ dropped.pend (r := { asPending s.now last with sound := none }) others
      fun a ha => (h.queueLocal last mem a ha).symm
    have room : v.queue.length < 8 := by
      have := h.room
      have pos := List.length_pos_of_mem mem
      rw [hv]
      simp only [List.length_dropLast]
      omega
    have absentNow : Absent v r.id := by
      rw [hv]
      refine ⟨fun a ha => absent.queue a (List.dropLast_subset _ ha), fun a ha => ?_, absent.locals⟩
      obtain rfl | ⟨old, -⟩ := (mem_insertById h.pending).1 ha
      · exact absent.queue last mem
      · exact absent.pending a old
    have same : ((((s.onNtc fun n => { n with queue := n.queue.dropLast }).withdrawSound last).offerCleared last.id 1).pend
        { asPending (((s.onNtc fun n => { n with queue := n.queue.dropLast }).withdrawSound last).offerCleared last.id 1).now
            last with sound := none }).ntc = v := by
      have now : (((s.onNtc fun n => { n with queue := n.queue.dropLast }).withdrawSound last).offerCleared last.id 1).now
          = s.now := by
        rw [(offerCleared_touches _ _ _).now rfl, (withdrawSound_touches _ _).now rfl]; rfl
      have ntc : (((s.onNtc fun n => { n with queue := n.queue.dropLast }).withdrawSound last).offerCleared last.id 1).ntc
          = { s.ntc with queue := s.ntc.queue.dropLast } := withdrawSound_ntc _ _
      simp only [State.pend, onNtc_ntc, now, ntc, hv]
    rw [same]
    exact moved.join room ⟨absentNow.queue, absentNow.pending, absentNow.locals⟩
  · exact h.pend absent.queue absent.locals

/-- The fold of a pass gives one of the records (R162). -/
theorem passNext_mem {n : Ntc} {r : NoticeRecord} (h : n.passNext = some r) : r ∈ n.pending ∧ n.presentable r = true := by
  have fold : ∀ (rs : List NoticeRecord) (b : Option NoticeRecord), rs.foldl (fun best r => match best with
      | none => some r
      | some b => if passBefore r b then some r else some b) b = some r → r ∈ rs ∨ b = some r := by
    intro rs
    induction rs with
    | nil => intro b h; exact .inr h
    | cons x xs ih =>
      intro b h
      obtain mem | e := ih _ h
      · exact .inl (by simp [mem])
      · dsimp only at e
        split at e
        · cases e; exact .inl (by simp)
        · split at e
          · cases e; exact .inl (by simp)
          · exact .inr e
  obtain mem | e := fold _ none h
  · exact List.mem_filter.1 mem
  · cases e

/-- A pending record that is taken out is held nowhere else. -/
theorem Ordered.absent_withoutPending {n : Ntc} (h : Ordered n) {r : NoticeRecord} (mem : r ∈ n.pending) :
    Absent { n with pending := withoutId r.id n.pending } r.id where
  queue a ha := h.queuePending a ha r mem
  pending _ ha := (mem_withoutId.1 ha).2
  locals a ha := (h.pendingLocal r mem a ha).symm

theorem presentationPass_ordered : ∀ (n : Nat) {s : State}, Ordered s.ntc → Ordered (presentationPass n s).ntc
  | 0, _, h => h
  | n + 1, s, h => by
    unfold presentationPass
    split
    · exact h
    · rename_i r next
      have mem := (passNext_mem next).1
      split
      · refine presentationPass_ordered n (offerQueue_ordered (r := r) ?_ (h.absent_withoutPending mem))
        exact h.sub (.refl _) (withoutId_sublist _ _) (.refl _)
      · exact h

theorem pass_ordered {s : State} (h : Ordered s.ntc) : Ordered s.pass.ntc := presentationPass_ordered _ h

/-- A change of the records of the pending set that keeps their ids. -/
theorem Ordered.mapPending {n : Ntc} (h : Ordered n) (f : NoticeRecord → NoticeRecord) (same : ∀ x, (f x).id = x.id) :
    Ordered { n with pending := n.pending.map f } where
  room := h.room
  once := h.once
  queuePending a ha b hb := by
    obtain ⟨x, hx, rfl⟩ := List.mem_map.1 hb
    rw [same]; exact h.queuePending a ha x hx
  queueLocal := h.queueLocal
  pendingLocal a ha b hb := by
    obtain ⟨x, hx, rfl⟩ := List.mem_map.1 ha
    rw [same]; exact h.pendingLocal x hx b hb
  pending := by
    show InIdOrder (n.pending.map f)
    rw [InIdOrder, List.pairwise_map]
    simpa only [same] using h.pending
  locals := h.locals
  queue := h.queue

theorem reapply_ordered {s : State} (r : NoticeRecord) (h : Ordered s.ntc) : Ordered (s.reapply r).ntc := by
  unfold State.reapply
  dsimp only
  split
  · exact h
  · rw [onNtc_ntc, placeSound_ntc, withdrawSound_ntc]
    exact h.mapPending _ fun x => by split <;> rfl

theorem conditionsChanged_ordered {s : State} (h : Ordered s.ntc) : Ordered s.conditionsChanged.ntc := by
  refine pass_ordered ?_
  have fold : ∀ (rs : List NoticeRecord) {t : State}, Ordered t.ntc → Ordered (rs.foldl State.reapply t).ntc := by
    intro rs
    induction rs with
    | nil => exact id
    | cons r rs ih => intro t ht; exact ih (reapply_ordered r ht)
  exact fold _ h

theorem setConditions_ordered {s : State} {f : Ntc → Ntc} (keeps : KeepsNotices f) (h : Ordered s.ntc) :
    Ordered (s.setConditions f).ntc := by
  have changed : Ordered (s.onNtc f).ntc := h.same (keeps _).2.1 (keeps _).1 (keeps _).2.2
  unfold State.setConditions
  dsimp only
  split
  · exact changed
  · exact conditionsChanged_ordered changed

/-! ## Raises and clears -/

theorem raiseNew_ordered {s : State} {r : NoticeRecord} (h : Ordered s.ntc) (absent : Absent s.ntc r.id) :
    Ordered (s.raiseNew r).ntc := by
  unfold State.raiseNew
  dsimp only
  split
  · rw [placeSound_ntc]
    exact h.localize (r := { r with sound := (s.ntc.method r).2 }) absent.queue absent.pending _
  · split
    · exact offerQueue_ordered h absent
    · rw [placeSound_ntc]
      exact h.pend (r := { asPending s.now r with sound := (s.ntc.method r).2 }) absent.queue absent.locals

/-- A queued record replaced by one of its id, severity and raise time stands at its place. -/
theorem Ordered.replaceQueued {n : Ntc} (h : Ordered n) {r r' : NoticeRecord} (mem : r ∈ n.queue) (id : r'.id = r.id)
    (severity : r'.severity = r.severity) (raised : r'.raised = r.raised) :
    Ordered { n with queue := n.queue.map fun x => if x.id = r'.id then r' else x } := by
  have only : ∀ x ∈ n.queue, x.id = r.id → x = r := fun x hx e =>
    List.inj_on_of_nodup_map h.once hx mem e
  have same : ∀ x ∈ n.queue, (if x.id = r'.id then r' else x).id = x.id
      ∧ (if x.id = r'.id then r' else x).severity = x.severity ∧ (if x.id = r'.id then r' else x).raised = x.raised := by
    intro x hx
    split
    · rename_i e
      rw [only x hx (e.trans id)]
      exact ⟨id, severity, raised⟩
    · exact ⟨rfl, rfl, rfl⟩
  refine ⟨by simpa using h.room, ?_, fun a ha b hb => ?_, fun a ha b hb => ?_, h.pendingLocal, h.pending, h.locals, ?_⟩
  · have ids : (n.queue.map fun x => if x.id = r'.id then r' else x).map (·.id) = n.queue.map (·.id) := by
      rw [List.map_map]
      exact List.map_congr_left fun x hx => (same x hx).1
    show ((n.queue.map _).map _).Nodup
    rw [ids]
    exact h.once
  · obtain ⟨x, hx, rfl⟩ := List.mem_map.1 ha
    rw [(same x hx).1]; exact h.queuePending x hx b hb
  · obtain ⟨x, hx, rfl⟩ := List.mem_map.1 ha
    rw [(same x hx).1]; exact h.queueLocal x hx b hb
  · show InQueueOrder (n.queue.map _)
    rw [InQueueOrder, List.pairwise_map]
    refine h.queue.imp_of_mem fun {a b} ha hb before => ?_
    obtain ⟨ia, va, ra⟩ := same a ha
    obtain ⟨ib, vb, rb⟩ := same b hb
    rw [queueBefore_iff] at before ⊢
    rw [ia, va, ra, ib, vb, rb]
    exact before

theorem raiseQueued_ordered {s : State} {r : NoticeRecord} (v : Severity) (d : Detail) (h : Ordered s.ntc)
    (mem : r ∈ s.ntc.queue) : Ordered (s.raiseQueued r v d).ntc := by
  unfold State.raiseQueued
  split
  · exact h.replaceQueued (r' := { r with detail := d }) mem rfl rfl rfl
  · dsimp only
    rw [placeSound_ntc]
    have out : Ordered { s.ntc with queue := withoutId r.id s.ntc.queue } := h.sub (withoutId_sublist _ _) (.refl _) (.refl _)
    have less : (withoutId r.id s.ntc.queue).length < 8 := by
      have := h.room
      have : (withoutId r.id s.ntc.queue).length < s.ntc.queue.length :=
        List.length_filter_lt_length_iff_exists.2 ⟨r, mem, by simp⟩
      omega
    exact out.join less ⟨fun _ ha => (mem_withoutId.1 ha).2, fun a ha => (h.queuePending r mem a ha).symm,
      fun a ha => (h.queueLocal r mem a ha).symm⟩

theorem raisePending_ordered {s : State} {r : NoticeRecord} (v : Severity) (d : Detail) (h : Ordered s.ntc)
    (mem : r ∈ s.ntc.pending) : Ordered (s.raisePending r v d).ntc := by
  have queue : ∀ a ∈ s.ntc.queue, a.id ≠ r.id := fun a ha => h.queuePending a ha r mem
  have locals : ∀ a ∈ s.ntc.locals, a.id ≠ r.id := fun a ha => (h.pendingLocal r mem a ha).symm
  unfold State.raisePending
  split
  · exact h.pend (r := { r with detail := d }) queue locals
  · exact pass_ordered (reapply_ordered _
      (h.pend (r := asPending s.now { r with detail := d, severity := v }) queue locals))

theorem raiseLocal_ordered {s : State} {r : NoticeRecord} (v : Severity) (d : Detail) (h : Ordered s.ntc)
    (mem : r ∈ s.ntc.locals) : Ordered (s.raiseLocal r v d).ntc := by
  have queue : ∀ a ∈ s.ntc.queue, a.id ≠ r.id := fun a ha => h.queueLocal a ha r mem
  have pending : ∀ a ∈ s.ntc.pending, a.id ≠ r.id := fun a ha => h.pendingLocal a ha r mem
  unfold State.raiseLocal
  dsimp only
  split
  · exact h.localize (r := { r with detail := d }) queue pending s.ntc.logCount
  · rw [onNtc_ntc, placeSound_ntc, withdrawSound_ntc]
    exact h.localize (r := { r with detail := d, severity := v, sound := (s.ntc.method { r with severity := v }).2 })
      queue pending s.ntc.logCount

theorem raiseNotice_ordered {s : State} (id : Nat) (v : Option Severity) (d : Detail) (h : Ordered s.ntc) :
    Ordered (s.raiseNotice id v d).ntc := by
  unfold State.raiseNotice
  split
  · exact h
  split
  · exact h
  dsimp only
  split
  · rename_i found
    exact raiseQueued_ordered _ d h (findId_mem found).1
  · rename_i found
    exact raisePending_ordered _ d h (findId_mem found).1
  · rename_i found
    exact raiseLocal_ordered _ d h (findId_mem found).1
  · rename_i q p l
    exact raiseNew_ordered h ⟨findId_none q, findId_none p, findId_none l⟩

theorem clearNotice_ordered {s : State} (id : Nat) (h : Ordered s.ntc) : Ordered (s.clearNotice id).ntc := by
  unfold State.clearNotice
  split
  · exact h
  split
  · refine pass_ordered ?_
    show Ordered (State.withdrawSound _ _).ntc
    rw [withdrawSound_ntc]
    exact h.sub (withoutId_sublist _ _) (.refl _) (.refl _)
  · rw [withdrawSound_ntc]
    exact h.sub (.refl _) (withoutId_sublist _ _) (.refl _)
  · rw [withdrawSound_ntc]
    exact h.sub (.refl _) (.refl _) (withoutId_sublist _ _)
  · exact h

/-! ## From NTC to the parts of a command -/

theorem act_ordered {s t : State} (h : Act s t) (hs : Ordered s.ntc) : Ordered t.ntc := by
  cases h with
  | raise id v d => exact raiseNotice_ordered id v d hs
  | clear id => exact clearNotice_ordered id hs
  | sound _ => rw [(sound_touches s _).ntc rfl]; exact hs
  | demand c f => rw [(writeDemand_touches s c f).ntc rfl]; exact hs
  | link | eco | rule | limits => exact hs

theorem acts_ordered {s t : State} (h : Acts s t) (hs : Ordered s.ntc) : Ordered t.ntc := by
  induction h with
  | refl => exact hs
  | tail _ act ih => exact act_ordered act ih

theorem parts_ordered {wire : Bool} {s t : State} (h : Parts wire s t) (hs : Ordered s.ntc) : Ordered t.ntc := by
  induction h with
  | refl => exact hs
  | @tail u _ _ part ih =>
    cases part with
    | act act => exact act_ordered act ih
    | command _ => rw [(sound_touches u _).ntc rfl]; exact ih
    | desk f keeps => exact ih.same (keeps _).2.1 (keeps _).1 (keeps _).2.2
    | conditions f keeps => exact setConditions_ordered keeps ih
    | unqueue id => exact ih.sub (withoutId_sublist _ _) (.refl _) (.refl _)
    | repend r held =>
      obtain ⟨x, found⟩ := held
      obtain ⟨mem, id⟩ := findId_mem found
      exact ih.pend (fun a ha => id ▸ ih.queuePending a ha x mem) fun a ha => id ▸ (ih.pendingLocal x mem a ha).symm
    | pass => exact pass_ordered ih
    | emptied n empty =>
      obtain ⟨p, q, l⟩ := empty
      exact ⟨(by rw [q]; decide), (by rw [q]; exact .nil), (by rw [q]; exact fun _ ha => nomatch ha),
        (by rw [q]; exact fun _ ha => nomatch ha), (by rw [p]; exact fun _ ha => nomatch ha), (by rw [p]; exact .nil),
        (by rw [l]; exact .nil), (by rw [q]; exact .nil)⟩
    | rest _ _ _ hn => rw [hn]; exact ih
    | link | attempt | silent => exact ih

/-- Settles O54: a record joins the queue only where no collection holds its id, at the place that the order gives it. -/
theorem stepKeepsNoticesOrdered : Obligations.StepKeepsNoticesOrdered := by
  intro s t hs h
  rw [noticesOrdered_iff] at hs ⊢
  exact step_keeps (P := fun s => Ordered s.ntc) (fun _ _ _ h => h) (fun _ h _ => h)
    (fun c s t hs h => parts_ordered (exec_parts h) hs) hs h

end Sys2Proof.Laws
end

section
/-! What every command is made of outside LINK, SND and NTC: the deeds, each with what the laws of the other blocks need to know of it. A
deed that touches LINK, SND, NTC, the queue of commands and the time base alone stands aside from those laws. -/

namespace Sys2Proof.Laws

open Sys2Proof.Machine Relation

-- Many short proofs at once would each hold a thread of the checking process.
set_option Elab.async false

/-! ## Small facts about tables -/

theorem channel_get_set {α : Type} (p : PerChannel α) (c c' : Channel) (v : α) :
    (p.set c v).get c' = if c' = c then v else p.get c' := by
  cases c <;> cases c' <;> rfl

@[simp] theorem channel_get_tabulate {α : Type} (f : Channel → α) (c : Channel) : (PerChannel.tabulate f).get c = f c := by
  cases c <;> rfl

theorem channel_mem_all (c : Channel) : c ∈ Channel.all := by cases c <;> decide

theorem inRun_iff (s : State) : s.inRun = true ↔ s.cfg.node = .run := by simp [State.inRun]

/-- A write of a demand in RUN changes its channel alone. -/
theorem writeDemand_get (s : State) (c c' : Channel) (f : ChannelRecord → ChannelRecord) :
    (s.writeDemand c f).vch.get c' = if s.inRun = true ∧ c' = c then f (s.vch.get c') else s.vch.get c' := by
  unfold State.writeDemand
  split
  · rename_i run
    simp only [State.onChannel, onVch_vch, channel_get_set, run, true_and]
    split
    · rename_i e; rw [e]
    · rfl
  · rename_i run
    rw [if_neg fun h => run h.1]

/-- The writes to all channels reach each of them once (R99). -/
theorem writeDemands_get (s : State) (f : Channel → ChannelRecord → ChannelRecord) (c : Channel) :
    (s.writeDemands f).vch.get c = if s.inRun then f c (s.vch.get c) else s.vch.get c := by
  have run : ∀ (t : State) (d : Channel), (t.writeDemand d (f d)).inRun = t.inRun := fun t d => by
    rw [State.inRun, (writeDemand_touches t d (f d)).cfg rfl, State.inRun]
  unfold State.writeDemands Channel.all
  simp only [List.foldl_cons, List.foldl_nil, writeDemand_get, run]
  cases c <;> by_cases h : s.inRun = true <;> simp [h]

/-! ## The deeds -/

/-- The blocks that stand aside. -/
def asideBlocks : Blocks :=
  { pending := true, freeCount := true, now := true, stmReply := true, ntc := true, snd := true, link := true }

/-- A change of ECO that leaves its delay in 4..30 and its remainders in range. -/
def EcoKept (e e' : Eco) : Prop :=
  (e'.delay = e.delay ∨ 4 ≤ e'.delay ∧ e'.delay ≤ 30)
    ∧ (e'.fuelRem = e.fuelRem ∨ e'.fuelRem ≤ 71999) ∧ (e'.gapRem = e.gapRem ∨ e'.gapRem ≤ 999)

/-- A change of SVC that counts no engine second. -/
def SvcKept (v v' : Svc) : Prop :=
  v'.engineSeconds = v.engineSeconds ∧ v'.weighted = v.weighted
    ∧ (v'.cycles = v.cycles ∨ v'.cycles ≤ 4294967295)
    ∧ (v'.unaccounted = v.unaccounted ∨ v'.unaccounted ≤ 4294967295)

/-- A change of RULE: the key and the winner stand, or in RUN become a key and the winner that it selects; a hit is counted or all are
cleared; the profile stays within 0..3. -/
def RuleKept (s : State) (u : RuleUnit) : Prop :=
  (u.key = s.rule.key ∧ u.winner = s.rule.winner
      ∨ s.inRun = true ∧ ∃ k, u.key = some k ∧ u.winner = some (lookup s.img.rules k))
    ∧ (u.hits = s.rule.hits ∨ u.hits = List.replicate 33 0
      ∨ ∃ w, u.hits = s.rule.hits.set w (sat16 (s.rule.hits.getD w 0)))
    ∧ (u.profile = s.rule.profile ∨ u.profile ≤ 3)

/-- A demand field holds a per-mille value. -/
def DemandsPerMille (r : ChannelRecord) : Prop :=
  (∀ n ∈ r.limit, n ≤ 1000) ∧ (∀ n ∈ r.rule, n ≤ 1000) ∧ (∀ n ∈ r.hold, n ≤ 1000) ∧ (∀ n ∈ r.fail, n ≤ 1000)

/-- How a limit item decides. -/
def limitDecisions : List (State → Int → LimitDecision) := [
  decideFloor, decideFloorAtTip, decideSlope, decideClearFloor, decideCeiling, decideClearCeiling, decideReach, decideClearReach
  , decideSlewLeft, decideSlewRight, decideSlewLeftHere, decideSlewRightHere, decideClearSlew]

/-- How the hold table changes: by a request taken in RUN, by a quantum, by the end of an entry. -/
inductive TableMove (s : State) : HoldTable → Prop
  | decided (r : HoldRequest) (run : s.inRun = true) (fe : r.requester ≠ 0xFE) (ff : r.requester ≠ 0xFF) :
      TableMove s (decideHold s.img.holds s.now s.hold r).table
  | counted (t : Option Ms) : TableMove s { countDown s.hold with quantumTimer := t }
  | removed (who : Option Byte) : TableMove s (removeEntry who s.hold)

/-- A deed. With `entry` the start of RUN may be among the deeds, with `exit` the end of RUN, with `idle` an
evaluation of limits outside RUN. -/
inductive Deed (entry exit idle : Bool) : State → State → Prop
  | aside {s t : State} (h : Touches asideBlocks s t) : Deed entry exit idle s t
  | cfg (s : State) (c : Cfg) (h : c.node = s.cfg.node) : Deed entry exit idle s { s with cfg := c }
  | away (s : State) (c : Cfg) (h : s.cfg.node ≠ .run) (h' : c.node ≠ .run ∧ c.node ≠ .startRead) :
      Deed entry exit idle s { s with cfg := c }
  | pose (s : State) (p : PoseUnit)
      (h : p.record.p1Reach = s.pose.record.p1Reach ∧ p.record.p2Reach = s.pose.record.p2Reach
        ∧ p.record.p3Reach = s.pose.record.p3Reach) : Deed entry exit idle s { s with pose := p }
  | computed (s : State) (t : Option Ms) : Deed entry exit idle s { s with pose := ⟨s.computePose, t⟩ }
  | streams (s : State) (es : List Stream) (h : ∀ e ∈ es, e.mailbox.load ≤ 100 ∨ ∃ x ∈ s.streams, x.mailbox = e.mailbox) :
      Deed entry exit idle s { s with streams := es }
  | limTimer (s : State) (t : Option Ms) : Deed entry exit idle s (s.onLim fun u => { u with statusTimer := t })
  | restLim (s : State) : Deed entry exit idle s (s.onLim restLim)
  | records (s : State) (r : PerLimit LimitRecord) (run : idle = true ∨ s.inRun = true)
      (h : ∀ l, r.get l = s.lim.records.get l ∨ r.get l = s.evaluateLimit l) :
      Deed entry exit idle s (s.onLim fun u => { u with records := r })
  | setting (s : State) (d : State → Int → LimitDecision) (v : Int) (run : s.inRun = true) (h : d ∈ limitDecisions)
      (hv : signed16 v = true) : Deed entry exit idle s (s.onLim fun u => { u with set := (d s v).2 })
  | rule (s : State) (u : RuleUnit) (h : RuleKept s u) : Deed entry exit idle s { s with rule := u }
  | hold (s : State) (h : HoldTable) (move : TableMove s h) : Deed entry exit idle s { s with hold := h }
  | holdTimer (s : State) (t : Option Ms) : Deed entry exit idle s (s.onHold fun h => { h with quantumTimer := t })
  | demands (s : State) (f : Channel → ChannelRecord → ChannelRecord)
      (h : ∀ c r, f c r = { r with
        limit := (f c r).limit, rule := (f c r).rule, hold := (f c r).hold, fail := (f c r).fail })
      (cuts : CutsPerMille s → ∀ c, DemandsPerMille (f c (s.vch.get c))) : Deed entry exit idle s (s.writeDemands f)
  | period (s : State) (c : Channel) : Deed entry exit idle s (s.beginPeriod c)
  | duty (s : State) (c : Channel) (run : s.inRun = true) (used : (s.img.channels.get c).used = true) :
      Deed entry exit idle s (s.onChannel c (endDuty (s.img.channels.get c)))
  | eco (s : State) (e : Eco) (h : EcoKept s.eco e) : Deed entry exit idle s { s with eco := e }
  | svc (s : State) (v : Svc) (h : SvcKept s.svc v) : Deed entry exit idle s { s with svc := v }
  | second (s : State) (h : s.svc.engineSeconds < engineLimit) : Deed entry exit idle s (s.onSvc fun v => { v with
      engineSeconds := v.engineSeconds + 1, weighted := v.weighted + weightOf (s.mailbox .engineState).load })
  | leave (s : State) (h : s.cfg.node = .run) (out : exit = true) : Deed entry exit idle s { s with
      cfg := { s.cfg with node := .store }, lim := restLim s.lim, rule := leaveRule s.rule, hold := ⟨[], none, none⟩
      vch := emptyChannels s.img }
  | accept (s : State) (r : ImageRead) (h : s.cfg.node = .startRead) (hr : judgeImage (some r) = none) :
      Deed entry exit idle s { s with
        cfg := { s.cfg with node := .recordRead, fault := none }, image := some (rangeImage r.image)
        vch := emptyChannels (rangeImage r.image) }
  | record (s : State) (block : Option (List Byte)) (lost : Option RecordCheck) (h : s.cfg.node = .recordRead) :
      Deed entry exit idle s (s.takeRecord (recordOf block s.img.defaults) lost)
  | restart (s : State) (c : Cfg) (h : c.node = .startRead) (out : exit = true) : Deed entry exit idle s { State.reset with
      pending := s.pending, freeCount := s.freeCount, vch := emptyChannels s.img, cfg := c }
  | startRun (s : State) (h : entry = true) : Deed entry exit idle s { s with cfg := { s.cfg with
      node := .run, joinTimer := none, statusTimer := some (after s.now 1000) } }

/-- A run of deeds. -/
abbrev Deeds (entry exit idle : Bool) : State → State → Prop := ReflTransGen (Deed entry exit idle)

variable {entry exit idle : Bool} {s t : State}

/-- A change that stands aside. -/
theorem aside_deeds {b : Blocks} (h : Touches b s t) (hb : b.le asideBlocks = true := by rfl) : Deeds entry exit idle s t :=
  .single (.aside (h.mono hb))

theorem arriveAt_deeds (s : State) (d : Ms) : Deeds entry exit idle s (s.arriveAt d) := aside_deeds (arriveAt_touches s d)

theorem freeCount_deeds (s : State) (n : Nat) : Deeds entry exit idle s { s with freeCount := n } := by
  refine .single (.aside ?_)
  constructor <;> intro h <;> first | rfl | cases h

theorem pick_deeds (s : State) (n : Nat) : Deeds entry exit idle s (s.pick n).2 := by
  unfold State.pick
  split
  · exact .refl
  · exact freeCount_deeds s _

theorem eco_deeds (s : State) (f : Eco → Eco) (h : EcoKept s.eco (f s.eco) := by exact ⟨.inl rfl, .inl rfl, .inl rfl⟩) :
    Deeds entry exit idle s (s.onEco f) := .single (.eco s _ h)

theorem svc_deeds (s : State) (f : Svc → Svc)
    (h : SvcKept s.svc (f s.svc) := by exact ⟨rfl, rfl, .inl rfl, .inl rfl⟩) :
    Deeds entry exit idle s (s.onSvc f) := .single (.svc s _ h)

/-! ## Replies and notices -/

theorem setReply_deeds (s : State) (o : ReplyOwner) (r : Option ListReply) : Deeds entry exit idle s (s.setReply o r) := by
  cases o
  · refine .single (.aside ?_)
    constructor <;> intro h <;> first | rfl | cases h
  · exact .single (.rule s _ ⟨.inl ⟨rfl, rfl⟩, .inl rfl, .inl rfl⟩)
  · exact svc_deeds s fun v => { v with reply := r }

theorem link_deeds (s : State) (l : LinkUnit) : Deeds entry exit idle s { s with link := l } :=
  aside_deeds (onLink_touches s fun _ => l)

theorem deliver_deeds : ∀ (n : Nat) (o : ReplyOwner) (s : State), Deeds entry exit idle s (deliver n o s)
  | 0, _, _ => .refl
  | n + 1, o, s => by
    unfold deliver
    split
    · exact .refl
    · exact setReply_deeds s o none
    · dsimp only
      split
      · exact (setReply_deeds s o _).trans (link_deeds _ _)
      · exact ((setReply_deeds s o _).trans (link_deeds _ _)).trans (deliver_deeds n _ _)

theorem report_deeds (s : State) (o : Option ReplyOwner) : Deeds entry exit idle s (s.report o) := by
  cases o
  · exact .refl
  · exact deliver_deeds _ _ s

theorem reports_deeds (s : State) (os : List ReplyOwner) : Deeds entry exit idle s (s.reports os) :=
  reach_foldl (fun t o => report_deeds t (some o)) os s

theorem offerBackground_deeds (s : State) (f : TxFrame) : Deeds entry exit idle s (s.offerBackground f) :=
  (link_deeds s _).trans (report_deeds _ _)

theorem beginReply_deeds (s : State) (o : ReplyOwner) (d : Byte) (x : Option (List Byte)) (n : List Nat) :
    Deeds entry exit idle s (s.beginReply o d x n) := by
  have abandoned : Deeds entry exit idle s (s.abandonReply o) := (setReply_deeds s o none).trans (aside_deeds (onLink_touches _ _))
  unfold State.beginReply
  refine abandoned.trans ?_
  split
  · exact (setReply_deeds _ o _).trans (offerBackground_deeds _ _)
  · exact .refl
  · exact (setReply_deeds _ o _).trans (offerBackground_deeds _ _)

theorem raiseNotice_deeds (s : State) (id : Nat) (v : Option Severity) (d : Detail) :
    Deeds entry exit idle s (s.raiseNotice id v d) := aside_deeds (raiseNotice_touches s id v d)

theorem clearNotice_deeds (s : State) (id : Nat) : Deeds entry exit idle s (s.clearNotice id) :=
  aside_deeds (clearNotice_touches s id)

theorem offer_deeds (s : State) (cls : TxClass) (k : TxKind) (dst : Byte) (data : List Byte) :
    Deeds entry exit idle s (s.offer cls k dst data) := aside_deeds (offer_touches s cls k dst data)

/-! ## ECO -/

theorem EcoKept.refl (e : Eco) : EcoKept e e := ⟨.inl rfl, .inl rfl, .inl rfl⟩

theorem reform_deeds (s : State) : Deeds entry exit idle s s.reform :=
  (eco_deeds s _).trans ((aside_deeds (tellSpeed_touches _ _)).trans (aside_deeds (tellPump_touches _ _)))

theorem enterEco_deeds (s : State) (st : EcoState) : Deeds entry exit idle s (s.enterEco st) :=
  (eco_deeds s _).trans (reform_deeds _)

theorem enterNeutralWait_deeds (s : State) : Deeds entry exit idle s s.enterNeutralWait :=
  (enterEco_deeds s _).trans (eco_deeds _ _)

theorem enterWork_deeds (s : State) : Deeds entry exit idle s s.enterWork :=
  (enterEco_deeds s _).trans (reach_ite (enterNeutralWait_deeds _) .refl)

theorem recoveryTest_deeds (s : State) : Deeds entry exit idle s s.recoveryTest :=
  reach_ite ((clearNotice_deeds s _).trans (enterWork_deeds _)) .refl

theorem enterRecover_deeds (s : State) : Deeds entry exit idle s s.enterRecover :=
  ((enterEco_deeds s _).trans (eco_deeds _ _)).trans (recoveryTest_deeds _)

theorem permitEvent_deeds (s : State) : Deeds entry exit idle s s.permitEvent := by
  unfold State.permitEvent
  split
  · exact reach_ite (enterNeutralWait_deeds s) .refl
  · exact reach_ite .refl (enterWork_deeds s)
  · exact reach_ite .refl (enterRecover_deeds s)
  all_goals exact .refl

theorem reformTarget_deeds (s : State) : Deeds entry exit idle s s.reformTarget :=
  (reform_deeds s).trans (reach_ite .refl (recoveryTest_deeds _))

theorem writeCaps_deeds (s : State) (a : RuleActions) : Deeds entry exit idle s (s.writeCaps a) :=
  (eco_deeds s _).trans (reach_ite ((reformTarget_deeds _).trans (permitEvent_deeds _)) .refl)

theorem derateEvent_deeds (s : State) : Deeds entry exit idle s s.derateEvent := reach_ite (reformTarget_deeds s) .refl

theorem engineCondition_deeds (s : State) : Deeds entry exit idle s s.engineCondition :=
  (eco_deeds s _).trans (reach_ite (reach_ite (enterWork_deeds _) .refl) (reach_ite .refl (enterEco_deeds _ _)))

theorem formNeutral_deeds (s : State) (d : Ms) : Deeds entry exit idle s (s.formNeutral d) :=
  (eco_deeds s _).trans (reach_ite .refl (aside_deeds (takeTimestamp_touches _)))

theorem ecoHydraulic_deeds (s : State) (d : Ms) : Deeds entry exit idle s (s.ecoHydraulic d) :=
  (formNeutral_deeds s d).trans (permitEvent_deeds _)

theorem holdGrant_deeds (s : State) : Deeds entry exit idle s s.holdGrant := eco_deeds s _

theorem ecoGrant_deeds (s : State) : Deeds entry exit idle s s.ecoGrant :=
  (holdGrant_deeds s).trans ((eco_deeds _ _).trans (reach_ite (enterWork_deeds _) .refl))

theorem ecoEnterRun_deeds (s : State) : Deeds entry exit idle s s.ecoEnterRun :=
  ((formNeutral_deeds s _).trans (reform_deeds _)).trans (engineCondition_deeds _)

theorem satAdd_le (limit n k : Nat) : satAdd limit n k ≤ limit := Nat.min_le_left _ _

theorem addGap_deeds (s : State) (dt : Nat) : Deeds entry exit idle s (s.addGap dt) := by
  unfold State.addGap
  have rem : (s.eco.gapRem + dt) % 1000 ≤ 999 := by omega
  exact (eco_deeds s _ ⟨.inl rfl, .inl rfl, .inr rem⟩).trans (svc_deeds _ _ ⟨rfl, rfl, .inl rfl, .inr (satAdd_le _ _ _)⟩)

theorem fuelArrival_deeds (s : State) (e : Stream) : Deeds entry exit idle s (s.fuelArrival e) := by
  unfold State.fuelArrival
  refine ReflTransGen.trans ?_ (eco_deeds _ _)
  split
  · exact .refl
  · rename_i m _
    have rem : (s.eco.fuelRem + m.rate * elapsed e.arrival m.time) % 72000 ≤ 71999 := by omega
    exact reach_ite (eco_deeds s _ ⟨.inl rfl, .inr rem, .inl rfl⟩) (addGap_deeds s _)

theorem ecoEngineArrival_deeds (s : State) (e : Stream) : Deeds entry exit idle s (s.ecoEngineArrival e) :=
  ((fuelArrival_deeds s e).trans (engineCondition_deeds _)).trans (recoveryTest_deeds _)

theorem ecoEngineState_deeds (s : State) (e : Stream) : Deeds entry exit idle s (s.ecoEngineState e) :=
  (eco_deeds s _).trans (engineCondition_deeds _)

theorem ecoCycle_deeds (s : State) (n : Nat) : Deeds entry exit idle s (s.ecoCycle n) := by
  unfold State.ecoCycle
  exact (offerBackground_deeds s _).trans (eco_deeds _ _)

/-! ## RULE -/

/-- The action fields of a winner hold per-mille cuts where the image's do. -/
theorem actions_perMille (h : CutsPerMille s) (w : Nat) (c : Channel) : ∀ n ∈ (s.actions w).cuts.get c, n ≤ 1000 := by
  obtain ⟨-, -, -, -, rules, default, -⟩ := h
  unfold State.actions
  split
  · rename_i r found
    exact rules r (List.mem_of_find?_eq_some found) c
  · exact default c

theorem writeCuts_deeds (s : State) (w : Nat) : Deeds entry exit idle s (s.writeCuts (s.actions w)) := by
  refine .single (.demands s _ (fun _ _ => rfl) fun h c => ?_)
  obtain ⟨limit, -, hold, fail⟩ := h.1 c
  exact ⟨limit, actions_perMille h w c, hold, fail⟩

/-- A winner change with the new key (R67, R70 to R74). -/
theorem changeWinner_deeds (run : s.inRun = true) (k : Key) :
    Deeds entry exit idle s ((s.onRule fun u => { u with key := some k }).changeWinner (lookup s.img.rules k) k) := by
  unfold State.changeWinner
  dsimp only
  refine ReflTransGen.trans ?_ ((aside_deeds (clearRuleNotice_touches _ _)).trans (aside_deeds (raiseRuleNotice_touches _ _ _)))
  refine ReflTransGen.trans ?_ (aside_deeds (ruleSound_touches _ _ _))
  refine ReflTransGen.trans ?_ (writeCaps_deeds _ _)
  refine ReflTransGen.trans (.single (.rule s { s.rule with
    key := some k, winner := some (lookup s.img.rules k)
    hits := s.rule.hits.set (lookup s.img.rules k) (sat16 (s.rule.hits.getD (lookup s.img.rules k) 0)) }
    ⟨.inr ⟨run, k, rfl, rfl⟩, .inr (.inr ⟨_, rfl⟩), .inl rfl⟩)) ?_
  exact writeCuts_deeds _ (lookup s.img.rules k)

theorem rebuild_deeds (s : State) : Deeds entry exit idle s s.rebuild := by
  unfold State.rebuild
  dsimp only
  split
  · rename_i run
    refine reach_ite .refl ?_
    unfold State.lookupKey
    dsimp only
    split
    · rename_i same
      exact .single (.rule s { s.rule with key := some s.zoneKey } ⟨.inr ⟨run, _, rfl, same⟩, .inl rfl, .inl rfl⟩)
    · exact changeWinner_deeds run s.zoneKey
  · exact .refl

/-! ## HOLD -/

theorem largest_le {m : Nat} : ∀ {ns : List Nat}, (∀ n ∈ ns, n ≤ m) → ∀ n ∈ largest ns, n ≤ m
  | [], _, n, h => by cases h
  | x :: xs, hx, n, h => by
    have ih := largest_le (m := m) (ns := xs) fun y hy => hx y (by simp [hy])
    have first := hx x (by simp)
    unfold largest at h
    cases rest : largest xs with
    | none => rw [rest] at h; cases h; exact first
    | some y => rw [rest] at h; cases h; exact max_le first (ih y rest)

/-- The hold demand is per-mille where the levels of the table are (R92). -/
theorem demand_perMille {h : HoldTable} (he : ∀ e ∈ h.entries, e.level ≤ 1000) (ho : ∀ o ∈ h.overflow, o.level ≤ 1000)
    (c : Channel) : ∀ n ∈ h.demand c, n ≤ 1000 := by
  refine largest_le fun n hn => ?_
  obtain ⟨x, hx, rfl⟩ := List.mem_map.1 hn
  obtain ⟨hx, -⟩ := List.mem_filter.1 hx
  rcases List.mem_append.1 hx with hx | hx
  · obtain ⟨e, mem, rfl⟩ := List.mem_map.1 hx
    exact he e mem
  · rw [Option.mem_toList, Option.map_eq_some_iff] at hx
    obtain ⟨o, mem, rfl⟩ := hx
    exact ho o mem

theorem changeHold_deeds (s : State) (f : HoldTable → HoldTable) (move : TableMove s (f s.hold)) :
    Deeds entry exit idle s (s.changeHold f) := by
  have table : Deeds entry exit idle s ((s.onHold f).writeDemands fun c r => { r with hold := (s.onHold f).hold.demand c }) := by
    refine ReflTransGen.trans (.single (.hold s _ move)) (.single (.demands (s.onHold f) _ (fun _ _ => rfl) fun h c => ?_))
    obtain ⟨demands, entries, overflow, -⟩ := h
    obtain ⟨limit, rule, -, fail⟩ := demands c
    exact ⟨limit, rule, demand_perMille entries overflow c, fail⟩
  unfold State.changeHold
  dsimp only
  have rebuilt := reach_ite (p := ((s.onHold f).writeDemands fun c r =>
    { r with hold := (s.onHold f).hold.demand c }).hold.active = s.hold.active) table (table.trans (rebuild_deeds _))
  exact reach_ite (rebuilt.trans (clearNotice_deeds _ _)) rebuilt

theorem takeHold_deeds (s : State) (r : HoldRequest) : Deeds entry exit idle s (s.takeHold r) := by
  unfold State.takeHold
  split
  · exact .refl
  · rename_i other
    rw [not_or] at other
    split
    · rename_i run
      have changed := changeHold_deeds (entry := entry) (exit := exit) (idle := idle) s
        (fun _ => (decideHold s.img.holds s.now s.hold r).table)
        (.decided r ((inRun_iff s).2 run) other.1 other.2)
      refine ReflTransGen.trans (reach_ite (changed.trans ?_) changed) (offer_deeds _ _ _ _ _)
      exact (aside_deeds (sound_touches _ _)).trans (raiseNotice_deeds _ _ _ _)
    · exact offer_deeds _ _ _ _ _
    · exact offer_deeds _ _ _ _ _
    all_goals exact .refl

/-! ## LIM -/

/-- The values that an evaluation of limits gives are the part's own (R55): a cut and a fail value are per-mille. -/
theorem cutOf_perMille {b : Band} {r : LimitRecord} (hb : 0 ≤ b.aStop ∧ b.aStop ≤ 1000)
    (hr : r.state = .approach → ∀ m ∈ r.margin, 0 < m ∧ m < b.b) : ∀ n ∈ cutOf b r, n ≤ 1000 := by
  intro n h
  unfold cutOf at h
  split at h
  · cases h; decide
  · rename_i m state margin
    obtain ⟨low, high⟩ := hr state m margin
    have part : 0 ≤ (1000 - b.aStop) * m / b.b :=
      Int.ediv_nonneg (mul_nonneg (by omega) low.le) (by omega)
    cases h
    omega
  · cases h
  · cases h; omega
  · cases h
  · cases h

theorem limitDemand_perMille (h : CutsPerMille s) (c : Channel) :
    ∀ n ∈ limitDemand s.img.limits s.lim.records c, n ≤ 1000 := by
  obtain ⟨-, -, -, -, -, -, bands, approach, -⟩ := h
  refine largest_le fun n hn => ?_
  obtain ⟨l, -, hl⟩ := List.mem_filterMap.1 hn
  split at hl
  · exact cutOf_perMille (bands l) (approach l) n hl
  · cases hl

theorem failDemand_perMille (h : CutsPerMille s) (c : Channel) :
    ∀ n ∈ failDemand s.img.limits s.lim.records (s.img.channels.get c).fail c, n ≤ 1000 := by
  obtain ⟨-, -, -, fails, -⟩ := h
  intro n hn
  unfold failDemand at hn
  split at hn
  · cases hn; exact fails c
  · cases hn

theorem writeLimitDemands_deeds (s : State) : Deeds entry exit idle s s.writeLimitDemands := by
  refine .single (.demands s _ (fun _ _ => rfl) fun h c => ?_)
  obtain ⟨-, rule, hold, -⟩ := h.1 c
  exact ⟨limitDemand_perMille h c, rule, hold, failDemand_perMille h c⟩

theorem evaluateStates_deeds (s : State) (p : Limit → Bool) (run : idle = true ∨ s.inRun = true) :
    Deeds entry exit idle s (s.evaluateStates p) := by
  unfold State.evaluateStates
  refine ReflTransGen.trans (.single (.records s _ run fun l => ?_))
    ((reach_foldl (fun t l => aside_deeds (stopNotice_touches t _ l)) _ _).trans (aside_deeds (limitSounds_touches _)))
  rw [get_tabulate_limit]
  split
  · exact .inr rfl
  · exact .inl rfl

theorem offerStatusChange_deeds (s : State) : Deeds entry exit idle s s.offerStatusChange := offer_deeds _ _ _ _ _

theorem evaluateLimits_deeds (s : State) (p : Limit → Bool) (run : idle = true ∨ s.inRun = true) :
    Deeds entry exit idle s (s.evaluateLimits p) := by
  unfold State.evaluateLimits
  exact ((evaluateStates_deeds s p run).trans (writeLimitDemands_deeds _)).trans
    (reach_ite ((offerStatusChange_deeds _).trans (rebuild_deeds _)) .refl)

theorem takeItem_deeds (s : State) : Deeds entry exit idle s s.takeItem := aside_deeds (takeItem_touches s)

theorem takeFrame_deeds (s : State) : Deeds entry exit idle s s.takeFrame := aside_deeds (takeFrame_touches s)

theorem respond_deeds (s : State) (i : SettingItem) (r : SettingResult) (a b c : Option Int) :
    Deeds entry exit idle s (s.respond i r a b c) := offer_deeds _ _ _ _ _

theorem s16At_signed (data : List Byte) (n : Nat) : signed16 (s16At data n) = true := by
  have low := BitVec.le_toInt (BitVec.ofNat 16 (u16At data n))
  have high := BitVec.toInt_lt (x := BitVec.ofNat 16 (u16At data n))
  unfold signed16
  rw [Bool.and_eq_true]
  exact ⟨decide_eq_true low, decide_eq_true (by unfold s16At; omega)⟩

/-- The value of an item is a signed 16-bit one (10.7). -/
theorem itemFor_signed {n : Nat} {i : SettingItem} (h : s.itemFor n = some i) : signed16 i.value = true := by
  unfold State.itemFor at h
  obtain ⟨next, -⟩ := Option.filter_eq_some_iff.1 h
  unfold State.nextItem at next
  split at next
  · split at next
    · cases next; exact s16At_signed _ _
    · cases next
  · cases next

theorem takeItem_inRun (s : State) : s.takeItem.inRun = s.inRun := by
  rw [State.inRun, (takeItem_touches s).cfg rfl, State.inRun]

theorem limitItem_deeds (s : State) (n : Nat) {d : State → Int → LimitDecision} (p : Limit → Bool)
    (v : LimitSet → Option Int × Option Int × Option Int) (h : d ∈ limitDecisions) :
    Deeds entry exit idle s (s.limitItem n d p v) := by
  unfold State.limitItem
  split
  · exact .refl
  · rename_i i item
    dsimp only
    refine (takeItem_deeds s).trans (ReflTransGen.trans ?_ (respond_deeds _ _ _ _ _ _))
    split
    · exact .refl
    · rename_i decided
      split at decided
      · rename_i run
        rw [if_pos run]
        exact ReflTransGen.trans (.single (.setting _ d i.value run h (itemFor_signed item)))
          (evaluateLimits_deeds _ _ (.inr run))
      · exact absurd rfl (decided .state)

/-! ## SVC -/

theorem SvcKept.refl (v : Svc) : SvcKept v v := ⟨rfl, rfl, .inl rfl, .inl rfl⟩

theorem formDerate_deeds (s : State) : Deeds entry exit idle s s.formDerate :=
  reach_ite .refl ((svc_deeds s _).trans (derateEvent_deeds _))

theorem raiseItem_deeds (s : State) (i : ServiceItem) : Deeds entry exit idle s (s.raiseItem i) :=
  aside_deeds (raiseItem_touches s i)

theorem evaluate_deeds (s : State) (p : ServiceItem → Bool) : Deeds entry exit idle s (s.evaluate p) := by
  unfold State.evaluate
  exact ((svc_deeds s _).trans (reach_foldl (fun t i => raiseItem_deeds t _) _ _)).trans (formDerate_deeds _)

theorem remindAgain_deeds (s : State) (i : ServiceItem) : Deeds entry exit idle s (s.remindAgain i) :=
  aside_deeds (remindAgain_touches s i)

theorem countReminds_deeds (s : State) : Deeds entry exit idle s s.countReminds :=
  (svc_deeds s _).trans (reach_foldl remindAgain_deeds _ _)

theorem startWrite_deeds (s : State) : Deeds entry exit idle s s.startWrite := by
  unfold State.startWrite
  exact svc_deeds s _

theorem requestWrite_deeds (s : State) : Deeds entry exit idle s s.requestWrite :=
  reach_ite (startWrite_deeds s) (svc_deeds s _)

theorem countSecond_deeds (s : State) : Deeds entry exit idle s s.countSecond := by
  unfold State.countSecond
  split
  · split
    · rename_i room
      exact .single (.second s room)
    · exact .refl
  · exact reach_ite .refl (svc_deeds s _ ⟨rfl, rfl, .inl rfl, .inr (satAdd_le _ _ _)⟩)

theorem svcSecond_deeds (s : State) : Deeds entry exit idle s s.svcSecond := by
  unfold State.svcSecond
  dsimp only
  have evaluated := (countSecond_deeds (entry := entry) (exit := exit) (idle := idle) s).trans (evaluate_deeds s.countSecond inHours)
  refine reach_ite ?_ (countSecond_deeds s)
  exact ReflTransGen.trans (reach_ite (evaluated.trans (requestWrite_deeds _)) evaluated) (countReminds_deeds _)

theorem countCycle_deeds (s : State) : Deeds entry exit idle s s.countCycle := by
  unfold State.countCycle
  split
  · rename_i room
    have counted : Deeds entry exit idle s (s.onSvc fun v => { v with cycles := v.cycles + 1 }) :=
      svc_deeds s _ ⟨rfl, rfl, .inr (Nat.succ_le_of_lt room), .inl rfl⟩
    exact (counted.trans (evaluate_deeds _ _)).trans (ecoCycle_deeds _ _)
  · exact .refl

theorem digStep_deeds (s : State) : Deeds entry exit idle s s.digStep :=
  (svc_deeds s _).trans (reach_ite (countCycle_deeds _) .refl)

theorem onCfg_deeds (s : State) (f : Cfg → Cfg) (h : (f s.cfg).node = s.cfg.node := by rfl) :
    Deeds entry exit idle s (s.onCfg f) := .single (.cfg s _ h)

theorem recordGood_deeds (s : State) : Deeds entry exit idle s s.recordGood := by
  unfold State.recordGood
  split
  · exact .refl
  · exact (onCfg_deeds s _).trans (clearNotice_deeds _ _)

theorem endWrite_deeds (s : State) (ok : Bool) : Deeds entry exit idle s (s.endWrite ok) := by
  unfold State.endWrite
  dsimp only
  have noted : Deeds entry exit idle s (s.onSvc fun v => { v with
      write := none, lastFailed := !ok, writeFails := if ok then v.writeFails else sat16 v.writeFails }) := svc_deeds s _
  have good := reach_ite (p := ok = true) (noted.trans (recordGood_deeds _)) noted
  exact reach_ite (good.trans ((svc_deeds _ _).trans (startWrite_deeds _))) good

theorem doService_deeds (s : State) (n : Int) : Deeds entry exit idle s (s.doService n) :=
  (((svc_deeds s _).trans (clearNotice_deeds _ _)).trans (formDerate_deeds _)).trans (requestWrite_deeds _)

theorem svcEnterRun_deeds (s : State) : Deeds entry exit idle s s.svcEnterRun := by
  unfold State.svcEnterRun
  exact ((svc_deeds s _).trans (formDerate_deeds _)).trans (reach_foldl raiseItem_deeds _ _)

/-! ## STM -/

/-- Entries whose mailboxes are sound or stood in the table before. -/
theorem streams_deeds (s : State) (f : Stream → Stream)
    (h : ∀ e ∈ s.streams, (f e).mailbox.load ≤ 100 ∨ ∃ x ∈ s.streams, x.mailbox = (f e).mailbox) :
    Deeds entry exit idle s (s.onStreams fun es => es.map f) := by
  refine .single (.streams s _ fun e he => ?_)
  obtain ⟨x, hx, rfl⟩ := List.mem_map.1 he
  exact h x hx

theorem setEntry_deeds (s : State) (e : Stream) (h : e.mailbox.load ≤ 100 ∨ ∃ x ∈ s.streams, x.mailbox = e.mailbox) :
    Deeds entry exit idle s (s.setEntry e) := by
  refine streams_deeds s _ fun x hx => ?_
  split
  · exact h
  · exact .inr ⟨x, hx, rfl⟩

theorem readPayload_load (r : Role) (data : List Byte) : (readPayload r data).load ≤ 100 := by
  cases r <;> simp [readPayload, Mailbox.empty]

theorem tellFault_deeds (s : State) (a b : Stream) : Deeds entry exit idle s (s.tellFault a b) :=
  aside_deeds (tellFault_touches s a b)

/-- Events in a free order, with a condition that each keeps. -/
theorem anyOrder_deeds (C : State → Prop) (free : ∀ t n, C t → C { t with freeCount := n })
    (threads : List (List (State → State))) (s : State)
    (h : ∀ thread ∈ threads, ∀ event ∈ thread, ∀ t, C t → Deeds entry exit idle t (event t) ∧ C (event t)) (hs : C s) :
    Deeds entry exit idle s (anyOrder threads s) :=
  (anyOrder_keeps (P := fun t => Deeds entry exit idle s t ∧ C t)
    (fun _ _ ⟨k, c⟩ => ⟨k.trans (freeCount_deeds _ _), free _ _ c⟩) threads s
    (fun thread ht event he t ⟨k, c⟩ => ⟨k.trans (h thread ht event he t c).1, (h thread ht event he t c).2⟩) ⟨.refl, hs⟩).1

theorem inRun_of_touches {b : Blocks} (h : Touches b s t) (run : s.inRun = true) (hb : b.cfg = false := by rfl) :
    t.inRun = true := by
  rw [State.inRun, h.cfg hb]; exact run

theorem streamEvent_deeds (s : State) (e : Stream) (a c : Bool) : Deeds entry exit idle s (s.streamEvent e a c) := by
  unfold State.streamEvent
  split
  · exact reach_ite (holdGrant_deeds s) .refl
  · rename_i run
    have run : s.inRun = true := by simpa using run
    split
    · refine reach_ite (anyOrder_deeds (fun t => t.inRun = true) (fun _ _ h => h) _ _ ?_ run) .refl
      simp only [List.mem_cons, List.not_mem_nil, or_false, forall_eq_or_imp, forall_eq]
      exact ⟨fun t h => ⟨evaluateLimits_deeds t _ (.inr h), inRun_of_touches (evaluateLimits_touches t _) h⟩,
        fun t h => ⟨rebuild_deeds t, inRun_of_touches (rebuild_touches t) h⟩⟩
    · exact ReflTransGen.trans (reach_ite (ecoEngineArrival_deeds s e) (ecoEngineState_deeds s e)) (rebuild_deeds _)
    · exact ecoGrant_deeds s
    · exact (ecoHydraulic_deeds s _).trans (rebuild_deeds _)
    · exact reach_ite (aside_deeds (takeDisplay_touches s)) .refl
    all_goals exact .refl

theorem changeEntry_deeds (s : State) (e e' : Stream) (a : Bool)
    (h : e'.mailbox.load ≤ 100 ∨ ∃ x ∈ s.streams, x.mailbox = e'.mailbox) : Deeds entry exit idle s (s.changeEntry e e' a) :=
  ((setEntry_deeds s e' h).trans (tellFault_deeds _ _ _)).trans (streamEvent_deeds _ _ _ _)

theorem arrive_deeds (s : State) (e : Stream) (data : List Byte) (h : e ∈ s.streams) : Deeds entry exit idle s (s.arrive e data) := by
  have accepted : ∀ gap, Deeds entry exit idle s
      (s.changeEntry e (acceptArrival s.now data gap (asArrivalFinds s.now e)) true) := fun _ =>
    changeEntry_deeds s _ _ _ (.inl (readPayload_load _ _))
  unfold State.arrive
  refine reach_ite (setEntry_deeds s _ (.inr ⟨e, h, rfl⟩)) ?_
  dsimp only
  split
  · exact setEntry_deeds s _ (.inr ⟨e, h, rfl⟩)
  · exact accepted false
  · exact accepted true

/-! ## The node states -/

theorem enterJoin_deeds (h : s.cfg.node ≠ .run) : Deeds entry exit idle s s.enterJoin := by
  refine ReflTransGen.trans ?_ (holdGrant_deeds _)
  have rested : Deeds entry exit idle s ((s.onLim restLim).onStreams fun es => es.map joinEntry) :=
    .head (.restLim s) (streams_deeds _ _ fun _ _ => .inl (by simp [joinEntry, Mailbox.empty]))
  exact (rested.tail (.away _ { s.cfg with node := .join, joinTimer := some (after s.now 200), statusTimer := none } h
    ⟨by simp, by simp⟩)).trans (link_deeds _ (joinLink s.link))

theorem enterQuiet_deeds (h : s.cfg.node ≠ .run) : Deeds entry exit idle s s.enterQuiet :=
  (ReflTransGen.trans (.single (.away s { s.cfg with
    node := .quiet, joinTimer := none, statusTimer := some (after s.now 5000) } h ⟨by simp, by simp⟩))
    (link_deeds _ (quietLink s.link))).trans (offerBackground_deeds _ _)

theorem joinOrQuiet_deeds (h : s.cfg.node ≠ .run) : Deeds entry exit idle s s.joinOrQuiet :=
  reach_ite (enterJoin_deeds h) (enterQuiet_deeds h)

theorem leaveRun_deeds (h : s.cfg.node = .run) : Deeds entry true idle s s.leaveRun := by
  refine ReflTransGen.trans ?_ (requestWrite_deeds _)
  have frozen : Deeds entry true idle s (s.onStreams fun es => es.map freezeEntry) :=
    streams_deeds s _ fun e he => .inr ⟨e, he, rfl⟩
  have posed := frozen.tail (.pose _ (leavePose s.pose) ⟨rfl, rfl, rfl⟩)
  have eco := posed.tail (.eco _ (leaveEco s.img.economy s.svc.derate s.eco) ⟨.inl rfl, .inl rfl, .inl rfl⟩)
  have svc := eco.tail (.svc _ (leaveSvc s.svc) ⟨rfl, rfl, .inl rfl, .inl rfl⟩)
  refine (svc.tail (.leave _ h rfl)).tail (.aside ?_)
  constructor <;> intro k <;> first | rfl | cases k

theorem keyEvent_deeds (s : State) : Deeds entry true idle s s.keyEvent := by
  unfold State.keyEvent
  split
  · rename_i node
    exact reach_ite .refl (enterQuiet_deeds (by rw [node]; decide))
  · rename_i node
    exact reach_ite .refl (leaveRun_deeds node)
  · rename_i node
    exact reach_ite (enterJoin_deeds (by rw [node]; decide)) .refl
  all_goals exact .refl

theorem raiseFaults_touches (s : State) : Touches noticeBlocks s s.raiseFaults := by
  refine Touches.foldl (fun t e => ?_) _ s
  split
  · exact raiseNotice_touches t _ _ _
  · exact .refl _ t

theorem raiseClash_touches (s : State) : Touches noticeBlocks s s.raiseClash := by
  unfold State.raiseClash
  split
  · exact .refl _ s
  · exact ((onLink_touches s _).mono rfl).trans (raiseNotice_touches _ _ _ _)

theorem raiseLost_touches (s : State) : Touches noticeBlocks s s.raiseLost := by
  unfold State.raiseLost
  split
  · exact .refl _ s
  · exact raiseNotice_touches s _ _ _

theorem formNtc_touches (s : State) : Touches noticeBlocks s s.formNtc :=
  (takeTimestamp_touches s).trans (takeDisplay_touches _)

/-- Every event of the entry to RUN touches neither CFG nor the image. -/
theorem runThreads_keeps {C : State → Prop} (keeps : ∀ {t u : State} {b : Blocks}, Touches b t u → b.cfg = false →
    b.image = false → C t → C u) (first : Bool) :
    ∀ thread ∈ runThreads first, ∀ event ∈ thread, ∀ t, C t → C (event t) := by
  have limits : ∀ event ∈ limitThread first, ∀ t, C t → C (event t) := by
    intro event h t
    rcases mem_limitThread h with rfl | rfl | rfl
    · exact keeps (evaluateStates_touches t _) rfl rfl
    · exact keeps (rebuild_touches t) rfl rfl
    · exact keeps (writeLimitDemands_touches t) rfl rfl
  simp only [runThreads, List.mem_cons, List.not_mem_nil, or_false, forall_eq_or_imp, forall_eq]
  exact ⟨fun t => keeps (raiseFaults_touches t) rfl rfl, limits, fun t => keeps (beginPeriod_touches t _) rfl rfl,
    fun t => keeps (beginPeriod_touches t _) rfl rfl, fun t => keeps (beginPeriod_touches t _) rfl rfl,
    fun t => keeps (beginPeriod_touches t _) rfl rfl, fun t => keeps (beginPeriod_touches t _) rfl rfl,
    fun t => keeps (beginPeriod_touches t _) rfl rfl, fun t => keeps (ecoEnterRun_touches t) rfl rfl,
    fun t => keeps (svcEnterRun_touches t) rfl rfl, fun t => keeps (formNtc_touches t) rfl rfl,
    fun t => keeps (raiseClash_touches t) rfl rfl, fun t => keeps (raiseLost_touches t) rfl rfl⟩

/-- Every event of the entry to RUN is made of deeds, in RUN. -/
theorem runThreads_deeds (first : Bool) : ∀ thread ∈ runThreads first, ∀ event ∈ thread, ∀ t, t.inRun = true →
    Deeds entry exit idle t (event t) := by
  have limits : ∀ event ∈ limitThread first, ∀ t, t.inRun = true → Deeds entry exit idle t (event t) := by
    intro event h t run
    rcases mem_limitThread h with rfl | rfl | rfl
    · exact evaluateStates_deeds t _ (.inr run)
    · exact rebuild_deeds t
    · exact writeLimitDemands_deeds t
  simp only [runThreads, List.mem_cons, List.not_mem_nil, or_false, forall_eq_or_imp, forall_eq]
  exact ⟨fun t _ => aside_deeds (raiseFaults_touches t), limits, fun t _ => .single (.period t _),
    fun t _ => .single (.period t _), fun t _ => .single (.period t _), fun t _ => .single (.period t _),
    fun t _ => .single (.period t _), fun t _ => .single (.period t _), fun t _ => ecoEnterRun_deeds t,
    fun t _ => svcEnterRun_deeds t, fun t _ => aside_deeds (formNtc_touches t), fun t _ => aside_deeds (raiseClash_touches t),
    fun t _ => aside_deeds (raiseLost_touches t)⟩

theorem startRun_deeds (s : State) : Deeds true exit idle s s.startRun := by
  have entered : Deeds true exit idle s { s with cfg := s.startRun.cfg } := .single (.startRun s rfl)
  have posed := entered.tail (.pose _ { s.pose with timer := some (after s.now 20) } ⟨rfl, rfl, rfl⟩)
  have watched := posed.tail (.streams _ (s.streams.map (runEntry s.now)) fun e he => by
    obtain ⟨x, hx, rfl⟩ := List.mem_map.1 he
    exact .inr ⟨x, hx, by unfold runEntry; split <;> rfl⟩)
  have limits := (watched.tail (.limTimer _ (some (after s.now 100)))).tail (.holdTimer _ (some (after s.now 10)))
  have eco := limits.tail (.eco _ (ecoStartTimers s.now s.eco) ⟨.inl rfl, .inl rfl, .inl rfl⟩)
  have svc := eco.tail (.svc _ (svcStartTimers s.now s.svc) ⟨rfl, rfl, .inl rfl, .inl rfl⟩)
  refine svc.tail (.aside ?_)
  constructor <;> intro k <;> first | rfl | cases k

theorem pick_inRun (s : State) (n : Nat) : (s.pick n).2.inRun = s.inRun := by
  unfold State.pick
  split <;> rfl

theorem enterRun_deeds (s : State) : Deeds true exit idle s s.enterRun := by
  have begun : Deeds true exit idle s (s.startRun.pick 2).2 := (startRun_deeds s).trans (pick_deeds _ 2)
  refine ReflTransGen.trans (begun.trans ?_) (aside_deeds (reportEntry_touches _ _))
  refine anyOrder_deeds (fun t => t.inRun = true) (fun _ _ h => h) _ _
    (fun thread ht event he t run => ⟨runThreads_deeds _ thread ht event he t run, ?_⟩) ((pick_inRun _ 2).trans rfl)
  exact runThreads_keeps (C := fun t => t.inRun = true) (fun h hc _ run => inRun_of_touches h run hc) _ thread ht event he t run

theorem endRecordRead_deeds (block : Option (List Byte)) (h : s.cfg.node = .recordRead) :
    Deeds entry exit idle s (s.endRecordRead block) := by
  unfold State.endRecordRead
  dsimp only
  refine ReflTransGen.trans ?_ (joinOrQuiet_deeds ?_)
  · exact (ReflTransGen.trans (.single (.record s block _ h)) (evaluate_deeds _ _)).trans (eco_deeds _ _)
  · rw [onEco_cfg, (evaluate_touches _ _).cfg rfl]
    show s.cfg.node ≠ .run
    rw [h]; decide

theorem storeEnd_deeds (s : State) : Deeds entry exit idle s s.storeEnd := by
  unfold State.storeEnd
  split
  · rename_i h
    exact joinOrQuiet_deeds (by rw [h.1]; decide)
  · exact .refl

theorem acceptImage_deeds {r : ImageRead} (h : s.cfg.node = .startRead) (hr : judgeImage (some r) = none) :
    Deeds entry exit idle s (s.acceptImage r.image) := by
  have taken : Deeds entry exit idle s { s with
      cfg := { s.cfg with node := .recordRead, fault := none }, image := some (rangeImage r.image)
      vch := emptyChannels (rangeImage r.image) } := .single (.accept s r h hr)
  have entries := taken.tail (.streams _ (newStreams (rangeImage r.image)) fun e he => by
    obtain ⟨x, -, rfl⟩ := List.mem_map.1 he
    exact .inl (by simp [newStream, Mailbox.empty]))
  have items := entries.tail (.svc _ { s.svc with items := newItems (rangeImage r.image) } ⟨rfl, rfl, .inl rfl, .inl rfl⟩)
  refine items.tail (.aside ?_)
  constructor <;> intro k <;> first | rfl | cases k

theorem refuseImage_deeds (r : Option ImageRead) (c : FaultCode) (h : s.cfg.node = .startRead) :
    Deeds entry exit idle s (s.refuseImage r c) :=
  ReflTransGen.trans (.single (.away s { s.cfg with
    node := .configFault, fault := some c, statusTimer := some (after s.now 1000) } (by rw [h]; decide)
    ⟨by simp, by simp⟩)) (link_deeds _ { s.link with address := (faultBus r).1, bitRate := some (faultBus r).2 })

theorem receive_touches (s : State) (f : RxFrame) : Touches noticeBlocks s (s.receive f) := by
  refine .ite ?clash (.ite ?enqueue (.refl _ s))
  case clash =>
    unfold State.clash
    dsimp only
    refine Touches.trans ((onLink_touches s fun l => { l with clashes := sat16 l.clashes }).mono rfl) ?_
    split
    · exact raiseNotice_touches _ _ _ _
    · exact (onLink_touches _ _).mono rfl
    · exact (onLink_touches _ _).mono rfl
    all_goals exact .refl _ _
  case enqueue =>
    exact .ite (((onLink_touches s _).mono rfl).trans ((settled_touches _).mono rfl)) ((onLink_touches s _).mono rfl)

end Sys2Proof.Laws
end

section
/-! Every command is made of deeds: one case per command. -/

namespace Sys2Proof.Laws

open Sys2Proof.Machine Relation

-- Many short proofs at once would each hold a thread of the checking process.
set_option Elab.async false

/-- The command that enters RUN (R188). -/
def startsRun : Instr → Bool
  | .joinTimerExpiry => true
  | _ => false

/-- The commands that can end RUN (R188). -/
def leavesRun : Instr → Bool
  | .powerOnStart | .keyDebounceExpiry => true
  | _ => false

/-- The computation of the pose outside RUN, where its timer is stopped (R11, R19). -/
def computesIdle (s : State) : Instr → Bool
  | .posePeriodExpiry => !s.inRun
  | _ => false

/-- An outcome is a next state made of deeds. -/
def Does (entry exit idle : Bool) (s : State) (o : Host.Outcome State Fault Refusal) : Prop :=
  ∃ t, o = .next t ∧ Deeds entry exit idle s t

variable {entry exit idle : Bool} {s t : State}

theorem does_next (h : Deeds entry exit idle s t) : Does entry exit idle s (.next t) := ⟨t, rfl, h⟩

/-! ## CFG, POSE and STM -/

theorem powerOnStart_does : Does entry true idle s (execPowerOnStart s) :=
  does_next (.single (.restart s { State.reset.cfg with keyPin := s.cfg.keyPin, key := s.cfg.keyPin } rfl rfl))

theorem keyDebounceExpiry_does : Does entry true idle s (execKeyDebounceExpiry s) := by
  unfold execKeyDebounceExpiry
  split
  · exact does_next .refl
  · exact does_next (((arriveAt_deeds s _).trans (onCfg_deeds _ _)).trans (keyEvent_deeds _))

theorem imageReadDone_does (r : Option ImageRead) : Does entry exit idle s (execImageReadDone r s) := by
  unfold execImageReadDone
  split
  · rename_i node
    split
    · rename_i judged
      exact does_next (acceptImage_deeds node judged)
    · exact does_next (refuseImage_deeds _ _ node)
    · exact does_next (refuseImage_deeds _ _ node)
  · exact does_next .refl

theorem recordReadDone_does (block : Option (List Byte)) : Does entry exit idle s (execRecordReadDone block s) := by
  unfold execRecordReadDone
  split
  · rename_i node
    exact does_next (endRecordRead_deeds block node)
  · exact does_next .refl

theorem joinTimerExpiry_does : Does true exit idle s (execJoinTimerExpiry s) := by
  unfold execJoinTimerExpiry
  split
  · exact does_next .refl
  · exact does_next ((arriveAt_deeds s _).trans (enterRun_deeds _))

theorem nodeStatusTimerExpiry_does : Does entry exit idle s (execNodeStatusTimerExpiry s) := by
  unfold execNodeStatusTimerExpiry
  split
  · exact does_next .refl
  · exact does_next (((arriveAt_deeds s _).trans (onCfg_deeds _ _)).trans (offerBackground_deeds _ _))

/-- The condition under which the consumers of a computation act: in RUN, unless the computation is one outside it. -/
theorem poseConsumers_deeds (idle : Bool) : ∀ thread ∈ poseConsumers, ∀ event ∈ thread, ∀ t : State, (idle = true ∨ t.inRun = true) →
    Deeds entry exit idle t (event t) ∧ (idle = true ∨ (event t).inRun = true) := by
  simp only [poseConsumers, List.mem_cons, List.not_mem_nil, or_false, forall_eq_or_imp, forall_eq]
  exact ⟨fun t h => ⟨(evaluateLimits_deeds t _ h).trans (offer_deeds _ _ _ _ _),
      h.imp_right (inRun_of_touches ((evaluateLimits_touches t _).trans ((offer_touches _ _ _ _ _).mono rfl)))⟩,
    fun t h => ⟨rebuild_deeds t, h.imp_right (inRun_of_touches (rebuild_touches t))⟩,
    fun t h => ⟨digStep_deeds t, h.imp_right (inRun_of_touches (digStep_touches t))⟩,
    fun t h => ⟨offer_deeds t _ _ _ _, h.imp_right (inRun_of_touches (offer_touches t _ _ _ _))⟩⟩

theorem posePeriodExpiry_does : Does entry exit (!s.inRun) s (execPosePeriodExpiry s) := by
  unfold execPosePeriodExpiry
  split
  · exact does_next .refl
  · rename_i d _
    have run : (s.arriveAt d).inRun = s.inRun := by rw [State.inRun, arriveAt_cfg, State.inRun]
    refine does_next (((arriveAt_deeds s d).tail (.computed _ (some (after d 20)))).trans ?_)
    refine anyOrder_deeds (fun t => (!s.inRun) = true ∨ t.inRun = true) (fun _ _ h => h) _ _ (poseConsumers_deeds _) ?_
    by_cases h : s.inRun = true
    · exact .inr (run.trans h)
    · exact .inl (by simpa using h)

theorem streamFrameArrival_does : Does entry exit idle s (execStreamFrameArrival s) := by
  unfold execStreamFrameArrival
  split
  · exact does_next .refl
  · refine does_next ?_
    split
    · rename_i e found
      exact reach_ite ((takeFrame_deeds s).trans (arrive_deeds _ _ _ (List.mem_of_find?_eq_some found))) (takeFrame_deeds s)
    · exact takeFrame_deeds s

/-- A timer of an entry keeps the entry's mailbox. -/
theorem entryTimer_deeds {n : Nat} {e : Stream} (found : s.entry n = some e) (d : Ms) (e' : Stream) (h : e'.mailbox = e.mailbox) :
    Deeds entry exit idle s ((s.arriveAt d).changeEntry e e' false) :=
  (arriveAt_deeds s d).trans (changeEntry_deeds _ _ _ _ (.inr ⟨e, by
    rw [arriveAt_streams]; exact List.mem_of_find?_eq_some found, h.symm⟩))

theorem lateTimerExpiry_does (n : Nat) : Does entry exit idle s (execLateTimerExpiry n s) := by
  unfold execLateTimerExpiry
  split
  · rename_i e found
    exact does_next (reach_ite (entryTimer_deeds found _ (turnLate e) rfl) .refl)
  · exact does_next .refl

theorem staleTimerExpiry_does (n : Nat) : Does entry exit idle s (execStaleTimerExpiry n s) := by
  unfold execStaleTimerExpiry
  split
  · rename_i e found
    exact does_next (reach_ite (entryTimer_deeds found _ (turnStale e) rfl) .refl)
  · exact does_next .refl

theorem recoveryWindowExpiry_does (n : Nat) : Does entry exit idle s (execRecoveryWindowExpiry n s) := by
  unfold execRecoveryWindowExpiry
  split
  · rename_i e found
    exact does_next (reach_ite (entryTimer_deeds found _ (turnStaleAgain e) rfl) .refl)
  · exact does_next .refl

theorem absenceWatchExpiry_does (n : Nat) : Does entry exit idle s (execAbsenceWatchExpiry n s) := by
  unfold execAbsenceWatchExpiry
  split
  · rename_i e found
    refine does_next ?_
    split
    · exact reach_ite (entryTimer_deeds found _ (turnStale e) rfl) .refl
    · exact .refl
  · exact does_next .refl

/-! ## Setting items and queries -/

theorem limitItem_does (n : Nat) {d : State → Int → LimitDecision} (p : Limit → Bool)
    (v : LimitSet → Option Int × Option Int × Option Int) (h : d ∈ limitDecisions) :
    Does entry exit idle s (.next (s.limitItem n d p v)) := does_next (limitItem_deeds s n p v h)

theorem query_does (o : RxOwner) (answer : RxFrame → State → State) (h : ∀ f t, Deeds entry exit idle t (answer f t)) :
    Does entry exit idle s (match s.headFor o with
      | none => .next s
      | some f => .next (if s.takeFrame.inRun then answer f s.takeFrame else s.takeFrame)) := by
  split
  · exact does_next .refl
  · rename_i f _
    exact does_next (reach_ite ((takeFrame_deeds s).trans (h f _)) (takeFrame_deeds s))

theorem workMode_does : Does entry exit idle s (execWorkMode s) := by
  unfold execWorkMode
  split
  · exact does_next .refl
  · refine does_next (((takeItem_deeds s).trans ?_).trans (respond_deeds _ _ _ _ _ _))
    exact reach_ite .refl ((eco_deeds _ _).trans ((reformTarget_deeds _).trans (rebuild_deeds _)))

theorem autoIdleEnable_does : Does entry exit idle s (execAutoIdleEnable s) := by
  unfold execAutoIdleEnable
  split
  · exact does_next .refl
  · refine does_next (((takeItem_deeds s).trans ?_).trans (respond_deeds _ _ _ _ _ _))
    exact reach_ite .refl ((eco_deeds _ _).trans (permitEvent_deeds _))

/-- A delay that an item gives is the held one or one of 4..30 (R117). -/
theorem decideDelay_range (run : Bool) (held : Nat) (v : Int) :
    (decideDelay run held v).2 = held ∨ 4 ≤ (decideDelay run held v).2 ∧ (decideDelay run held v).2 ≤ 30 := by
  unfold decideDelay
  split
  · exact .inl rfl
  · refine .inr ?_
    unfold clampInt
    dsimp only
    split
    · decide
    · split
      · decide
      · omega

theorem changeDelay_deeds (s : State) (n : Nat) (h : n = s.eco.delay ∨ 4 ≤ n ∧ n ≤ 30) :
    Deeds entry exit idle s (s.changeDelay n) := by
  unfold State.changeDelay
  dsimp only
  have set : Deeds entry exit idle s (s.onEco fun e => { e with delay := n }) := eco_deeds s _ ⟨h, .inl rfl, .inl rfl⟩
  exact reach_ite .refl (reach_ite (reach_ite (set.trans (enterEco_deeds _ _)) (set.trans (eco_deeds _ _))) set)

theorem autoIdleDelay_does : Does entry exit idle s (execAutoIdleDelay s) := by
  unfold execAutoIdleDelay
  split
  · exact does_next .refl
  · refine does_next (((takeItem_deeds s).trans (changeDelay_deeds _ _ ?_)).trans (respond_deeds _ _ _ _ _ _))
    rw [(takeItem_touches s).eco rfl]
    exact decideDelay_range _ _ _

theorem decideProfile_range (run : Bool) (held : Nat) (v : Int) :
    (decideProfile run held v).2 = held ∨ (decideProfile run held v).2 ≤ 3 := by
  unfold decideProfile
  split
  · exact .inl rfl
  · split
    · exact .inl rfl
    · exact .inr (by dsimp only; omega)

theorem setProfile_does : Does entry exit idle s (execSetProfile s) := by
  unfold execSetProfile
  split
  · exact does_next .refl
  · rename_i i _
    have rule : s.takeItem.rule = s.rule := (takeItem_touches s).rule rfl
    have set : Deeds entry exit idle s (s.takeItem.onRule fun u =>
        { u with profile := (decideProfile s.inRun s.rule.profile i.value).2 }) := by
      refine (takeItem_deeds s).tail (.rule _ _ ⟨.inl ⟨rfl, rfl⟩, .inl rfl, ?_⟩)
      rw [rule]
      exact decideProfile_range _ _ _
    exact does_next (ReflTransGen.trans (reach_ite set (set.trans (rebuild_deeds _))) (respond_deeds _ _ _ _ _ _))

theorem serviceDone_does : Does entry exit idle s (execServiceDone s) := by
  unfold execServiceDone
  split
  · exact does_next .refl
  · exact does_next (ReflTransGen.trans (reach_ite ((takeItem_deeds s).trans (doService_deeds _ _)) (takeItem_deeds s))
      (respond_deeds _ _ _ _ _ _))

theorem noticeInhibit_does : Does entry exit idle s (execNoticeInhibit s) := by
  unfold execNoticeInhibit
  split
  · exact does_next .refl
  · exact does_next (((takeItem_deeds s).trans (aside_deeds (setConditions_touches _ _))).trans (respond_deeds _ _ _ _ _ _))

theorem acknowledge_deeds (s : State) (v : Int) : Deeds entry exit idle s (s.acknowledge v) := by
  unfold State.acknowledge
  split
  · rename_i r _
    dsimp only
    have silenced : Deeds entry exit idle s ((s.onNtc fun n => { n with queue := withoutId r.id n.queue }).withdrawSound r) :=
      aside_deeds ((ntc_touches s _).trans (withdrawSound_touches _ _))
    exact ReflTransGen.trans (reach_ite (silenced.trans (svc_deeds _ _)) silenced) (aside_deeds (pass_touches _))
  · exact aside_deeds (onNtc_touches s _)

theorem noticeAck_does : Does entry exit idle s (execNoticeAck s) := by
  unfold execNoticeAck
  split
  · exact does_next .refl
  · exact does_next (reach_ite ((takeItem_deeds s).trans (acknowledge_deeds _ _)) (takeItem_deeds s))

theorem silence_does : Does entry exit idle s (execSilence s) := by
  unfold execSilence
  split
  · exact does_next .refl
  · exact does_next (reach_ite (((takeItem_deeds s).trans (aside_deeds (sound_touches _ _))).trans (respond_deeds _ _ _ _ _ _))
      ((takeItem_deeds s).trans (respond_deeds _ _ _ _ _ _)))

theorem settingItemUnknown_does : Does entry exit idle s (execSettingItemUnknown s) := by
  unfold execSettingItemUnknown
  split
  · exact does_next .refl
  · exact does_next (reach_ite .refl ((takeItem_deeds s).trans (respond_deeds _ _ _ _ _ _)))

/-! ## HOLD, LIM and VCH -/

theorem holdRequest_does : Does entry exit idle s (execHoldRequest s) := by
  unfold execHoldRequest
  split
  · exact does_next .refl
  · exact does_next ((takeFrame_deeds s).trans (takeHold_deeds _ _))

theorem limitStatusTimerExpiry_does : Does entry exit idle s (execLimitStatusTimerExpiry s) := by
  unfold execLimitStatusTimerExpiry
  split
  · exact does_next .refl
  · exact does_next (((arriveAt_deeds s _).tail (.limTimer _ _)).trans (offer_deeds _ _ _ _ _))

theorem quantumTimerExpiry_does : Does entry exit idle s (execQuantumTimerExpiry s) := by
  unfold execQuantumTimerExpiry
  split
  · exact does_next .refl
  · exact does_next ((arriveAt_deeds s _).trans (changeHold_deeds _ _ (.counted _)))

theorem holdEntryExpiry_does (who : Option Byte) : Does entry exit idle s (execHoldEntryExpiry who s) := by
  unfold execHoldEntryExpiry
  split
  · exact does_next .refl
  · exact does_next (reach_ite ((arriveAt_deeds s _).trans (changeHold_deeds _ _ (.removed who))) .refl)

theorem periodStart_does (c : Channel) : Does entry exit idle s (execPeriodStart c s) :=
  does_next (reach_ite (.single (.period s c)) (.head (.period s c) (offerStatusChange_deeds _)))

theorem dutyEnd_does (c : Channel) : Does entry exit idle s (execDutyEnd c s) := by
  unfold execDutyEnd
  dsimp only
  split
  · rename_i h
    rw [Bool.and_eq_true] at h
    exact does_next (.single (.duty s c h.1 h.2))
  · exact does_next .refl

/-! ## ECO, SVC, NTC and SND -/

/-- A timer of ECO that brings an economy state. -/
theorem ecoTimer_does {t : Option Ms} (st : EcoState) : Does entry exit idle s (match t with
    | none => .next s
    | some d => .next ((s.arriveAt d).enterEco st)) := by
  split
  · exact does_next .refl
  · exact does_next ((arriveAt_deeds s _).trans (enterEco_deeds _ _))

theorem recoveryTimerExpiry_does : Does entry exit idle s (execRecoveryTimerExpiry s) := by
  unfold execRecoveryTimerExpiry
  split
  · exact does_next .refl
  · exact does_next (((arriveAt_deeds s _).trans (raiseNotice_deeds _ _ _ _)).trans (enterWork_deeds _))

theorem offerSpeed_deeds (s : State) : Deeds entry exit idle s s.offerSpeed := offer_deeds s _ _ _ _

theorem requestTimerExpiry_does : Does entry exit idle s (execRequestTimerExpiry s) := by
  unfold execRequestTimerExpiry
  split
  · exact does_next .refl
  · rename_i d _
    have restarted : Deeds entry exit idle s ((s.arriveAt d).onEco fun e => { e with requestTimer := some (after d 100) }) :=
      (arriveAt_deeds s d).trans (eco_deeds _ _)
    have sped := restarted.trans (reach_ite (p := ((s.arriveAt d).onEco fun e =>
      { e with requestTimer := some (after d 100) }).eco.state.requesting = true) (offerSpeed_deeds _) .refl)
    exact does_next (reach_ite sped (sped.trans (offer_deeds _ _ _ _ _)))

theorem ecoSecondExpiry_does : Does entry exit idle s (execEcoSecondExpiry s) := by
  unfold execEcoSecondExpiry
  split
  · exact does_next .refl
  · refine does_next ((arriveAt_deeds s _).trans (eco_deeds _ _ ?_))
    unfold countEcoSecond
    split <;> exact ⟨.inl rfl, .inl rfl, .inl rfl⟩

theorem economyReportTimerExpiry_does : Does entry exit idle s (execEconomyReportTimerExpiry s) := by
  unfold execEconomyReportTimerExpiry
  split
  · exact does_next .refl
  · exact does_next (((arriveAt_deeds s _).trans (eco_deeds _ _)).trans (offerBackground_deeds _ _))

theorem svcSecondExpiry_does : Does entry exit idle s (execSvcSecondExpiry s) := by
  unfold execSvcSecondExpiry
  split
  · exact does_next .refl
  · exact does_next (((arriveAt_deeds s _).trans (svc_deeds _ _)).trans (svcSecond_deeds _))

theorem reremindExpiry_does (n : Nat) : Does entry exit idle s (execReremindExpiry n s) := by
  unfold execReremindExpiry
  split
  · exact does_next (reach_ite (((arriveAt_deeds s _).trans (svc_deeds _ _)).trans (remindAgain_deeds _ _)) .refl)
  · exact does_next .refl

theorem serviceSummaryTimerExpiry_does : Does entry exit idle s (execServiceSummaryTimerExpiry s) := by
  unfold execServiceSummaryTimerExpiry
  split
  · exact does_next .refl
  · exact does_next (((arriveAt_deeds s _).trans (svc_deeds _ _)).trans (offerBackground_deeds _ _))

theorem recordWriteDone_does (answered : Bool) : Does entry exit idle s (execRecordWriteDone answered s) := by
  unfold execRecordWriteDone
  split
  · exact does_next .refl
  · exact does_next ((endWrite_deeds s _).trans (storeEnd_deeds _))

theorem recordWriteTimeout_does : Does entry exit idle s (execRecordWriteTimeout s) := by
  unfold execRecordWriteTimeout
  split
  · exact does_next .refl
  · exact does_next (((arriveAt_deeds s _).trans (endWrite_deeds _ _)).trans (storeEnd_deeds _))

theorem settleTimerExpiry_does : Does entry exit idle s (execSettleTimerExpiry s) := by
  unfold execSettleTimerExpiry
  split
  · exact does_next .refl
  · exact does_next ((arriveAt_deeds s _).trans (aside_deeds (setConditions_touches _ _)))

theorem escalationTimerExpiry_does (id : Nat) : Does entry exit idle s (execEscalationTimerExpiry id s) := by
  unfold execEscalationTimerExpiry
  split
  · exact does_next .refl
  · split
    · exact does_next .refl
    · exact does_next (((arriveAt_deeds s _).trans (aside_deeds (pend_touches _ _))).trans (aside_deeds (pass_touches _)))

theorem noticeSummaryTimerExpiry_does : Does entry exit idle s (execNoticeSummaryTimerExpiry s) := by
  unfold execNoticeSummaryTimerExpiry
  split
  · exact does_next .refl
  · exact does_next (((arriveAt_deeds s _).trans (aside_deeds (onNtc_touches _ _))).trans (offerBackground_deeds _ _))

theorem oneShotEnd_does : Does entry exit idle s (execOneShotEnd s) := by
  unfold execOneShotEnd
  split
  · exact does_next ((arriveAt_deeds s _).trans (aside_deeds (sound_touches _ _)))
  · exact does_next .refl

theorem cadencePhaseExpiry_does : Does entry exit idle s (execCadencePhaseExpiry s) := by
  unfold execCadencePhaseExpiry
  split
  · exact does_next ((arriveAt_deeds s _).trans (aside_deeds (sound_touches _ _)))
  · exact does_next .refl

theorem silenceTimerExpiry_does : Does entry exit idle s (execSilenceTimerExpiry s) := by
  unfold execSilenceTimerExpiry
  split
  · exact does_next .refl
  · exact does_next ((arriveAt_deeds s _).trans (aside_deeds (sound_touches _ _)))

/-! ## LINK -/

theorem onLink_deeds (s : State) (f : LinkUnit → LinkUnit) : Deeds entry exit idle s (s.onLink f) := aside_deeds (onLink_touches s f)

theorem attempt_deeds (s : State) : Deeds entry exit idle s s.attempt := by
  have selected : Deeds entry exit idle s s.select :=
    reach_ite .refl (((link_deeds s _).trans (reports_deeds _ _)).trans (onLink_deeds _ _))
  exact selected.trans (onLink_deeds _ _)

theorem judgeCurrent_deeds (s : State) : Deeds entry exit idle s s.judgeCurrent := (link_deeds s _).trans (report_deeds _ _)

theorem transmitSuccess_does : Does entry exit idle s (execTransmitSuccess s) := by
  refine does_next (reach_ite ?_ .refl)
  have sent : Deeds entry exit idle s ({ s with link := (attemptSucceeded s.link).1 }.report (attemptSucceeded s.link).2) :=
    (link_deeds s _).trans (report_deeds _ _)
  exact reach_ite sent (sent.trans (clearNotice_deeds _ _))

theorem arbitrationLost_does : Does entry exit idle s (execArbitrationLost s) :=
  does_next (reach_ite ((onLink_deeds s _).trans (judgeCurrent_deeds _)) .refl)

theorem transmitFailure_does : Does entry exit idle s (execTransmitFailure s) := by
  refine does_next (reach_ite ?_ .refl)
  have counted : Deeds entry exit idle s (s.onLink fun l => countFailure s.now (attemptOver l)) := onLink_deeds s _
  exact ReflTransGen.trans (reach_ite (counted.trans (raiseNotice_deeds _ _ _ _)) counted) (judgeCurrent_deeds _)

theorem silentHoldExpiry_does : Does entry exit idle s (execSilentHoldExpiry s) := by
  unfold execSilentHoldExpiry
  split
  · exact does_next .refl
  · rename_i d _
    have judged : Deeds entry exit idle s ((s.arriveAt d).onLink fun l => { l with silentHold := none, probe := true }).judgeCurrent :=
      ((arriveAt_deeds s d).trans (onLink_deeds _ _)).trans (judgeCurrent_deeds _)
    exact does_next (reach_ite (judged.trans (attempt_deeds _)) judged)

/-! ## All commands -/

/-- Every command ends in a next state that is made of deeds. -/
theorem exec_does (c : Instr) (s : State) : Does (startsRun c) (leavesRun c) (computesIdle s c) s (exec c s) := by
  cases c with
  | powerOnStart => exact powerOnStart_does
  | keyDebounceExpiry => exact keyDebounceExpiry_does
  | imageReadDone r => exact imageReadDone_does r
  | recordReadDone b => exact recordReadDone_does b
  | joinTimerExpiry => exact joinTimerExpiry_does
  | nodeStatusTimerExpiry => exact nodeStatusTimerExpiry_does
  | posePeriodExpiry => exact posePeriodExpiry_does
  | frameReceived f => exact does_next (reach_ite (aside_deeds (receive_touches s _)) .refl)
  | streamFrameArrival => exact streamFrameArrival_does
  | lateTimerExpiry n => exact lateTimerExpiry_does n
  | staleTimerExpiry n => exact staleTimerExpiry_does n
  | recoveryWindowExpiry n => exact recoveryWindowExpiry_does n
  | absenceWatchExpiry n => exact absenceWatchExpiry_does n
  | setFloor | setFloorAtTip | setGradeSlope | clearFloor | setCeiling | clearCeiling | setReach | clearReach
  | setSlewLeft | setSlewRight | setSlewLeftHere | setSlewRightHere | clearSlew =>
    exact limitItem_does _ _ _ (by simp [limitDecisions])
  | workMode => exact workMode_does
  | autoIdleEnable => exact autoIdleEnable_does
  | autoIdleDelay => exact autoIdleDelay_does
  | setProfile => exact setProfile_does
  | serviceDone => exact serviceDone_does
  | noticeInhibit => exact noticeInhibit_does
  | noticeAck => exact noticeAck_does
  | silence => exact silence_does
  | settingItemUnknown => exact settingItemUnknown_does
  | holdRequest => exact holdRequest_does
  | streamStats =>
    exact query_does .streamStats (fun f t => t.beginReply .stm f.source none (t.streams.map (·.number)))
      fun f t => beginReply_deeds _ _ _ _ _
  | ruleStats =>
    exact query_does .ruleStats
      (fun f t => t.beginReply .rule f.source (some (ruleHeader t)) (t.img.rules.map (·.index) ++ [32]))
      fun f t => beginReply_deeds _ _ _ _ _
  | ruleStatsClear =>
    exact query_does .ruleStatsClear
      (fun f t => (if keyEngineRunning (t.rule.key.getD 0) then t
        else t.onRule fun u => { u with hits := List.replicate 33 0 }).offerBackground
          ((if keyEngineRunning (t.rule.key.getD 0) then t
            else t.onRule fun u => { u with hits := List.replicate 33 0 }).frame .statsReply f.source
              (replyData 4 [byteOf (bit (keyEngineRunning (t.rule.key.getD 0)))])))
      fun f t => (reach_ite .refl (.single (.rule t _ ⟨.inl ⟨rfl, rfl⟩, .inr (.inl rfl), .inl rfl⟩))).trans
        (offerBackground_deeds _ _)
  | itemTable =>
    exact query_does .itemTable (fun f t => t.beginReply .svc f.source none (t.svc.items.map (·.config.number)))
      fun f t => beginReply_deeds _ _ _ _ _
  | limitStatusTimerExpiry => exact limitStatusTimerExpiry_does
  | quantumTimerExpiry => exact quantumTimerExpiry_does
  | holdEntryExpiry who => exact holdEntryExpiry_does who
  | periodStart c => exact periodStart_does c
  | dutyEnd c => exact dutyEnd_does c
  | idleDelayExpiry => exact ecoTimer_does .idleLow
  | recoveryTimerExpiry => exact recoveryTimerExpiry_does
  | yieldTimerExpiry => exact ecoTimer_does .yielded
  | requestTimerExpiry => exact requestTimerExpiry_does
  | ecoSecondExpiry => exact ecoSecondExpiry_does
  | economyReportTimerExpiry => exact economyReportTimerExpiry_does
  | svcSecondExpiry => exact svcSecondExpiry_does
  | reremindExpiry n => exact reremindExpiry_does n
  | serviceSummaryTimerExpiry => exact serviceSummaryTimerExpiry_does
  | recordWriteDone answered => exact recordWriteDone_does answered
  | recordWriteTimeout => exact recordWriteTimeout_does
  | settleTimerExpiry => exact settleTimerExpiry_does
  | escalationTimerExpiry id => exact escalationTimerExpiry_does id
  | noticeSummaryTimerExpiry => exact noticeSummaryTimerExpiry_does
  | oneShotEnd => exact oneShotEnd_does
  | cadencePhaseExpiry => exact cadencePhaseExpiry_does
  | silenceTimerExpiry => exact silenceTimerExpiry_does
  | transmitAttemptStart => exact does_next (reach_ite (attempt_deeds s) .refl)
  | transmitSuccess => exact transmitSuccess_does
  | arbitrationLost => exact arbitrationLost_does
  | transmitFailure => exact transmitFailure_does
  | silentHoldExpiry => exact silentHoldExpiry_does
  | keyInputChange level => exact does_next (reach_ite .refl (onCfg_deeds s _))

/-- The next state of a command is made of deeds. -/
theorem exec_deeds {c : Instr} {s t : State} (h : exec c s = .next t) : Deeds (startsRun c) (leavesRun c) (computesIdle s c) s t := by
  obtain ⟨u, hu, deeds⟩ := exec_does c s
  rw [hu] at h
  cases h
  exact deeds

/-- A law that every deed keeps is kept by every command. -/
theorem deeds_keep {P : State → Prop} (keeps : ∀ {s t : State}, Deed entry exit idle s t → P s → P t) (h : Deeds entry exit idle s t)
    (hs : P s) : P t := by
  induction h with
  | refl => exact hs
  | tail _ deed ih => exact keeps deed ih

end Sys2Proof.Laws
end

section
/-! The laws of the valve outputs, of the hold table and of the counters: each is kept by every deed, and by a microsecond. -/

namespace Sys2Proof.Laws

open Sys2Proof.Machine Relation

-- Many short proofs at once would each hold a thread of the checking process.
set_option Elab.async false

variable {entry exit idle : Bool} {s t : State}

/-! ## The valve outputs -/

/-- The law of the valve outputs. -/
def ValvesSafe (s : State) : Prop := ValvesRest s ∧ PinsFollowDuty s

theorem valvesSafe_same (node : t.cfg.node = s.cfg.node) (image : t.image = s.image) (vch : t.vch = s.vch)
    (h : ValvesSafe s) : ValvesSafe t := by
  obtain ⟨rest, pins⟩ := h
  have img : t.img = s.img := by rw [State.img, image, State.img]
  exact ⟨fun n c => by rw [vch]; exact rest (node ▸ n) c, fun c => by rw [vch, img]; exact pins c⟩

/-- A state whose channels are all at rest is safe. -/
theorem valvesSafe_of_rest (h : ∀ c, ChannelAtRest (t.vch.get c)) : ValvesSafe t := by
  refine ⟨fun _ => h, fun c pin => ?_⟩
  obtain ⟨-, -, -, -, -, -, -, -, -, low⟩ := h c
  rw [low] at pin
  cases pin

@[simp] theorem emptyChannels_get (im : Image) (c : Channel) :
    (emptyChannels im).get c = ChannelRecord.reset (if (im.channels.get c).used then .pass else .unused) :=
  channel_get_tabulate _ c

theorem emptyChannels_rest (im : Image) (c : Channel) : ChannelAtRest ((emptyChannels im).get c) := by
  rw [emptyChannels_get]
  exact ⟨rfl, rfl, rfl, rfl, rfl, rfl, rfl, rfl, rfl, rfl⟩

/-- A change of used channels in RUN is safe where each pin that it leaves high is within its duty. -/
theorem valvesSafe_inRun (run : t.cfg.node = .run) (h : PinsFollowDuty t) : ValvesSafe t := ⟨fun n => absurd run n, h⟩

theorem beginPeriod_get (s : State) (c c' : Channel) : (s.beginPeriod c).vch.get c' =
    if s.inRun = true ∧ (s.img.channels.get c).used = true ∧ c' = c then startPeriod (s.img.channels.get c) (s.vch.get c')
    else s.vch.get c' := by
  unfold State.beginPeriod
  dsimp only
  split
  · rename_i h
    rw [Bool.and_eq_true] at h
    simp only [State.onChannel, onVch_vch, channel_get_set, h.1, h.2, true_and]
    split
    · rename_i e; rw [e]
    · rfl
  · rename_i h
    rw [if_neg fun k => h (by rw [k.1, k.2.1]; rfl)]

theorem beginPeriod_safe (c : Channel) (h : ValvesSafe s) : ValvesSafe (s.beginPeriod c) := by
  obtain ⟨rest, pins⟩ := h
  have touched := beginPeriod_touches s c
  have img : (s.beginPeriod c).img = s.img := by rw [State.img, touched.image rfl, State.img]
  refine ⟨fun n c' => ?_, fun c' => ?_⟩
  · rw [touched.cfg rfl] at n
    rw [beginPeriod_get, if_neg fun k => n ((inRun_iff s).1 k.1)]
    exact rest n c'
  · rw [beginPeriod_get, img]
    split
    · rename_i k
      obtain ⟨-, used, rfl⟩ := k
      exact fun high => ⟨used, of_decide_eq_true high, Nat.zero_le _⟩
    · exact pins c'

theorem endDuty_safe {c : Channel} (run : s.inRun = true) (h : ValvesSafe s) :
    ValvesSafe (s.onChannel c (endDuty (s.img.channels.get c))) := by
  refine valvesSafe_inRun ((inRun_iff s).1 run) fun c' high => ?_
  simp only [State.onChannel, onVch_vch, channel_get_set] at high ⊢
  split at high
  · rename_i e
    rw [if_pos e]
    subst e
    unfold endDuty at high ⊢
    split at high
    · cases high
    · rename_i keeps
      rw [if_neg keeps]
      exact h.2 c' high
  · rename_i other
    rw [if_neg other]
    exact h.2 c' high

theorem demands_safe {f : Channel → ChannelRecord → ChannelRecord}
    (hf : ∀ c r, f c r = { r with
      limit := (f c r).limit, rule := (f c r).rule, hold := (f c r).hold, fail := (f c r).fail }) (h : ValvesSafe s) :
    ValvesSafe (s.writeDemands f) := by
  have touched := writeDemands_touches s f
  have img : (s.writeDemands f).img = s.img := by rw [State.img, touched.image rfl, State.img]
  by_cases run : s.inRun = true
  · refine valvesSafe_inRun (by rw [touched.cfg rfl]; exact (inRun_iff s).1 run) fun c => ?_
    rw [writeDemands_get, if_pos run, hf, img]
    exact h.2 c
  · have same : ∀ c, (s.writeDemands f).vch.get c = s.vch.get c := fun c => by rw [writeDemands_get, if_neg run]
    refine ⟨fun n c => ?_, fun c => ?_⟩
    · rw [same]; exact h.1 (by rw [touched.cfg rfl] at n; exact n) c
    · rw [same, img]; exact h.2 c

theorem deed_valves (deed : Deed entry exit idle s t) (h : ValvesSafe s) : ValvesSafe t := by
  cases deed with
  | aside touched => exact valvesSafe_same (by rw [touched.cfg rfl]) (touched.image rfl) (touched.vch rfl) h
  | cfg c same => exact valvesSafe_same same rfl rfl h
  | away c out => exact ⟨fun _ => h.1 out, h.2⟩
  | demands f hf => exact demands_safe hf h
  | period c => exact beginPeriod_safe c h
  | duty c run => exact endDuty_safe run h
  | leave | accept | restart => exact valvesSafe_of_rest fun c => emptyChannels_rest _ c
  | startRun => exact valvesSafe_inRun rfl h.2
  | pose | computed | streams | limTimer | restLim | records | setting | rule | hold | holdTimer | eco | svc | second | record =>
    exact h

/-- Nothing due on a used channel in RUN: its duty has not ended (R103). -/
theorem dutyOver_of_due (h : s.due = []) (run : s.inRun = true) {c : Channel} (used : (s.img.channels.get c).used = true) :
    dutyOver (s.img.channels.get c) (s.vch.get c) = false := by
  by_contra over_
  have over_ : dutyOver (s.img.channels.get c) (s.vch.get c) = true := by simpa using over_
  have mem : Instr.dutyEnd c ∈ s.due := by
    unfold State.due State.dueChannels
    refine List.mem_append_left _ (List.mem_append_right _ (List.mem_flatMap.2 ⟨c, channel_mem_all c, ?_⟩))
    dsimp only
    rw [run, used, over_]
    simp
  rw [h] at mem
  cases mem

/-- One microsecond takes no counter past a duty that has not ended (R100, R103). -/
theorem tickChannel_within {cfg : ChannelConfig} {r : ChannelRecord} (not : dutyOver cfg r = false)
    (h : r.pin = true → 0 < r.duty ∧ r.counter ≤ r.duty) :
    (tickChannel cfg r).pin = true → 0 < (tickChannel cfg r).duty ∧ (tickChannel cfg r).counter ≤ (tickChannel cfg r).duty := by
  unfold tickChannel
  split
  · exact h
  · split
    · rename_i room
      intro (pin : r.pin = true)
      obtain ⟨low, high⟩ := h pin
      simp only [dutyOver, pin, Bool.true_and, Bool.and_eq_false_iff, decide_eq_false_iff_not] at not
      exact ⟨low, by dsimp only; omega⟩
    · exact h

theorem tick_valves (h : ValvesSafe s) (due : s.due = []) : ValvesSafe s.tick := by
  have get : ∀ c, s.tick.vch.get c = if s.inRun && (s.img.channels.get c).used
      then tickChannel (s.img.channels.get c) (s.vch.get c) else s.vch.get c := fun c => channel_get_tabulate _ c
  refine ⟨fun n c => ?_, fun c => ?_⟩
  · have out : s.inRun = false := by
      rw [← Bool.not_eq_true, inRun_iff]
      exact n
    rw [get, out]
    exact h.1 n c
  · show _ → (s.img.channels.get c).used = true ∧ _
    rw [get]
    split
    · rename_i k
      rw [Bool.and_eq_true] at k
      exact fun high => ⟨k.2, tickChannel_within (dutyOver_of_due due k.1 k.2) (fun pin => (h.2 c pin).2) high⟩
    · exact h.2 c

/-- Settles O51: an output rises at a period start within its new duty, and the clock stops for DUTY_END before it leaves the duty. -/
theorem stepKeepsValvesSafe : Obligations.StepKeepsValvesSafe := by
  intro s t rest pins h
  exact step_keeps (P := ValvesSafe) (fun _ _ _ h => h) (fun _ h due => tick_valves h due)
    (fun c s t hs h => deeds_keep deed_valves (exec_deeds h) hs) ⟨rest, pins⟩ h

/-! ## The hold table -/

/-- The bounds of a table under a Tmax (R82, R83). -/
structure TableBounded (tmax : Nat) (h : HoldTable) : Prop where
  room : h.entries.length ≤ 8
  once : (h.entries.map (·.requester)).Nodup
  entries : ∀ e ∈ h.entries, 1 ≤ e.remaining ∧ e.remaining ≤ tmax ∧ e.requester ≠ 0xFE ∧ e.requester ≠ 0xFF
  overflow : ∀ o ∈ h.overflow, 1 ≤ o.remaining ∧ o.remaining ≤ tmax

theorem holdsBounded_iff (s : State) : HoldsBounded s ↔ TableBounded s.img.holds.tmax s.hold
    ∧ (s.cfg.node ≠ .run → s.hold.entries = [] ∧ s.hold.overflow = none) ∧ ∀ im ∈ s.image, 100 ≤ im.holds.tmax := by
  constructor
  · rintro ⟨room, once, entries, overflow, out, image⟩
    exact ⟨⟨room, once, entries, overflow⟩, out, image⟩
  · rintro ⟨⟨room, once, entries, overflow⟩, out, image⟩
    exact ⟨room, once, entries, overflow, out, image⟩

theorem TableBounded.empty {tmax : Nat} {h : HoldTable} (e : h.entries = []) (o : h.overflow = none) : TableBounded tmax h := by
  refine ⟨?_, ?_, ?_, ?_⟩
  · rw [e]; decide
  · rw [e]; exact List.nodup_nil
  · rw [e]; intro x hx; cases hx
  · rw [o]; intro x hx; cases hx

/-- Fewer entries are bounded too. -/
theorem TableBounded.sub {tmax : Nat} {h : HoldTable} (b : TableBounded tmax h) {es : List HoldEntry} (sub : es.Sublist h.entries) :
    TableBounded tmax { h with entries := es } where
  room := sub.length_le.trans b.room
  once := b.once.sublist (sub.map _)
  entries e he := b.entries e (sub.subset he)
  overflow := b.overflow

theorem TableBounded.removeEntry {tmax : Nat} {h : HoldTable} (b : TableBounded tmax h) (who : Option Byte) :
    TableBounded tmax (removeEntry who h) := by
  cases who with
  | none => exact ⟨b.room, b.once, b.entries, fun _ ho => nomatch ho⟩
  | some a => exact b.sub List.filter_sublist

theorem TableBounded.countDown {tmax : Nat} {h : HoldTable} (b : TableBounded tmax h) (d : Option Ms) :
    TableBounded tmax { countDown h with quantumTimer := d } := by
  have requesters : (h.entries.map fun e => { e with remaining := e.remaining - 1 }).map (·.requester)
      = h.entries.map (·.requester) := by rw [List.map_map]; rfl
  refine ⟨?_, ?_, fun e he => ?_, fun o ho => ?_⟩
  · exact (List.length_filter_le _ _).trans (by rw [List.length_map]; exact b.room)
  · refine List.Nodup.sublist (List.filter_sublist.map _) ?_
    rw [requesters]
    exact b.once
  · obtain ⟨he, left⟩ := List.mem_filter.1 he
    obtain ⟨x, hx, rfl⟩ := List.mem_map.1 he
    obtain ⟨-, high, fe, ff⟩ := b.entries x hx
    exact ⟨of_decide_eq_true left, (Nat.sub_le _ _).trans high, fe, ff⟩
  · obtain ⟨ho, left⟩ := Option.filter_eq_some_iff.1 ho
    obtain ⟨x, hx, rfl⟩ := Option.map_eq_some_iff.1 ho
    exact ⟨of_decide_eq_true left, (Nat.sub_le _ _).trans (b.overflow x hx).2⟩

/-- A hold that is placed keeps the bounds: its time is cut to Tmax, and a merge takes the larger of two times (R86 to R89). -/
theorem TableBounded.decidePlace {cfg : HoldConfig} {h : HoldTable} (b : TableBounded cfg.tmax h) (now : Ms) {r : HoldRequest}
    (fe : r.requester ≠ 0xFE) (ff : r.requester ≠ 0xFF) (time : r.time ≠ 0) (tmax : 1 ≤ cfg.tmax) :
    TableBounded cfg.tmax (decidePlace cfg now h r).table := by
  have low : 1 ≤ min r.time cfg.tmax := by omega
  have high : min r.time cfg.tmax ≤ cfg.tmax := Nat.min_le_right _ _
  unfold Sys2Proof.Machine.decidePlace
  dsimp only
  split
  · have requesters : (h.entries.map fun e => if e.requester = r.requester then
        { e with mask := r.mask &&& cfg.mask, level := r.level, remaining := min r.time cfg.tmax } else e).map (·.requester)
        = h.entries.map (·.requester) := by
      rw [List.map_map]
      exact List.map_congr_left fun e _ => by
        show HoldEntry.requester (if _ then _ else _) = _
        split <;> rfl
    refine ⟨by rw [List.length_map]; exact b.room, by rw [requesters]; exact b.once, fun e he => ?_, b.overflow⟩
    obtain ⟨x, hx, rfl⟩ := List.mem_map.1 he
    obtain ⟨l, u, xe, xf⟩ := b.entries x hx
    split
    · exact ⟨low, high, xe, xf⟩
    · exact ⟨l, u, xe, xf⟩
  · rename_i new
    have absent : ∀ e ∈ h.entries, e.requester ≠ r.requester := by
      simpa [HoldTable.entryOf, List.find?_eq_none] using new
    split
    · rename_i room
      refine ⟨by simpa using room, ?_, fun e he => ?_, b.overflow⟩
      · rw [List.map_append, List.nodup_append]
        refine ⟨b.once, List.nodup_singleton _, fun a ha c hc => ?_⟩
        obtain ⟨e, he, rfl⟩ := List.mem_map.1 ha
        rw [List.map_singleton, List.mem_singleton] at hc
        rw [hc]
        exact absent e he
      · rcases List.mem_append.1 he with he | he
        · exact b.entries e he
        · rw [List.mem_singleton.1 he]
          exact ⟨low, high, fe, ff⟩
    · refine ⟨b.room, b.once, b.entries, fun o ho => ?_⟩
      rw [Option.mem_some_iff] at ho
      subst ho
      unfold mergeOverflow
      split
      · exact ⟨low, high⟩
      · rename_i o held
        obtain ⟨l, u⟩ := b.overflow o held
        exact ⟨le_max_of_le_left l, max_le u high⟩

theorem TableBounded.decideHold {cfg : HoldConfig} {h : HoldTable} (b : TableBounded cfg.tmax h) (now : Ms) {r : HoldRequest}
    (fe : r.requester ≠ 0xFE) (ff : r.requester ≠ 0xFF) (tmax : cfg.mask ≠ 0 → 1 ≤ cfg.tmax) :
    TableBounded cfg.tmax (decideHold cfg now h r).table := by
  unfold Sys2Proof.Machine.decideHold
  split
  · exact b
  · split
    · exact b
    · rename_i mask
      split
      · unfold decideRelease
        split
        · exact b.sub List.filter_sublist
        · exact b
      · rename_i time
        exact b.decidePlace now fe ff time (tmax fun zero => mask (by rw [zero]; simp))

/-- The image that the part holds gives a Tmax; without an image the mask is empty. -/
theorem tmax_of_mask (image : ∀ im ∈ s.image, 100 ≤ im.holds.tmax) (mask : s.img.holds.mask ≠ 0) : 1 ≤ s.img.holds.tmax := by
  cases h : s.image with
  | none => exact absurd (by rw [State.img, h]; rfl) mask
  | some im =>
    have := image im h
    rw [State.img, h]
    exact (show 1 ≤ 100 by decide).trans this

theorem tableMove_bounded {h : HoldTable} (move : TableMove s h) (bounded : HoldsBounded s) : HoldsBounded { s with hold := h } := by
  rw [holdsBounded_iff] at bounded ⊢
  obtain ⟨table, out, image⟩ := bounded
  cases move with
  | decided r run fe ff =>
    exact ⟨table.decideHold _ fe ff (tmax_of_mask image), fun n => absurd ((inRun_iff s).1 run) n, image⟩
  | counted d =>
    refine ⟨table.countDown d, fun n => ?_, image⟩
    obtain ⟨e, o⟩ := out n
    simp [countDown, e, o]
  | removed who =>
    refine ⟨table.removeEntry who, fun n => ?_, image⟩
    obtain ⟨e, o⟩ := out n
    cases who <;> simp [removeEntry, e, o]

theorem rangeImage_tmax (im : Image) : 100 ≤ (rangeImage im).holds.tmax := le_max_left _ _

theorem deed_holds (deed : Deed entry exit idle s t) (h : HoldsBounded s) : HoldsBounded t := by
  cases deed with
  | aside touched =>
    have img : t.img = s.img := by rw [State.img, touched.image rfl, State.img]
    unfold HoldsBounded
    rw [touched.hold rfl, touched.cfg rfl, touched.image rfl, img]
    exact h
  | cfg c same =>
    unfold HoldsBounded
    rw [show ({ s with cfg := c } : State).cfg.node = s.cfg.node from same]
    exact h
  | away c out =>
    rw [holdsBounded_iff] at h ⊢
    exact ⟨h.1, fun _ => h.2.1 out, h.2.2⟩
  | hold table move => exact tableMove_bounded move h
  | demands f =>
    have touched := writeDemands_touches s f
    have img : (s.writeDemands f).img = s.img := by rw [State.img, touched.image rfl, State.img]
    unfold HoldsBounded
    rw [touched.hold rfl, touched.cfg rfl, touched.image rfl, img]
    exact h
  | period c =>
    have touched := beginPeriod_touches s c
    have img : (s.beginPeriod c).img = s.img := by rw [State.img, touched.image rfl, State.img]
    unfold HoldsBounded
    rw [touched.hold rfl, touched.cfg rfl, touched.image rfl, img]
    exact h
  | leave =>
    rw [holdsBounded_iff] at h ⊢
    exact ⟨.empty rfl rfl, fun _ => ⟨rfl, rfl⟩, h.2.2⟩
  | accept r node =>
    rw [holdsBounded_iff] at h ⊢
    obtain ⟨entries, overflow⟩ := h.2.1 (by rw [node]; decide)
    refine ⟨.empty entries overflow, fun _ => ⟨entries, overflow⟩, fun im him => ?_⟩
    cases him
    exact rangeImage_tmax _
  | restart =>
    rw [holdsBounded_iff]
    exact ⟨.empty rfl rfl, fun _ => ⟨rfl, rfl⟩, fun _ him => nomatch him⟩
  | startRun =>
    rw [holdsBounded_iff] at h ⊢
    exact ⟨h.1, fun n => absurd rfl n, h.2.2⟩
  | pose | computed | streams | limTimer | restLim | records | setting | rule | holdTimer | duty | eco | svc | second | record =>
    exact h

/-- Settles O53: a time is cut to the image's Tmax and the last quantum removes its entry. -/
theorem stepKeepsHoldsBounded : Obligations.StepKeepsHoldsBounded := by
  intro s t hs h
  exact step_keeps (P := HoldsBounded) (fun _ _ _ h => h) (fun _ h _ => h)
    (fun c s t hs h => deeds_keep deed_holds (exec_deeds h) hs) hs h

end Sys2Proof.Laws
end

section
/-! The laws of the counters and of RULE: each is kept by every deed. -/

namespace Sys2Proof.Laws

open Sys2Proof.Machine Relation

-- Many short proofs at once would each hold a thread of the checking process.
set_option Elab.async false

variable {entry exit idle : Bool} {s t : State}

/-! ## What a record gives -/

theorem u16At_lt (data : List Byte) (n : Nat) : u16At data n < 65536 := by
  have high := (byteAt data n).isLt
  have low := (byteAt data (n + 1)).isLt
  unfold u16At
  omega

theorem u32At_lt (data : List Byte) (n : Nat) : u32At data n < 4294967296 := by
  have high := u16At_lt data n
  have low := u16At_lt data (n + 2)
  unfold u32At
  omega

/-- An accepted record holds sound counts (R191). -/
theorem judgeRecord_none {b : List Byte} (h : judgeRecord (some b) = none) :
    b.length = 128 ∧ crcHolds b = true ∧ (readRecord b).engineSeconds ≤ engineLimit
      ∧ 4 * (readRecord b).engineSeconds ≤ (readRecord b).weighted
      ∧ (readRecord b).weighted ≤ 12 * (readRecord b).engineSeconds ∧ (readRecord b).fuelRem ≤ 71999 := by
  unfold judgeRecord at h
  dsimp only at h
  split at h
  · cases h
  · rename_i block
    split at h
    · cases h
    · rename_i seconds
      split at h
      · cases h
      · rename_i band
        split at h
        · cases h
        · rename_i fuel
          rw [not_or, Decidable.not_not, Bool.not_eq_true, Bool.not_eq_false'] at block
          rw [not_or] at band
          exact ⟨block.1, block.2, not_lt.1 seconds, not_lt.1 band.1, not_lt.1 band.2, not_lt.1 fuel⟩

/-- The record as it is handed on: an accepted one as read, or the lost one (R191). -/
theorem recordOf_cases (block : Option (List Byte)) (defaults : SettingsBlock) :
    (∃ b, block = some b ∧ judgeRecord block = none ∧ recordOf block defaults = readRecord b)
      ∨ recordOf block defaults = lostRecord defaults := by
  unfold recordOf
  split
  · rename_i b judged
    exact .inl ⟨b, rfl, judged, rfl⟩
  · exact .inr rfl

/-! ## The counters -/

theorem countsInBand_same (svc : SvcKept s.svc t.svc) (streams : t.streams = s.streams) (h : CountsInBand s) : CountsInBand t := by
  obtain ⟨limit, low, high, cycles, unaccounted, loads⟩ := h
  obtain ⟨seconds, weighted, c, u⟩ := svc
  refine ⟨by rw [seconds]; exact limit, by rw [seconds, weighted]; exact low, by rw [seconds, weighted]; exact high, ?_, ?_,
    by rw [streams]; exact loads⟩
  · exact c.elim (fun e => e ▸ cycles) id
  · exact u.elim (fun e => e ▸ unaccounted) id

theorem mailbox_load (h : ∀ e ∈ s.streams, e.mailbox.load ≤ 100) (r : Role) : (s.mailbox r).load ≤ 100 := by
  unfold State.mailbox State.stream
  cases found : s.streams.find? fun e => e.role == r with
  | none => simp [Mailbox.empty]
  | some e => exact h e (List.mem_of_find?_eq_some found)

/-- A second weighs between four and twelve eighths (R138). -/
theorem weightOf_bounds {load : Nat} (h : load ≤ 100) : 4 ≤ weightOf load ∧ weightOf load ≤ 12 := by
  unfold weightOf
  omega

theorem record_counts {block : Option (List Byte)} {lost : Option RecordCheck} (h : CountsInBand s) :
    CountsInBand (s.takeRecord (recordOf block s.img.defaults) lost) := by
  obtain ⟨b, rfl, judged, e⟩ | e := recordOf_cases block s.img.defaults
  · obtain ⟨-, -, seconds, low, high, -⟩ := judgeRecord_none judged
    rw [e]
    exact ⟨seconds, low, high, Nat.le_of_lt_succ (u32At_lt _ _), Nat.le_of_lt_succ (u32At_lt _ _), h.2.2.2.2.2⟩
  · rw [e]
    exact ⟨Nat.zero_le _, Nat.le_refl _, Nat.le_refl _, Nat.zero_le _, Nat.zero_le _, h.2.2.2.2.2⟩

theorem countsInBand_reset : CountsInBand State.reset :=
  ⟨by decide, by decide, by decide, by decide, by decide, fun _ he => nomatch he⟩

theorem deed_counts (deed : Deed entry exit idle s t) (h : CountsInBand s) : CountsInBand t := by
  cases deed with
  | aside touched => exact countsInBand_same (by rw [touched.svc rfl]; exact .refl _) (touched.streams rfl) h
  | demands f =>
    have touched := writeDemands_touches s f
    exact countsInBand_same (by rw [touched.svc rfl]; exact .refl _) (touched.streams rfl) h
  | period c =>
    have touched := beginPeriod_touches s c
    exact countsInBand_same (by rw [touched.svc rfl]; exact .refl _) (touched.streams rfl) h
  | streams es loads =>
    obtain ⟨limit, low, high, cycles, unaccounted, old⟩ := h
    refine ⟨limit, low, high, cycles, unaccounted, fun e he => ?_⟩
    obtain within | ⟨x, hx, same⟩ := loads e he
    · exact within
    · rw [← same]; exact old x hx
  | svc v kept => exact countsInBand_same kept rfl h
  | second room =>
    obtain ⟨-, low, high, cycles, unaccounted, loads⟩ := h
    obtain ⟨least, most⟩ := weightOf_bounds (mailbox_load loads .engineState)
    exact ⟨room, by simp only [onSvc_svc]; omega, by simp only [onSvc_svc]; omega, cycles, unaccounted, loads⟩
  | record => exact record_counts h
  | restart => exact countsInBand_same (s := State.reset) ⟨rfl, rfl, .inl rfl, .inl rfl⟩ rfl countsInBand_reset
  | cfg | away | pose | computed | limTimer | restLim | records | setting | rule | hold | holdTimer | duty | eco | leave
  | accept | startRun => exact h

theorem fuelInRange_same (eco : EcoKept s.eco t.eco) (h : FuelInRange s) : FuelInRange t := by
  obtain ⟨-, fuel, gap⟩ := eco
  exact ⟨fuel.elim (fun e => e ▸ h.1) id, gap.elim (fun e => e ▸ h.2) id⟩

theorem record_fuel {block : Option (List Byte)} {lost : Option RecordCheck} (h : FuelInRange s) :
    FuelInRange (s.takeRecord (recordOf block s.img.defaults) lost) := by
  obtain ⟨b, rfl, judged, e⟩ | e := recordOf_cases block s.img.defaults
  · obtain ⟨-, -, -, -, -, fuel⟩ := judgeRecord_none judged
    rw [e]
    exact ⟨fuel, h.2⟩
  · rw [e]
    exact ⟨Nat.zero_le _, h.2⟩

theorem fuelInRange_reset : FuelInRange State.reset := ⟨by decide, by decide⟩

theorem deed_fuel (deed : Deed entry exit idle s t) (h : FuelInRange s) : FuelInRange t := by
  cases deed with
  | aside touched => exact fuelInRange_same (by rw [touched.eco rfl]; exact .refl _) h
  | demands f => exact fuelInRange_same (by rw [(writeDemands_touches s f).eco rfl]; exact .refl _) h
  | period c => exact fuelInRange_same (by rw [(beginPeriod_touches s c).eco rfl]; exact .refl _) h
  | eco e kept => exact fuelInRange_same kept h
  | record => exact record_fuel h
  | restart => exact fuelInRange_same (s := State.reset) (.refl _) fuelInRange_reset
  | cfg | away | pose | computed | streams | limTimer | restLim | records | setting | rule | hold | holdTimer | duty | svc
  | second | leave | accept | startRun => exact h

/-- Settles O55: a second adds between four and twelve eighths, and a remainder is what a division leaves. -/
theorem stepKeepsCounts : Obligations.StepKeepsCounts := by
  refine ⟨fun s t hs h => ?_, fun s t hs h => ?_⟩
  · exact step_keeps (P := CountsInBand) (fun _ _ _ h => h) (fun _ h _ => h)
      (fun c s t hs h => deeds_keep deed_counts (exec_deeds h) hs) hs h
  · exact step_keeps (P := FuelInRange) (fun _ _ _ h => h) (fun _ h _ => h)
      (fun c s t hs h => deeds_keep deed_fuel (exec_deeds h) hs) hs h

/-! ## The winner -/

/-- The hit counters are 33 and none exceeds its limit (R74). -/
def HitsBounded (hits : List Nat) : Prop := hits.length = 33 ∧ ∀ n ∈ hits, n ≤ 65535

/-- What holds of RULE between the start of RUN and its first winner too: a held key has its winner, and outside RUN there is neither. -/
structure WinnerFollows (s : State) : Prop where
  selects : ∀ k, s.rule.key = some k → s.rule.winner = some (lookup s.img.rules k)
  out : s.cfg.node ≠ .run → s.rule.key = none ∧ s.rule.winner = none
  hits : HitsBounded s.rule.hits

/-- In RUN a key is held. -/
def KeyHeld (s : State) : Prop := s.cfg.node = .run → s.rule.key.isSome = true

theorem winnerStands_iff (s : State) : WinnerStands s ↔ WinnerFollows s ∧ KeyHeld s := by
  constructor
  · rintro ⟨run, out, hits, bound⟩
    refine ⟨⟨fun k key => ?_, out, hits, bound⟩, fun n => ?_⟩
    · by_cases n : s.cfg.node = .run
      · obtain ⟨k', key', winner⟩ := run n
        rw [key] at key'
        cases key'
        exact winner
      · rw [(out n).1] at key
        cases key
    · obtain ⟨k, key, -⟩ := run n
      rw [key]
      rfl
  · rintro ⟨⟨selects, out, hits, bound⟩, held⟩
    refine ⟨fun n => ?_, out, hits, bound⟩
    obtain ⟨k, key⟩ := Option.isSome_iff_exists.1 (held n)
    exact ⟨k, key, selects k key⟩

theorem sat16_le (n : Nat) : sat16 n ≤ 65535 := satAdd_le _ _ _

theorem hitsBounded_set {hits : List Nat} (h : HitsBounded hits) (w n : Nat) : HitsBounded (hits.set w (sat16 n)) := by
  refine ⟨by rw [List.length_set]; exact h.1, fun x hx => ?_⟩
  obtain old | rfl := List.mem_or_eq_of_mem_set hx
  · exact h.2 x old
  · exact sat16_le n

theorem hitsBounded_clear : HitsBounded (List.replicate 33 0) :=
  ⟨List.length_replicate, fun n hn => by rw [(List.mem_replicate.1 hn).2]; exact Nat.zero_le _⟩

theorem ruleKept_follows {u : RuleUnit} (kept : RuleKept s u) (h : WinnerFollows s) : WinnerFollows { s with rule := u } := by
  obtain ⟨keys, hits, -⟩ := kept
  have bounded : HitsBounded u.hits := by
    obtain e | e | ⟨w, e⟩ := hits <;> rw [e]
    · exact h.hits
    · exact hitsBounded_clear
    · exact hitsBounded_set h.hits w _
  obtain ⟨key, winner⟩ | ⟨run, k, key, winner⟩ := keys
  · exact ⟨fun k hk => winner.trans (h.selects k (key ▸ hk)), fun n => by
      show u.key = none ∧ u.winner = none
      rw [key, winner]
      exact h.out n, bounded⟩
  · refine ⟨fun k' hk => ?_, fun n => absurd ((inRun_iff s).1 run) n, bounded⟩
    rw [show ({ s with rule := u } : State).rule.key = some k from key] at hk
    cases hk
    exact winner

theorem winnerFollows_same (node : t.cfg.node = s.cfg.node) (image : t.image = s.image) (rule : t.rule = s.rule)
    (h : WinnerFollows s) : WinnerFollows t := by
  have img : t.img = s.img := by rw [State.img, image, State.img]
  obtain ⟨selects, out, hits⟩ := h
  exact ⟨by rw [rule, img]; exact selects, by rw [rule, node]; exact out, by rw [rule]; exact hits⟩

/-- A node state without key and winner. -/
theorem winnerFollows_of_none (key : t.rule.key = none) (winner : t.rule.winner = none) (hits : HitsBounded t.rule.hits) :
    WinnerFollows t := ⟨fun k hk => (by rw [key] at hk; cases hk), fun _ => ⟨key, winner⟩, hits⟩

theorem deed_follows (deed : Deed entry exit idle s t) (h : WinnerFollows s) : WinnerFollows t := by
  cases deed with
  | aside touched => exact winnerFollows_same (by rw [touched.cfg rfl]) (touched.image rfl) (touched.rule rfl) h
  | cfg c same => exact winnerFollows_same same rfl rfl h
  | away c out => exact winnerFollows_of_none (h.out out).1 (h.out out).2 h.hits
  | demands f =>
    have touched := writeDemands_touches s f
    exact winnerFollows_same (by rw [touched.cfg rfl]) (touched.image rfl) (touched.rule rfl) h
  | period c =>
    have touched := beginPeriod_touches s c
    exact winnerFollows_same (by rw [touched.cfg rfl]) (touched.image rfl) (touched.rule rfl) h
  | rule u kept => exact ruleKept_follows kept h
  | leave => exact winnerFollows_of_none rfl rfl h.hits
  | accept r node =>
    obtain ⟨key, winner⟩ := h.out (by rw [node]; decide)
    exact winnerFollows_of_none key winner h.hits
  | restart => exact winnerFollows_of_none rfl rfl hitsBounded_clear
  | startRun => exact ⟨h.selects, fun n => absurd rfl n, h.hits⟩
  | pose | computed | streams | limTimer | restLim | records | setting | hold | holdTimer | duty | eco | svc | second | record =>
    exact ⟨h.selects, h.out, h.hits⟩

theorem ruleKept_held {u : RuleUnit} (kept : RuleKept s u) (h : KeyHeld s) : KeyHeld { s with rule := u } := by
  intro n
  obtain ⟨key, -⟩ | ⟨-, k, key, -⟩ := kept.1
  · exact (congrArg Option.isSome key).trans (h n)
  · exact congrArg Option.isSome key

/-- Every deed but the start of RUN keeps the key held. -/
theorem deed_keyHeld (deed : Deed false exit idle s t) (h : KeyHeld s) : KeyHeld t := by
  cases deed with
  | aside touched => unfold KeyHeld; rw [touched.cfg rfl, touched.rule rfl]; exact h
  | cfg c same => exact fun n => h (same.symm.trans n)
  | away c out inside => exact fun n => absurd n inside.1
  | demands f => unfold KeyHeld; rw [(writeDemands_touches s f).cfg rfl, (writeDemands_touches s f).rule rfl]; exact h
  | period c => unfold KeyHeld; rw [(beginPeriod_touches s c).cfg rfl, (beginPeriod_touches s c).rule rfl]; exact h
  | rule u kept => exact ruleKept_held kept h
  | leave | accept => exact fun n => nomatch n
  | restart c node => exact fun n => nomatch node.symm.trans n
  | startRun no => cases no
  | pose | computed | streams | limTimer | restLim | records | setting | hold | holdTimer | duty | eco | svc | second | record =>
    exact h

/-- A rebuild in RUN holds a key (R66, R78). -/
theorem rebuild_key (run : s.inRun = true) : s.rebuild.rule.key.isSome = true := by
  unfold State.rebuild
  dsimp only
  rw [if_pos run]
  split
  · rename_i same
    rw [same]; rfl
  · unfold State.lookupKey
    dsimp only
    split
    · rfl
    · unfold State.changeWinner
      dsimp only
      rw [(raiseRuleNotice_touches _ _ _).rule rfl, (clearRuleNotice_touches _ _).rule rfl, (ruleSound_touches _ _ _).rule rfl,
        (writeCaps_touches _ _).rule rfl, State.writeCuts, (writeDemands_touches _ _).rule rfl]
      rfl

/-- The entry to RUN makes RULE's first build, whatever comes before it and after (R78). -/
theorem enterRun_keyHeld (s : State) : KeyHeld s.enterRun := by
  intro _
  unfold State.enterRun
  dsimp only
  rw [(reportEntry_touches _ _).rule rfl]
  have runs : ∀ first, ∀ thread ∈ runThreads first, ∀ event ∈ thread, ∀ t, t.inRun = true → (event t).inRun = true := fun first =>
    runThreads_keeps (C := fun t => t.inRun = true) (fun h hc _ run => inRun_of_touches h run hc) first
  refine anyOrder_reaches (P := fun t => t.inRun = true) (Q := fun t => t.rule.key.isSome = true)
    (e := State.rebuild) (fun _ _ h => h) (fun _ _ h => h) (fun t => rebuild_key) _ _ ?_ (runs _)
    (fun thread ht event he t run key => ?_) ((pick_inRun _ 2).trans rfl)
  · refine ⟨_, List.mem_cons_of_mem _ List.mem_cons_self, ?_⟩
    unfold limitThread
    split <;> simp
  · have held : KeyHeld t := fun _ => key
    have deeds := runThreads_deeds (entry := false) (exit := false) (idle := false) _ thread ht event he t run
    exact deeds_keep deed_keyHeld deeds held ((inRun_iff _).1 (runs _ thread ht event he t run))

theorem exec_keyHeld {c : Instr} (h : exec c s = .next t) (held : KeyHeld s) : KeyHeld t := by
  have deeds := exec_deeds h
  cases starts : startsRun c with
  | false =>
    rw [starts] at deeds
    exact deeds_keep deed_keyHeld deeds held
  | true =>
    obtain rfl : c = .joinTimerExpiry := by cases c <;> first | rfl | cases starts
    unfold exec execJoinTimerExpiry at h
    dsimp only at h
    split at h <;> cases h
    · exact held
    · exact enterRun_keyHeld _

/-- Settles O57: a key and its winner change together, and the entry to RUN builds its first key. -/
theorem stepKeepsWinner : Obligations.StepKeepsWinner := by
  intro s t hs h
  rw [winnerStands_iff] at hs ⊢
  exact step_keeps (P := fun s => WinnerFollows s ∧ KeyHeld s) (fun _ _ _ ⟨f, k⟩ => ⟨⟨f.selects, f.out, f.hits⟩, k⟩)
    (fun _ ⟨f, k⟩ _ => ⟨⟨f.selects, f.out, f.hits⟩, k⟩)
    (fun c s t hs h => ⟨deeds_keep deed_follows (exec_deeds h) hs.1, exec_keyHeld h hs.2⟩) hs h

end Sys2Proof.Laws
end

section
/-! The law of the operator settings: the set after every limit item, after a record and after an image is sound. -/

namespace Sys2Proof.Laws

open Sys2Proof.Machine Relation

-- Many short proofs at once would each hold a thread of the checking process.
set_option Elab.async false

variable {entry exit idle : Bool} {s t : State}

/-! ## An accepted image -/

/-- What an accepted image passes (R189). -/
theorem judgeImage_none {r : ImageRead} (h : judgeImage (some r) = none) :
    crcFails r = false ∧ versionFails r = false ∧ geometryFails r.image.geometry = false
      ∧ subscriptionFails r.image.subscriptions = false ∧ thresholdsFail r.image.zones = false ∧ ruleFails r.image = false
      ∧ (∀ c, channelFails (r.image.channels.get c) = false) ∧ economyFails r.image.economy = false
      ∧ serviceFails r.image.service = false := by
  have passed : ∀ {p : Bool} {f : FaultCode} {x : Option FaultCode},
      (if p = true then some f else x) = none → p = false ∧ x = none := by
    intro p f x e
    cases p
    · exact ⟨rfl, e⟩
    · cases e
  unfold judgeImage at h
  obtain ⟨crc, h⟩ := passed h
  obtain ⟨version, h⟩ := passed h
  obtain ⟨geometry, h⟩ := passed h
  obtain ⟨subscription, h⟩ := passed h
  obtain ⟨thresholds, h⟩ := passed h
  obtain ⟨rule, h⟩ := passed h
  obtain ⟨channel, h⟩ := passed h
  obtain ⟨economy, h⟩ := passed h
  obtain ⟨service, -⟩ := passed h
  refine ⟨crc, version, geometry, subscription, thresholds, rule, fun c => ?_, economy, service⟩
  exact Bool.eq_false_iff.2 (List.any_eq_false.1 channel c (channel_mem_all c))

theorem within_iff (lo hi v : Int) : within lo hi v = true ↔ lo ≤ v ∧ v ≤ hi := by simp [within]

theorem geometry_sound {g : Geometry} (h : geometryFails g = false) :
    (500 ≤ g.l1 ∧ 500 ≤ g.l2 ∧ 500 ≤ g.l3) ∧ g.l1 + g.l2 + g.l3 ≤ 28000 ∧ (-2000 ≤ g.xf ∧ g.xf ≤ 2000)
      ∧ (0 ≤ g.zf ∧ g.zf ≤ 4000) := by
  simp only [geometryFails, Bool.not_eq_false', Bool.and_eq_true, within_iff, decide_eq_true_eq] at h
  obtain ⟨⟨⟨⟨⟨l1, l2⟩, l3⟩, total⟩, xf⟩, zf⟩ := h
  exact ⟨⟨l1.1, l2.1, l3.1⟩, total, xf, zf⟩

theorem clampInt_bounds {lo hi : Int} (v : Int) (h : lo ≤ hi) : lo ≤ clampInt lo hi v ∧ clampInt lo hi v ≤ hi := by
  unfold clampInt
  split
  · exact ⟨Int.le_refl _, h⟩
  · split
    · exact ⟨h, Int.le_refl _⟩
    · omega

/-! ## A sound limit set -/

/-- The limits of a set in their ranges, with the two separations (R41, R42, R48). -/
structure SetSound (c : LimitConfig) (u : LimitSet) : Prop where
  floor : ∀ f ∈ u.floor, (-20000 ≤ f.f0 ∧ f.f0 ≤ 10000) ∧ (c.slopeMin ≤ f.s ∧ f.s ≤ c.slopeMax) ∧ signed16 f.r0 = true
  ceiling : ∀ x ∈ u.ceiling, -5000 ≤ x ∧ x ≤ 20000
  reach : ∀ x ∈ u.reach, 1000 ≤ x ∧ x ≤ 30000
  left : ∀ x ∈ u.slewLeft, signed16 x = true
  right : ∀ x ∈ u.slewRight, signed16 x = true
  gap : ∀ f ∈ u.floor, ∀ x ∈ u.ceiling, f.f0 + 500 ≤ x
  sector : ∀ l ∈ u.slewLeft, ∀ r ∈ u.slewRight, 1820 ≤ l - r

/-- The parameters and the pose that keep the settings sound (R1, R9, R42). -/
structure BasisSound (im : Image) (p : PoseRecord) : Prop where
  slopes : -500 ≤ im.limits.slopeMin ∧ (im.limits.slopeMin ≤ 0 ∧ 0 ≤ im.limits.slopeMax) ∧ im.limits.slopeMax ≤ 500
  links : 0 ≤ im.geometry.l1 ∧ 0 ≤ im.geometry.l2 ∧ 0 ≤ im.geometry.l3 ∧ im.geometry.maxReach ≤ 30000
  reaches : ∀ r ∈ [p.p1Reach, p.p2Reach, p.p3Reach], -30000 ≤ r ∧ r ≤ 30000

theorem settingsSound_iff (s : State) : SettingsSound s ↔ SetSound s.img.limits s.lim.set ∧ BasisSound s.img s.pose.record
    ∧ (4 ≤ s.eco.delay ∧ s.eco.delay ≤ 30) ∧ s.rule.profile ≤ 3 ∧ (s.cfg.node = .startRead → s.lim.set = LimitSet.empty) := by
  constructor
  · rintro ⟨⟨f0, ceiling, reach, gap, sector, delay, profile⟩, slope, left, right, slopes, links, reaches, start⟩
    obtain ⟨least, low, high, most⟩ := slopes
    exact ⟨⟨fun f hf => ⟨f0 f hf, slope f hf⟩, ceiling, reach, left, right, gap, sector⟩,
      ⟨⟨least, ⟨low, high⟩, most⟩, links, reaches⟩, delay,
      profile, start⟩
  · rintro ⟨⟨floor, ceiling, reach, left, right, gap, sector⟩, ⟨⟨least, ⟨low, high⟩, most⟩, links, reaches⟩, delay, profile, start⟩
    exact ⟨⟨fun f hf => (floor f hf).1, ceiling, reach, gap, sector, delay, profile⟩, fun f hf => (floor f hf).2, left, right,
      ⟨least, low, high, most⟩, links, reaches, start⟩

theorem floorConflict_false {u : LimitSet} (h : floorConflict u = false) : ∀ f ∈ u.floor, ∀ x ∈ u.ceiling, f.f0 + 500 ≤ x := by
  intro f hf x hx
  rw [Option.mem_def] at hf hx
  simpa [floorConflict, hf, hx] using h

theorem slewConflict_false {u : LimitSet} (h : slewConflict u = false) : ∀ l ∈ u.slewLeft, ∀ r ∈ u.slewRight, 1820 ≤ l - r := by
  intro l hl r hr
  rw [Option.mem_def] at hl hr
  simpa [slewConflict, hl, hr] using h

theorem SetSound.empty (c : LimitConfig) : SetSound c LimitSet.empty where
  floor _ h := nomatch h
  ceiling _ h := nomatch h
  reach _ h := nomatch h
  left _ h := nomatch h
  right _ h := nomatch h
  gap _ h := nomatch h
  sector _ h := nomatch h

theorem mem_some_eq {α : Type} {a : α} {P : α → Prop} (h : P a) : ∀ x ∈ some a, P x := by
  intro x hx
  cases hx
  exact h

/-- A new floor, apart from the ceiling. -/
theorem SetSound.withFloor {c : LimitConfig} {u : LimitSet} (h : SetSound c u) {f : Floor} (f0 : -20000 ≤ f.f0 ∧ f.f0 ≤ 10000)
    (slope : c.slopeMin ≤ f.s ∧ f.s ≤ c.slopeMax) (r0 : signed16 f.r0 = true) (gap : ∀ x ∈ u.ceiling, f.f0 + 500 ≤ x) :
    SetSound c { u with floor := some f } :=
  { h with floor := mem_some_eq ⟨f0, slope, r0⟩, gap := mem_some_eq gap }

/-- A new ceiling, apart from the floor. -/
theorem SetSound.withCeiling {c : LimitConfig} {u : LimitSet} (h : SetSound c u) {x : Int} (range : -5000 ≤ x ∧ x ≤ 20000)
    (gap : ∀ f ∈ u.floor, f.f0 + 500 ≤ x) : SetSound c { u with ceiling := some x } :=
  { h with ceiling := mem_some_eq range, gap := fun f hf => mem_some_eq (gap f hf) }

theorem signed16_iff (v : Int) : signed16 v = true ↔ -32768 ≤ v ∧ v ≤ 32767 := by simp [signed16]

theorem BasisSound.signed {im : Image} {p : PoseRecord} (h : BasisSound im p) {r : Int}
    (mem : r ∈ [p.p1Reach, p.p2Reach, p.p3Reach]) : signed16 r = true := by
  have := h.reaches r mem
  rw [signed16_iff]
  omega

theorem psi_signed (s : State) : signed16 s.psi = true := (signed16_iff _).2 (wrapAngle_bounds _)

theorem maxReach_mem (p : PoseRecord) : p.maxReach ∈ [p.p1Reach, p.p2Reach, p.p3Reach] := by
  unfold PoseRecord.maxReach
  obtain e | e := max_choice p.p1Reach (max p.p2Reach p.p3Reach)
  · rw [e]; simp
  · rw [e]
    obtain e | e := max_choice p.p2Reach p.p3Reach <;> rw [e] <;> simp

/-- A decision that takes a set only where the set has no conflict. -/
theorem SetSound.unless {c : LimitConfig} {u u' : LimitSet} {p : Bool} {x y : SettingResult} (h : SetSound c u)
    (apart : p = false → SetSound c u') : SetSound c (if p = true then (x, u) else (y, u')).2 := by
  cases p
  · exact apart rfl
  · exact h

theorem decideFloor_sound (h : SetSound s.img.limits s.lim.set) (basis : BasisSound s.img s.pose.record) (v : Int) :
    SetSound s.img.limits (decideFloor s v).2 := by
  refine h.unless fun apart => h.withFloor (clampInt_bounds v (by decide)) basis.slopes.2.1 ?_ (floorConflict_false apart _ rfl)
  dsimp only
  split
  · exact basis.signed (maxReach_mem _)
  · decide

theorem decideFloorAtTip_sound (h : SetSound s.img.limits s.lim.set) (basis : BasisSound s.img s.pose.record) (v : Int) :
    SetSound s.img.limits (decideFloorAtTip s v).2 := by
  refine h.unless fun _ => ?_
  refine h.unless fun apart => h.withFloor (clampInt_bounds _ (by decide)) ?_ (basis.signed (by simp))
    (floorConflict_false apart _ rfl)
  cases held : s.lim.set.floor with
  | none => exact basis.slopes.2.1
  | some f => exact (h.floor f held).2.1

theorem decideSlope_sound (h : SetSound s.img.limits s.lim.set) (basis : BasisSound s.img s.pose.record) (v : Int) :
    SetSound s.img.limits (decideSlope s v).2 := by
  unfold decideSlope
  dsimp only
  split
  · exact h
  · rename_i f held
    obtain ⟨f0, -, r0⟩ := h.floor f held
    exact h.withFloor f0 (clampInt_bounds v (basis.slopes.2.1.1.trans basis.slopes.2.1.2)) r0 (h.gap f held)

theorem decideCeiling_sound (h : SetSound s.img.limits s.lim.set) (v : Int) :
    SetSound s.img.limits (decideCeiling s v).2 :=
  h.unless fun apart => h.withCeiling (clampInt_bounds v (by decide)) fun f hf => floorConflict_false apart f hf _ rfl

theorem decideSlewLeft_sound (h : SetSound s.img.limits s.lim.set) {v : Int} (hv : signed16 v = true) :
    SetSound s.img.limits (decideSlewLeft s v).2 :=
  h.unless fun apart => { h with left := mem_some_eq hv, sector := slewConflict_false apart }

theorem decideSlewRight_sound (h : SetSound s.img.limits s.lim.set) {v : Int} (hv : signed16 v = true) :
    SetSound s.img.limits (decideSlewRight s v).2 :=
  h.unless fun apart => { h with right := mem_some_eq hv, sector := slewConflict_false apart }

/-- Every limit item leaves a sound set. -/
theorem limitDecisions_sound (h : SetSound s.img.limits s.lim.set) (basis : BasisSound s.img s.pose.record) {v : Int}
    (hv : signed16 v = true) : ∀ d ∈ limitDecisions, SetSound s.img.limits (d s v).2 := by
  simp only [limitDecisions, List.mem_cons, List.not_mem_nil, or_false, forall_eq_or_imp, forall_eq]
  refine ⟨decideFloor_sound h basis v, decideFloorAtTip_sound h basis v, decideSlope_sound h basis v, ?_,
    decideCeiling_sound h v, ?_, ?_, ?_, decideSlewLeft_sound h hv, decideSlewRight_sound h hv, ?_, ?_, ?_⟩
  · exact { h with floor := (fun _ k => nomatch k), gap := (fun _ k => nomatch k) }
  · exact { h with ceiling := (fun _ k => nomatch k), gap := (fun _ _ _ k => nomatch k) }
  · exact { h with reach := mem_some_eq (clampInt_bounds v (by decide)) }
  · exact { h with reach := (fun _ k => nomatch k) }
  · unfold decideSlewLeftHere
    split
    · exact decideSlewLeft_sound h (psi_signed s)
    · exact h
  · unfold decideSlewRightHere
    split
    · exact decideSlewRight_sound h (psi_signed s)
    · exact h
  · exact { h with left := (fun _ k => nomatch k), right := (fun _ k => nomatch k), sector := (fun _ k => nomatch k) }

/-- A set brought into the ranges, before the separations are judged (R41). -/
def clampSet (c : LimitConfig) (u : LimitSet) : LimitSet where
  floor := u.floor.map fun f =>
    ⟨clampInt (-20000) 10000 f.f0, clampInt c.slopeMin c.slopeMax f.s, clampInt (-32768) 32767 f.r0⟩
  ceiling := u.ceiling.map (clampInt (-5000) 20000)
  reach := u.reach.map (clampInt 1000 30000)
  slewLeft := u.slewLeft.map (clampInt (-32768) 32767)
  slewRight := u.slewRight.map (clampInt (-32768) 32767)

/-- A set without its ceiling where that is too close to the floor (R48). -/
def partFloor (u : LimitSet) : LimitSet := if floorConflict u then { u with ceiling := none } else u

/-- A set without its slew limits where the sector is too narrow (R48). -/
def partSlew (u : LimitSet) : LimitSet := if slewConflict u then { u with slewLeft := none, slewRight := none } else u

theorem takeLimitSet_eq (c : LimitConfig) (u : LimitSet) : takeLimitSet c u = partSlew (partFloor (clampSet c u)) := rfl

/-- The set that a record or the image gives is sound. -/
theorem takeLimitSet_sound {c : LimitConfig} (slopes : c.slopeMin ≤ c.slopeMax) (u : LimitSet) : SetSound c (takeLimitSet c u) := by
  have clamped : ∀ {o : Option Int} {lo hi : Int}, lo ≤ hi → ∀ x ∈ o.map (clampInt lo hi), lo ≤ x ∧ x ≤ hi := by
    intro o lo hi le x hx
    obtain ⟨y, -, rfl⟩ := Option.map_eq_some_iff.1 hx
    exact clampInt_bounds y le
  have floor : ∀ f ∈ (clampSet c u).floor,
      (-20000 ≤ f.f0 ∧ f.f0 ≤ 10000) ∧ (c.slopeMin ≤ f.s ∧ f.s ≤ c.slopeMax) ∧ signed16 f.r0 = true := by
    intro f hf
    obtain ⟨g, -, rfl⟩ := Option.map_eq_some_iff.1 hf
    exact ⟨clampInt_bounds _ (by decide), clampInt_bounds _ slopes, (signed16_iff _).2 (clampInt_bounds _ (by decide))⟩
  have slew : ∀ (o : Option Int), ∀ x ∈ o.map (clampInt (-32768) 32767), signed16 x = true := fun o x hx =>
    (signed16_iff x).2 (clamped (by decide) x hx)
  have parted : ∀ w : LimitSet, w = partFloor (clampSet c u) → (∀ f ∈ w.floor, ∀ x ∈ w.ceiling, f.f0 + 500 ≤ x)
      ∧ (∀ x ∈ w.ceiling, -5000 ≤ x ∧ x ≤ 20000) ∧ w.floor = (clampSet c u).floor ∧ w.reach = (clampSet c u).reach
      ∧ w.slewLeft = (clampSet c u).slewLeft ∧ w.slewRight = (clampSet c u).slewRight := by
    rintro w rfl
    unfold partFloor
    split
    · exact ⟨(fun _ _ _ k => nomatch k), (fun _ k => nomatch k), rfl, rfl, rfl, rfl⟩
    · rename_i apart
      exact ⟨floorConflict_false (Bool.eq_false_iff.2 apart), clamped (by decide), rfl, rfl, rfl, rfl⟩
  obtain ⟨gap, ceiling, ef, er, el, eg⟩ := parted _ rfl
  rw [takeLimitSet_eq]
  unfold partSlew
  split
  · exact ⟨by rw [ef]; exact floor, ceiling, by rw [er]; exact clamped (by decide), (fun _ k => nomatch k),
      (fun _ k => nomatch k), gap, (fun _ k => nomatch k)⟩
  · rename_i apart
    exact ⟨by rw [ef]; exact floor, ceiling, by rw [er]; exact clamped (by decide), by rw [el]; exact slew _, by rw [eg]; exact slew _,
      gap, slewConflict_false (Bool.eq_false_iff.2 apart)⟩

/-! ## The pose -/

/-- A computed pose stays within the reach of the boom (R9). -/
theorem computePose_reaches (h : BasisSound s.img s.pose.record) : BasisSound s.img s.computePose := by
  refine ⟨h.slopes, h.links, ?_⟩
  obtain ⟨l1, l2, l3, total⟩ := h.links
  unfold Geometry.maxReach at total
  unfold State.computePose
  dsimp only
  split
  · exact h.reaches
  · generalize pitch (s.mailbox .boomAngle).angle s.img.geometry.offset1 = a1
    generalize pitch (s.mailbox .armAngle).angle s.img.geometry.offset2 = a2
    generalize pitch (s.mailbox .bucketAngle).angle s.img.geometry.offset3 = a3
    have first := abs_link_mul_le l1 (cosine_bounds a1)
    have second := abs_add_link_le first l2 (cosine_bounds a2)
    have third := abs_add_link_le second l3 (cosine_bounds a3)
    have r1 := roundSum_bounds first
    have r2 := roundSum_bounds second
    have r3 := roundSum_bounds third
    simp only [computePoints, List.mem_cons, List.not_mem_nil, or_false, forall_eq_or_imp, forall_eq]
    omega

/-! ## The law -/

theorem settingsSound_same (lim : t.lim.set = s.lim.set) (image : t.image = s.image) (pose : t.pose = s.pose)
    (eco : t.eco = s.eco) (rule : t.rule = s.rule) (node : t.cfg.node = s.cfg.node) (h : SettingsSound s) : SettingsSound t := by
  have img : t.img = s.img := by rw [State.img, image, State.img]
  rw [settingsSound_iff] at h ⊢
  rw [lim, img, pose, eco, rule, node]
  exact h

theorem rangeImage_basis {r : ImageRead} (h : judgeImage (some r) = none) {p : PoseRecord}
    (reaches : ∀ x ∈ [p.p1Reach, p.p2Reach, p.p3Reach], -30000 ≤ x ∧ x ≤ 30000) : BasisSound (rangeImage r.image) p := by
  obtain ⟨-, -, geometry, -⟩ := judgeImage_none h
  obtain ⟨⟨l1, l2, l3⟩, total, xf, -⟩ := geometry_sound geometry
  have low := clampInt_bounds (lo := -500) (hi := 0) r.image.limits.slopeMin (by decide)
  have high := clampInt_bounds (lo := 0) (hi := 500) r.image.limits.slopeMax (by decide)
  refine ⟨⟨low.1, ⟨low.2, high.1⟩, high.2⟩, ?_, reaches⟩
  show 0 ≤ r.image.geometry.l1 ∧ 0 ≤ r.image.geometry.l2 ∧ 0 ≤ r.image.geometry.l3 ∧ r.image.geometry.maxReach ≤ 30000
  unfold Geometry.maxReach
  omega

theorem takeDelay_range (v : Int) : 4 ≤ takeDelay v ∧ takeDelay v ≤ 30 := by
  have := clampInt_bounds (lo := 4) (hi := 30) v (by decide)
  unfold takeDelay
  omega

theorem takeProfile_range (n : Nat) : takeProfile n ≤ 3 := by
  unfold takeProfile
  split
  · assumption
  · exact Nat.le_of_lt_succ (BitVec.isLt _)

theorem settingsSound_reset : SettingsSound State.reset := by
  rw [settingsSound_iff]
  refine ⟨.empty _, ⟨by decide, by decide, by decide⟩, by decide, by decide, fun _ => rfl⟩

theorem deed_settings (deed : Deed entry exit idle s t) (h : SettingsSound s) : SettingsSound t := by
  cases deed with
  | aside touched =>
    exact settingsSound_same (by rw [touched.lim rfl]) (touched.image rfl) (touched.pose rfl) (touched.eco rfl) (touched.rule rfl)
      (by rw [touched.cfg rfl]) h
  | demands f =>
    have touched := writeDemands_touches s f
    exact settingsSound_same (by rw [touched.lim rfl]) (touched.image rfl) (touched.pose rfl) (touched.eco rfl) (touched.rule rfl)
      (by rw [touched.cfg rfl]) h
  | period c =>
    have touched := beginPeriod_touches s c
    exact settingsSound_same (by rw [touched.lim rfl]) (touched.image rfl) (touched.pose rfl) (touched.eco rfl) (touched.rule rfl)
      (by rw [touched.cfg rfl]) h
  | cfg c same => exact settingsSound_same (s := s) rfl rfl rfl rfl rfl same h
  | away c out inside =>
    rw [settingsSound_iff] at h ⊢
    obtain ⟨set, basis, delay, profile, -⟩ := h
    exact ⟨set, basis, delay, profile, fun n => absurd n inside.2⟩
  | pose p same =>
    rw [settingsSound_iff] at h ⊢
    obtain ⟨set, ⟨slopes, links, reaches⟩, rest⟩ := h
    obtain ⟨e1, e2, e3⟩ := same
    exact ⟨set, ⟨slopes, links, by rw [e1, e2, e3]; exact reaches⟩, rest⟩
  | computed d =>
    rw [settingsSound_iff] at h ⊢
    obtain ⟨set, basis, rest⟩ := h
    exact ⟨set, computePose_reaches basis, rest⟩
  | setting d v run mem signed =>
    rw [settingsSound_iff] at h ⊢
    obtain ⟨set, basis, delay, profile, -⟩ := h
    refine ⟨limitDecisions_sound set basis signed d mem, basis, delay, profile, fun n => ?_⟩
    rw [onLim_cfg, (inRun_iff s).1 run] at n
    cases n
  | rule u kept =>
    rw [settingsSound_iff] at h ⊢
    obtain ⟨set, basis, delay, profile, start⟩ := h
    exact ⟨set, basis, delay, kept.2.2.elim (fun e => e ▸ profile) id, start⟩
  | eco e kept =>
    rw [settingsSound_iff] at h ⊢
    obtain ⟨set, basis, delay, profile, start⟩ := h
    exact ⟨set, basis, kept.1.elim (fun e => e ▸ delay) id, profile, start⟩
  | leave | startRun =>
    rw [settingsSound_iff] at h ⊢
    obtain ⟨set, basis, delay, profile, -⟩ := h
    exact ⟨set, basis, delay, profile, fun n => nomatch n⟩
  | accept r node judged =>
    rw [settingsSound_iff] at h ⊢
    obtain ⟨-, basis, delay, profile, start⟩ := h
    refine ⟨?_, rangeImage_basis judged basis.reaches, delay, profile, fun n => nomatch n⟩
    dsimp only
    rw [start node]
    exact .empty _
  | record block lost node =>
    rw [settingsSound_iff] at h ⊢
    obtain ⟨-, basis, -⟩ := h
    exact ⟨takeLimitSet_sound (basis.slopes.2.1.1.trans basis.slopes.2.1.2) _, basis, takeDelay_range _, takeProfile_range _,
      fun n => nomatch node.symm.trans n⟩
  | restart c =>
    have reset := settingsSound_reset
    rw [settingsSound_iff] at reset ⊢
    obtain ⟨set, basis, delay, profile, -⟩ := reset
    exact ⟨set, basis, delay, profile, fun _ => rfl⟩
  | streams | limTimer | restLim | records | hold | holdTimer | duty | svc | second => exact h

/-- Settles O56: every value is clamped or judged where it enters the set, and a reference reach is a reach of the boom. -/
theorem stepKeepsSettingsLegal : Obligations.StepKeepsSettingsLegal := by
  intro s t hs h
  exact step_keeps (P := SettingsSound) (fun _ _ _ h => h) (fun _ h _ => h)
    (fun c s t hs h => deeds_keep deed_settings (exec_deeds h) hs) hs h

end Sys2Proof.Laws
end

section
/-! The law of the duties: the values that a demand is formed from are per-mille, and a duty stays between its target and its period. -/

namespace Sys2Proof.Laws

open Sys2Proof.Machine Relation

-- Many short proofs at once would each hold a thread of the checking process.
set_option Elab.async false

variable {entry exit : Bool} {s t : State}

/-! ## The law in parts -/

/-- A channel's demands are per-mille, and a used one's duty lies between its target and its modulus. -/
structure ChannelSound (cfg : ChannelConfig) (r : ChannelRecord) : Prop where
  demands : DemandsPerMille r
  duty : cfg.used = true → r.targetDuty ≤ r.duty ∧ r.duty ≤ cfg.modulus

/-- The levels of the hold table are per-mille. -/
def LevelsPerMille (h : HoldTable) : Prop := (∀ e ∈ h.entries, e.level ≤ 1000) ∧ ∀ o ∈ h.overflow, o.level ≤ 1000

/-- The cuts that an image gives are per-mille. -/
structure ImagePerMille (im : Image) : Prop where
  fail : ∀ c : Channel, (im.channels.get c).fail ≤ 1000
  rules : ∀ r ∈ im.rules, ∀ c : Channel, ∀ n ∈ r.actions.cuts.get c, n ≤ 1000
  default : ∀ c : Channel, ∀ n ∈ im.defaultRule.cuts.get c, n ≤ 1000
  bands : ∀ l : Limit, 0 ≤ (bandOf im.limits l).aStop ∧ (bandOf im.limits l).aStop ≤ 1000

/-- A limit in APPROACH has its margin within its band. -/
def ApproachWithin (c : LimitConfig) (r : PerLimit LimitRecord) : Prop :=
  ∀ l : Limit, (r.get l).state = .approach → ∀ m ∈ (r.get l).margin, 0 < m ∧ m < (bandOf c l).b

/-- No limit is in APPROACH and no channel has a duty. -/
def DutiesRest (s : State) : Prop :=
  (∀ l : Limit, (s.lim.records.get l).state ≠ .approach) ∧ ∀ c : Channel, (s.vch.get c).duty = 0 ∧ (s.vch.get c).targetDuty = 0

theorem dutiesBounded_iff (s : State) : DutiesBounded s ↔ (∀ c, ChannelSound (s.img.channels.get c) (s.vch.get c))
    ∧ LevelsPerMille s.hold ∧ ImagePerMille s.img ∧ ApproachWithin s.img.limits s.lim.records
    ∧ (s.cfg.node ≠ .run → DutiesRest s) := by
  constructor
  · rintro ⟨⟨demands, entries, overflow, fail, rules, default, bands, approach, clear⟩, rest, duty⟩
    exact ⟨fun c => ⟨demands c, duty c⟩, ⟨entries, overflow⟩, ⟨fail, rules, default, bands⟩, approach,
      fun n => ⟨clear n, rest n⟩⟩
  · rintro ⟨channels, ⟨entries, overflow⟩, ⟨fail, rules, default, bands⟩, approach, rest⟩
    exact ⟨⟨fun c => (channels c).demands, entries, overflow, fail, rules, default, bands, approach, fun n => (rest n).1⟩,
      fun n => (rest n).2, fun c => (channels c).duty⟩

theorem dutiesBounded_same (vch : t.vch = s.vch) (hold : t.hold = s.hold) (image : t.image = s.image)
    (records : t.lim.records = s.lim.records) (node : t.cfg.node = s.cfg.node) (h : DutiesBounded s) : DutiesBounded t := by
  have img : t.img = s.img := by rw [State.img, image, State.img]
  rw [dutiesBounded_iff, DutiesRest] at h ⊢
  rw [vch, hold, img, records, node]
  exact h

theorem dutiesBounded_aside (touched : Touches asideBlocks s t) (h : DutiesBounded s) : DutiesBounded t :=
  dutiesBounded_same (touched.vch rfl) (touched.hold rfl) (touched.image rfl) (by rw [touched.lim rfl])
    (by rw [touched.cfg rfl]) h

/-! ## The channels -/

theorem channelSound_reset (cfg : ChannelConfig) (st : ChannelState) : ChannelSound cfg (ChannelRecord.reset st) :=
  ⟨⟨(fun _ h => nomatch h), (fun _ h => nomatch h), (fun _ h => nomatch h), (fun _ h => nomatch h)⟩,
    fun _ => ⟨Nat.le_refl 0, Nat.zero_le _⟩⟩

theorem emptyChannels_sound (im im' : Image) (c : Channel) : ChannelSound (im.channels.get c) ((emptyChannels im').get c) := by
  rw [emptyChannels_get]
  exact channelSound_reset _ _

theorem getD_perMille {o : Option Nat} (h : ∀ n ∈ o, n ≤ 1000) : o.getD 0 ≤ 1000 := by
  cases o with
  | none => exact Nat.zero_le _
  | some n => exact h n rfl

theorem targetCut_perMille {r : ChannelRecord} (h : DemandsPerMille r) : targetCut r ≤ 1000 := by
  obtain ⟨limit, rule, hold, fail⟩ := h
  exact max_le (max_le (getD_perMille limit) (getD_perMille rule)) (max_le (getD_perMille hold) (getD_perMille fail))

/-- A per-mille cut has a duty within its period (R101). -/
theorem dutyOf_le {k m : Nat} (h : k ≤ 1000) : dutyOf k m ≤ m := by
  have := Nat.mul_le_mul_right m h
  unfold dutyOf
  omega

theorem startPeriod_sound {cfg : ChannelConfig} {r : ChannelRecord} (used : cfg.used = true) (h : ChannelSound cfg r) :
    ChannelSound cfg (startPeriod cfg r) := by
  obtain ⟨-, high⟩ := h.duty used
  refine ⟨h.demands, fun _ => ⟨le_max_left _ _, max_le (dutyOf_le (targetCut_perMille h.demands)) ?_⟩⟩
  exact (Nat.sub_le _ _).trans high

theorem endDuty_sound {cfg cfg' : ChannelConfig} {r : ChannelRecord} (h : ChannelSound cfg r) :
    ChannelSound cfg (endDuty cfg' r) := by
  unfold endDuty
  split
  · exact ⟨h.demands, h.duty⟩
  · exact h

theorem tickChannel_sound {cfg cfg' : ChannelConfig} {r : ChannelRecord} (h : ChannelSound cfg r) :
    ChannelSound cfg (tickChannel cfg' r) := by
  unfold tickChannel
  split
  · exact ⟨h.demands, h.duty⟩
  · split
    · exact ⟨h.demands, h.duty⟩
    · exact ⟨h.demands, h.duty⟩

/-- New channels in RUN, each of them sound. -/
theorem dutiesBounded_channels (run : s.inRun = true) (hold : t.hold = s.hold) (image : t.image = s.image)
    (lim : t.lim = s.lim) (cfg : t.cfg = s.cfg)
    (channels : ∀ c, ChannelSound (s.img.channels.get c) (s.vch.get c) → ChannelSound (s.img.channels.get c) (t.vch.get c))
    (h : DutiesBounded s) : DutiesBounded t := by
  have img : t.img = s.img := by rw [State.img, image, State.img]
  rw [dutiesBounded_iff] at h ⊢
  obtain ⟨sound, levels, perMille, approach, -⟩ := h
  rw [hold, img, lim, cfg]
  exact ⟨fun c => channels c (sound c), levels, perMille, approach, fun n => absurd ((inRun_iff s).1 run) n⟩

theorem demands_duties {f : Channel → ChannelRecord → ChannelRecord}
    (hf : ∀ c r, f c r = { r with
      limit := (f c r).limit, rule := (f c r).rule, hold := (f c r).hold, fail := (f c r).fail })
    (cuts : CutsPerMille s → ∀ c, DemandsPerMille (f c (s.vch.get c))) (h : DutiesBounded s) :
    DutiesBounded (s.writeDemands f) := by
  have touched := writeDemands_touches s f
  by_cases run : s.inRun = true
  · refine dutiesBounded_channels run (touched.hold rfl) (touched.image rfl) (touched.lim rfl) (touched.cfg rfl)
      (fun c sound => ?_) h
    rw [writeDemands_get, if_pos run]
    refine ⟨cuts h.1 c, fun used => ?_⟩
    rw [hf]
    exact sound.duty used
  · refine dutiesBounded_same ?_ (touched.hold rfl) (touched.image rfl) (by rw [touched.lim rfl]) (by rw [touched.cfg rfl]) h
    have out : s.inRun = false := Bool.eq_false_iff.2 run
    unfold State.writeDemands Channel.all State.writeDemand
    simp [out]

theorem beginPeriod_duties (c : Channel) (h : DutiesBounded s) : DutiesBounded (s.beginPeriod c) := by
  have touched := beginPeriod_touches s c
  by_cases run : s.inRun = true
  · refine dutiesBounded_channels run (touched.hold rfl) (touched.image rfl) (touched.lim rfl) (touched.cfg rfl)
      (fun c' sound => ?_) h
    rw [beginPeriod_get]
    split
    · rename_i same
      obtain ⟨-, used, rfl⟩ := same
      exact startPeriod_sound used sound
    · exact sound
  · unfold State.beginPeriod
    rw [if_neg fun k => run (Bool.and_eq_true_iff.1 k).1]
    exact h

theorem endDuty_duties {c : Channel} (run : s.inRun = true) (h : DutiesBounded s) :
    DutiesBounded (s.onChannel c (endDuty (s.img.channels.get c))) := by
  refine dutiesBounded_channels run rfl rfl rfl rfl (fun c' sound => ?_) h
  rw [State.onChannel, onVch_vch, channel_get_set]
  split
  · rename_i same
    subst same
    exact endDuty_sound sound
  · exact sound

theorem tick_duties (h : DutiesBounded s) : DutiesBounded s.tick := by
  have get : ∀ c, s.tick.vch.get c = if s.inRun && (s.img.channels.get c).used
      then tickChannel (s.img.channels.get c) (s.vch.get c) else s.vch.get c := fun c => channel_get_tabulate _ c
  by_cases run : s.inRun = true
  · refine dutiesBounded_channels run rfl rfl rfl rfl (fun c sound => ?_) h
    rw [get]
    split
    · exact tickChannel_sound sound
    · exact sound
  · rw [dutiesBounded_iff] at h ⊢
    have same : ∀ c, s.tick.vch.get c = s.vch.get c := fun c => by
      rw [get, if_neg fun k => run (Bool.and_eq_true_iff.1 k).1]
    obtain ⟨sound, levels, perMille, approach, rest⟩ := h
    refine ⟨fun c => by rw [same]; exact sound c, levels, perMille, approach, fun n => ⟨(rest n).1, fun c => ?_⟩⟩
    rw [same]
    exact (rest n).2 c

/-! ## The hold table -/

theorem LevelsPerMille.sub {h : HoldTable} (b : LevelsPerMille h) {es : List HoldEntry} (sub : es.Sublist h.entries) :
    LevelsPerMille { h with entries := es } := ⟨fun e he => b.1 e (sub.subset he), b.2⟩

theorem LevelsPerMille.countDown {h : HoldTable} (b : LevelsPerMille h) (d : Option Ms) :
    LevelsPerMille { countDown h with quantumTimer := d } := by
  refine ⟨fun e he => ?_, fun o ho => ?_⟩
  · obtain ⟨x, hx, rfl⟩ := List.mem_map.1 (List.mem_of_mem_filter he)
    exact b.1 x hx
  · obtain ⟨ho, -⟩ := Option.filter_eq_some_iff.1 ho
    obtain ⟨x, hx, rfl⟩ := Option.map_eq_some_iff.1 ho
    exact b.2 x hx

theorem LevelsPerMille.decidePlace {h : HoldTable} (b : LevelsPerMille h) (cfg : HoldConfig) (now : Ms) {r : HoldRequest}
    (level : r.level ≤ 1000) : LevelsPerMille (decidePlace cfg now h r).table := by
  unfold Sys2Proof.Machine.decidePlace
  dsimp only
  split
  · refine ⟨fun e he => ?_, b.2⟩
    obtain ⟨x, hx, rfl⟩ := List.mem_map.1 he
    split
    · exact level
    · exact b.1 x hx
  · split
    · refine ⟨fun e he => ?_, b.2⟩
      rcases List.mem_append.1 he with he | he
      · exact b.1 e he
      · rw [List.mem_singleton.1 he]
        exact level
    · refine ⟨b.1, fun o ho => ?_⟩
      rw [Option.mem_some_iff] at ho
      subst ho
      unfold mergeOverflow
      split
      · exact level
      · rename_i o held
        exact max_le (b.2 o held) level

theorem LevelsPerMille.decideHold {h : HoldTable} (b : LevelsPerMille h) (cfg : HoldConfig) (now : Ms) (r : HoldRequest) :
    LevelsPerMille (decideHold cfg now h r).table := by
  unfold Sys2Proof.Machine.decideHold
  split
  · exact b
  · rename_i level
    rw [not_or, Nat.not_lt] at level
    split
    · exact b
    · split
      · unfold decideRelease
        split
        · exact b.sub List.filter_sublist
        · exact b
      · exact b.decidePlace cfg now level.2

theorem tableMove_levels {h : HoldTable} (move : TableMove s h) (b : LevelsPerMille s.hold) : LevelsPerMille h := by
  cases move with
  | decided r => exact b.decideHold _ _ r
  | counted d => exact b.countDown d
  | removed who =>
    cases who with
    | none => exact ⟨b.1, fun _ ho => nomatch ho⟩
    | some a => exact b.sub List.filter_sublist

/-! ## The limit records -/

theorem restLim_clear (u : LimitUnit) (l : Limit) : ((restLim u).records.get l).state ≠ .approach := by
  have get : (restLim u).records.get l = restingRecord u.set l := by cases l <;> rfl
  rw [get, restingRecord]
  split
  · exact fun h => nomatch h
  · exact fun h => nomatch h

theorem restLim_approach (c : LimitConfig) (u : LimitUnit) : ApproachWithin c (restLim u).records := fun l state =>
  absurd state (restLim_clear u l)

/-- An evaluation gives APPROACH to a margin within the band (R53). -/
theorem evaluateLimit_approach {l : Limit} (h : (s.evaluateLimit l).state = .approach) :
    ∀ m ∈ (s.evaluateLimit l).margin, 0 < m ∧ m < (bandOf s.img.limits l).b := by
  intro m hm
  unfold State.evaluateLimit at h hm
  split at h
  · rename_i held
    rw [if_pos held] at hm
    split at h
    · rename_i m' margin
      rw [margin] at hm
      obtain rfl : m' = m := by simpa using hm
      simp only [marginState] at h
      split at h
      · cases h
      · rename_i inside
        split at h
        · rename_i positive
          exact ⟨positive, Int.not_le.1 inside⟩
        · cases h
    · cases h
  · cases h

/-! ## The image -/

theorem imagePerMille_blank : ImagePerMille Image.blank := by
  refine ⟨fun c => ?_, (fun r hr => nomatch hr), fun c n hn => ?_, fun l => ?_⟩
  · cases c <;> decide
  · cases c <;> cases hn
  · cases l <;> decide

theorem rangeBand_perMille (b : Band) : 0 ≤ (rangeBand b).aStop ∧ (rangeBand b).aStop ≤ 1000 := by
  have := clampInt_bounds (lo := 0) (hi := 200) b.aStop (by decide)
  simp only [rangeBand]
  omega

theorem actionsFail_perMille {idle : Nat} {a : RuleActions} (h : actionsFail idle a = false) (c : Channel) :
    ∀ n ∈ a.cuts.get c, n ≤ 1000 := by
  simp only [actionsFail, Bool.or_eq_false_iff] at h
  obtain ⟨⟨⟨-, cuts⟩, -⟩, -⟩ := h
  have kept := List.any_eq_false.1 cuts c (channel_mem_all c)
  intro n hn
  rw [Option.mem_def] at hn
  rw [hn] at kept
  simpa using kept

theorem rangeChannel_fail {c : ChannelConfig} (h : channelFails c = false) : (rangeChannel c).fail ≤ 1000 := by
  unfold rangeChannel
  split
  · rename_i used
    simp only [channelFails, used, Bool.true_and, Bool.not_eq_false', Bool.and_eq_true, decide_eq_true_eq] at h
    exact h.2
  · exact Nat.zero_le _

/-- An accepted image gives per-mille cuts (R42, R68, R96). -/
theorem rangeImage_perMille {r : ImageRead} (h : judgeImage (some r) = none) : ImagePerMille (rangeImage r.image) := by
  obtain ⟨-, -, -, -, -, rule, channels, -, -⟩ := judgeImage_none h
  obtain ⟨rules, default⟩ := Bool.or_eq_false_iff.1 rule
  refine ⟨fun c => ?_, fun slot mem c => ?_, actionsFail_perMille default, fun l => ?_⟩
  · rw [show (rangeImage r.image).channels.get c = rangeChannel (r.image.channels.get c) from channel_get_tabulate _ c]
    exact rangeChannel_fail (channels c)
  · exact actionsFail_perMille (Bool.eq_false_iff.2 (List.any_eq_false.1 rules slot mem)) c
  · cases l <;> exact rangeBand_perMille _

/-! ## The law -/

theorem deed_duties (deed : Deed entry exit false s t) (h : DutiesBounded s) : DutiesBounded t := by
  cases deed with
  | aside touched => exact dutiesBounded_aside touched h
  | cfg c same => exact dutiesBounded_same (s := s) rfl rfl rfl rfl same h
  | away c out =>
    rw [dutiesBounded_iff] at h ⊢
    obtain ⟨sound, levels, perMille, approach, rest⟩ := h
    exact ⟨sound, levels, perMille, approach, fun _ => rest out⟩
  | restLim =>
    rw [dutiesBounded_iff] at h ⊢
    obtain ⟨sound, levels, perMille, -, rest⟩ := h
    exact ⟨sound, levels, perMille, restLim_approach _ _, fun n => ⟨restLim_clear _, (rest n).2⟩⟩
  | records r run evaluated =>
    rw [dutiesBounded_iff] at h ⊢
    obtain ⟨sound, levels, perMille, approach, -⟩ := h
    have inRun := run.resolve_left (by decide)
    refine ⟨sound, levels, perMille, fun l => ?_, fun n => absurd ((inRun_iff s).1 inRun) n⟩
    show (r.get l).state = .approach → ∀ m ∈ (r.get l).margin, 0 < m ∧ m < (bandOf s.img.limits l).b
    rcases evaluated l with e | e
    · rw [e]; exact approach l
    · rw [e]; exact evaluateLimit_approach
  | hold table move =>
    rw [dutiesBounded_iff] at h ⊢
    obtain ⟨sound, levels, rest⟩ := h
    exact ⟨sound, tableMove_levels move levels, rest⟩
  | demands f hf cuts => exact demands_duties hf cuts h
  | period c => exact beginPeriod_duties c h
  | duty c run => exact endDuty_duties run h
  | leave =>
    rw [dutiesBounded_iff] at h ⊢
    obtain ⟨-, -, perMille, -⟩ := h
    refine ⟨emptyChannels_sound _ _, ⟨(fun _ he => nomatch he), (fun _ ho => nomatch ho)⟩, perMille, restLim_approach _ _,
      fun _ => ⟨restLim_clear _, fun c => ?_⟩⟩
    rw [emptyChannels_get]
    exact ⟨rfl, rfl⟩
  | accept r node judged =>
    rw [dutiesBounded_iff] at h ⊢
    obtain ⟨-, levels, -, -, rest⟩ := h
    have clear := (rest (by rw [node]; decide)).1
    refine ⟨emptyChannels_sound _ _, levels, rangeImage_perMille judged, fun l state => absurd state (clear l),
      fun _ => ⟨clear, fun c => ?_⟩⟩
    rw [emptyChannels_get]
    exact ⟨rfl, rfl⟩
  | record block lost node =>
    rw [dutiesBounded_iff] at h ⊢
    obtain ⟨sound, levels, perMille, -, rest⟩ := h
    exact ⟨sound, levels, perMille, restLim_approach _ _, fun n => ⟨restLim_clear _, (rest n).2⟩⟩
  | restart c node =>
    rw [dutiesBounded_iff]
    have clear : ∀ l : Limit, (State.reset.lim.records.get l).state ≠ .approach := fun l => by cases l <;> decide
    refine ⟨emptyChannels_sound _ _, ⟨(fun _ he => nomatch he), (fun _ ho => nomatch ho)⟩, imagePerMille_blank,
      fun l state => absurd state (clear l), fun _ => ⟨clear, fun c => ?_⟩⟩
    rw [emptyChannels_get]
    exact ⟨rfl, rfl⟩
  | startRun =>
    rw [dutiesBounded_iff] at h ⊢
    obtain ⟨sound, levels, perMille, approach, -⟩ := h
    exact ⟨sound, levels, perMille, approach, fun n => absurd rfl n⟩
  | pose | computed | streams | limTimer | setting | rule | holdTimer | eco | svc | second => exact h

/-- Outside RUN the stopped pose timer keeps POSE from an evaluation of the limits (R19). -/
theorem posePeriodExpiry_stopped (h : s.pose.timer = none) : execPosePeriodExpiry s = .next s := by
  unfold execPosePeriodExpiry
  rw [h]

theorem computesIdle_cases (s : State) (c : Instr) : computesIdle s c = false ∨ c = .posePeriodExpiry ∧ s.inRun = false := by
  unfold computesIdle
  split
  · cases s.inRun
    · exact .inr ⟨rfl, rfl⟩
    · exact .inl rfl
  · exact .inl rfl

/-- A command in a state at rest outside RUN keeps the duties. -/
theorem exec_duties {c : Instr} (rest : UnitsRest s) (h : DutiesBounded s) (e : exec c s = .next t) : DutiesBounded t := by
  obtain idle | ⟨rfl, out⟩ := computesIdle_cases s c
  · have deeds := exec_deeds e
    rw [idle] at deeds
    exact deeds_keep deed_duties deeds h
  · have node : s.cfg.node ≠ .run := fun n => by
      rw [(inRun_iff s).2 n] at out
      cases out
    obtain ⟨-, -, -, -, -, ⟨timer, -, -⟩, -⟩ := rest node
    obtain rfl : s = t := by
      have stopped : exec .posePeriodExpiry s = .next s := posePeriodExpiry_stopped timer
      rw [stopped] at e
      injection e
    exact h

/-- Settles O58: a target cut is per-mille, so that a period starts with a duty within its modulus, and a release lowers it. -/
theorem stepKeepsDutiesBounded : Obligations.StepKeepsDutiesBounded := by
  intro s t rest hs h
  cases hp : s.pending with
  | nil =>
    rw [step_of_empty hp] at h
    obtain rfl : s.clock = t := by injection h
    obtain ⟨-, e⟩ | ⟨p, n, e⟩ := clock_cases s <;> rw [e]
    · exact tick_duties hs
    · exact hs
  | cons c others =>
    rw [step_of_cons hp] at h
    exact exec_duties (s := { s with pending := others }) rest hs h

end Sys2Proof.Laws
end

section
/-! The law of rest outside RUN: every block but CFG, STM, SVC's counts and LINK is still, and no command but the entry to RUN wakes it. -/

namespace Sys2Proof.Laws

open Sys2Proof.Machine Relation

-- Many short proofs at once would each hold a thread of the checking process.
set_option Elab.async false

variable {s t : State}

/-! ## A part at rest -/

def SndAtRest (d : Snd) : Prop :=
  d.playing = .nothing ∧ d.class1 = false ∧ d.class2 = none ∧ d.class3 = none ∧ d.class4 = [] ∧ d.waiting = none ∧ d.silence = none

def NtcAtRest (n : Ntc) : Prop :=
  n.queue = [] ∧ n.pending = [] ∧ n.locals = [] ∧ n.operatorInhibit = false ∧ n.settleTimer = none ∧ n.summaryTimer = none

def HoldAtRest (h : HoldTable) : Prop := h.entries = [] ∧ h.overflow = none ∧ h.quantumTimer = none

def RuleAtRest (u : RuleUnit) : Prop := u.winner = none ∧ u.key = none ∧ u.reply = none

def EcoAtRest (e : Eco) : Prop :=
  e.state = .off ∧ e.requested = none ∧ e.pumpLimit = none ∧ e.neutralSince = none
    ∧ e.delayTimer = none ∧ e.recoveryTimer = none ∧ e.yieldTimer = none ∧ e.requestTimer = none
    ∧ e.secondTimer = none ∧ e.reportTimer = none ∧ e.fuelMark = none

def SvcAtRest (v : Svc) : Prop := v.secondTimer = none ∧ v.summaryTimer = none ∧ v.detector = .ready ∧ v.psi0 = none

/-- Outside RUN, with every block at rest. -/
structure Asleep (s : State) : Prop where
  out : s.cfg.node ≠ .run
  snd : SndAtRest s.snd
  ntc : NtcAtRest s.ntc
  hold : HoldAtRest s.hold
  rule : RuleAtRest s.rule
  eco : EcoAtRest s.eco
  pose : s.pose.timer = none ∧ s.pose.record.quality = .invalid
  lim : s.lim.statusTimer = none
  svc : SvcAtRest s.svc

theorem unitsRest_of_asleep (h : Asleep s) : UnitsRest s := fun _ =>
  ⟨h.snd, h.ntc, h.hold, h.rule, h.eco, ⟨h.pose.1, h.pose.2, h.lim⟩, h.svc⟩

theorem unitsRest_of_inRun (h : s.inRun = true) : UnitsRest s := fun out => absurd ((inRun_iff s).1 h) out

theorem asleep_of_unitsRest (h : UnitsRest s) (out : s.cfg.node ≠ .run) : Asleep s := by
  obtain ⟨snd, ntc, hold, rule, eco, ⟨timer, quality, status⟩, svc⟩ := h out
  exact ⟨out, snd, ntc, hold, rule, eco, ⟨timer, quality⟩, status, svc⟩

theorem Asleep.notRun (h : Asleep s) : s.inRun = false := by
  rw [← Bool.not_eq_true, inRun_iff]
  exact h.out

/-! ## In RUN -/

theorem deed_inRun {entry idle : Bool} (deed : Deed entry false idle s t) (run : s.inRun = true) : t.inRun = true := by
  have node := (inRun_iff s).1 run
  have of_cfg : t.cfg.node = s.cfg.node → t.inRun = true := fun e => (inRun_iff t).2 (e.trans node)
  cases deed with
  | aside touched => exact of_cfg (by rw [touched.cfg rfl])
  | demands f => exact of_cfg (by rw [(writeDemands_touches s f).cfg rfl])
  | period c => exact of_cfg (by rw [(beginPeriod_touches s c).cfg rfl])
  | cfg c same => exact of_cfg same
  | away c out => exact absurd node out
  | leave _ out | restart _ _ out => cases out
  | accept _ start | record _ _ start => cases node.symm.trans start
  | startRun => rfl
  | pose | computed | streams | limTimer | restLim | records | setting | rule | hold | holdTimer | duty | eco | svc | second =>
    exact run

theorem deeds_inRun {entry idle : Bool} (h : Deeds entry false idle s t) (run : s.inRun = true) : t.inRun = true :=
  deeds_keep (P := fun u => u.inRun = true) deed_inRun h run

/-- The departure from RUN puts every block at rest (R19, R39, R62, R79, R94, R136, R154, R167, R173). -/
theorem leaveRun_asleep (s : State) : Asleep s.leaveRun := by
  unfold State.leaveRun State.requestWrite
  split <;>
    exact ⟨nofun, ⟨rfl, rfl, rfl, rfl, rfl, rfl, rfl⟩, ⟨rfl, rfl, rfl, rfl, rfl, rfl⟩, ⟨rfl, rfl, rfl⟩, ⟨rfl, rfl, rfl⟩,
      ⟨rfl, rfl, rfl, rfl, rfl, rfl, rfl, rfl, rfl, rfl, rfl⟩, ⟨rfl, rfl⟩, rfl, ⟨rfl, rfl, rfl, rfl⟩⟩

theorem reset_asleep (c : Cfg) (vch : PerChannel ChannelRecord) (out : c.node ≠ .run) (p : List Instr) (n : Nat) :
    Asleep { State.reset with pending := p, freeCount := n, vch := vch, cfg := c } :=
  ⟨out, ⟨rfl, rfl, rfl, rfl, rfl, rfl, rfl⟩, ⟨rfl, rfl, rfl, rfl, rfl, rfl⟩, ⟨rfl, rfl, rfl⟩, ⟨rfl, rfl, rfl⟩,
    ⟨rfl, rfl, rfl, rfl, rfl, rfl, rfl, rfl, rfl, rfl, rfl⟩, ⟨rfl, rfl⟩, rfl, ⟨rfl, rfl, rfl, rfl⟩⟩

/-! ## Changes that wake nothing -/

/-- The blocks of which nothing is at rest. -/
def restlessBlocks : Blocks :=
  { pending := true, freeCount := true, now := true, image := true, streams := true, stmReply := true, vch := true, link := true }

theorem Asleep.touches {b : Blocks} (h : Asleep s) (touched : Touches b s t) (hb : b.le restlessBlocks = true := by rfl) :
    Asleep t := by
  obtain ⟨out, snd, ntc, hold, rule, eco, pose, lim, svc⟩ := h
  have m := touched.mono hb
  refine ⟨?_, ?_, ?_, ?_, ?_, ?_, ?_, ?_, ?_⟩
  · rw [m.cfg rfl]; exact out
  · rw [m.snd rfl]; exact snd
  · rw [m.ntc rfl]; exact ntc
  · rw [m.hold rfl]; exact hold
  · rw [m.rule rfl]; exact rule
  · rw [m.eco rfl]; exact eco
  · rw [m.pose rfl]; exact pose
  · rw [m.lim rfl]; exact lim
  · rw [m.svc rfl]; exact svc

theorem Asleep.onCfg (h : Asleep s) {f : Cfg → Cfg} (out : (f s.cfg).node ≠ .run) : Asleep (s.onCfg f) :=
  ⟨out, h.snd, h.ntc, h.hold, h.rule, h.eco, h.pose, h.lim, h.svc⟩

theorem Asleep.onSvc (h : Asleep s) {f : Svc → Svc} (rest : SvcAtRest (f s.svc)) : Asleep (s.onSvc f) :=
  ⟨h.out, h.snd, h.ntc, h.hold, h.rule, h.eco, h.pose, h.lim, rest⟩

theorem Asleep.onEco (h : Asleep s) {f : Eco → Eco} (rest : EcoAtRest (f s.eco)) : Asleep (s.onEco f) :=
  ⟨h.out, h.snd, h.ntc, h.hold, h.rule, rest, h.pose, h.lim, h.svc⟩

theorem Asleep.offer (h : Asleep s) (c : TxClass) (k : TxKind) (d : Byte) (x : List Byte) : Asleep (s.offer c k d x) :=
  h.touches (offer_touches s c k d x)

theorem Asleep.arriveAt (h : Asleep s) (d : Ms) : Asleep (s.arriveAt d) := h.touches (arriveAt_touches s d)

theorem Asleep.onLink (h : Asleep s) (f : LinkUnit → LinkUnit) : Asleep (s.onLink f) := h.touches (onLink_touches s f)

theorem Asleep.takeFrame (h : Asleep s) : Asleep s.takeFrame := h.touches (takeFrame_touches s)

theorem Asleep.takeItem (h : Asleep s) : Asleep s.takeItem := h.touches (takeItem_touches s)

theorem Asleep.respond (h : Asleep s) (i : SettingItem) (r : SettingResult) (a b c : Option Int) : Asleep (s.respond i r a b c) :=
  h.offer _ _ _ _

/-! ## What acts in RUN alone -/

theorem raiseNotice_out (h : s.inRun = false) (id : Nat) (v : Option Severity) (d : Detail) : s.raiseNotice id v d = s := by
  unfold State.raiseNotice
  rw [h]
  rfl

theorem clearNotice_out (h : s.inRun = false) (id : Nat) : s.clearNotice id = s := by
  unfold State.clearNotice
  rw [h]
  rfl

theorem derateEvent_out (h : s.inRun = false) : s.derateEvent = s := by
  unfold State.derateEvent
  rw [h]
  rfl

theorem beginPeriod_out (h : s.inRun = false) (c : Channel) : s.beginPeriod c = s := by
  unfold State.beginPeriod
  rw [h]
  rfl

theorem Asleep.raiseNotice (h : Asleep s) (id : Nat) (v : Option Severity) (d : Detail) : Asleep (s.raiseNotice id v d) := by
  rw [raiseNotice_out h.notRun]
  exact h

theorem Asleep.clearNotice (h : Asleep s) (id : Nat) : Asleep (s.clearNotice id) := by
  rw [clearNotice_out h.notRun]
  exact h

/-- LINK's report to RULE finds no reply outside RUN (R79). -/
theorem Asleep.deliver : ∀ (n : Nat) (o : ReplyOwner) {s : State}, Asleep s → Asleep (deliver n o s)
  | 0, _, _, h => h
  | n + 1, o, s, h => by
    have setReply : ∀ r, s.replyOf o ≠ none → Asleep (s.setReply o r) := fun r held => by
      cases o with
      | stm => exact ⟨h.out, h.snd, h.ntc, h.hold, h.rule, h.eco, h.pose, h.lim, h.svc⟩
      | rule => exact absurd h.rule.2.2 held
      | svc => exact h.onSvc (f := fun v => { v with reply := r }) h.svc
    unfold Sys2Proof.Machine.deliver
    split
    · exact h
    · rename_i held
      exact setReply _ (by rw [held]; nofun)
    · rename_i dst m rest held
      have offered : ∀ l, Asleep { s.setReply o (some ⟨dst, rest⟩) with link := l } := fun l =>
        (setReply _ (by rw [held]; nofun)).onLink fun _ => l
      dsimp only
      split
      · exact offered _
      · exact (offered _).deliver n _

theorem Asleep.report (h : Asleep s) (o : Option ReplyOwner) : Asleep (s.report o) := by
  cases o with
  | none => exact h
  | some o => exact h.deliver _ o

theorem Asleep.reports (h : Asleep s) (os : List ReplyOwner) : Asleep (s.reports os) := by
  induction os generalizing s with
  | nil => exact h
  | cons o os ih => exact ih (h.report (some o))

theorem Asleep.offerBackground (h : Asleep s) (f : TxFrame) : Asleep (s.offerBackground f) :=
  (h.onLink fun _ => (offerFrame s.cfg.node .background f s.link).1).report _

theorem Asleep.offerNodeStatus (h : Asleep s) : Asleep s.offerNodeStatus := h.offerBackground _

/-! ## CFG -/

theorem Asleep.enterJoin (h : Asleep s) : Asleep s.enterJoin :=
  ⟨nofun, h.snd, h.ntc, h.hold, h.rule, h.eco, h.pose, rfl, h.svc⟩

theorem Asleep.enterQuiet (h : Asleep s) : Asleep s.enterQuiet := by
  refine Asleep.offerNodeStatus ?_
  exact ⟨nofun, h.snd, h.ntc, h.hold, h.rule, h.eco, h.pose, h.lim, h.svc⟩

theorem Asleep.joinOrQuiet (h : Asleep s) : Asleep s.joinOrQuiet := by
  unfold State.joinOrQuiet
  split
  · exact h.enterJoin
  · exact h.enterQuiet

theorem Asleep.keyEvent (h : Asleep s) : Asleep s.keyEvent := by
  unfold State.keyEvent
  split
  · split
    · exact h
    · exact h.enterQuiet
  · rename_i node
    exact absurd node h.out
  · split
    · exact h.enterJoin
    · exact h
  all_goals exact h

theorem Asleep.evaluate (h : Asleep s) (p : ServiceItem → Bool) : Asleep (s.evaluate p) := by
  have raised : ∀ (is : List ServiceItem) {u : State}, Asleep u →
      Asleep (is.foldl (fun t i => t.raiseItem (evaluated s.svc i)) u) := by
    intro is
    induction is with
    | nil => exact fun hu => hu
    | cons i is ih =>
      refine fun hu => ih ?_
      dsimp only
      unfold State.raiseItem
      split
      · exact hu
      · exact hu.raiseNotice _ _ _
  have formed : ∀ {u : State}, Asleep u → Asleep u.formDerate := by
    intro u hu
    unfold State.formDerate
    dsimp only
    split
    · exact hu
    · have told : Asleep (u.onSvc fun v => { v with derate := derateOf u.svc.items }) :=
        hu.onSvc (by exact hu.svc)
      rw [derateEvent_out told.notRun]
      exact told
  exact formed (raised _ (h.onSvc (by exact h.svc)))

theorem Asleep.endRecordRead (h : Asleep s) (block : Option (List Byte)) : Asleep (s.endRecordRead block) := by
  have taken : Asleep (s.takeRecord (recordOf block s.img.defaults) (judgeRecord block)) :=
    ⟨h.out, h.snd, h.ntc, h.hold, h.rule, h.eco, h.pose, rfl, h.svc⟩
  unfold State.endRecordRead
  dsimp only
  have evaluated := taken.evaluate fun _ => true
  exact (evaluated.onEco evaluated.eco).joinOrQuiet

theorem Asleep.endWrite (h : Asleep s) (ok : Bool) : Asleep (s.endWrite ok) := by
  have ended : ∀ n : Svc → Nat, Asleep (s.onSvc fun v => { v with write := none, lastFailed := !ok, writeFails := n v }) := fun _ =>
    h.onSvc (by exact h.svc)
  have good : ∀ {u : State}, Asleep u → Asleep u.recordGood := fun hu => by
    unfold State.recordGood
    split
    · exact hu
    · exact (hu.onCfg (by exact hu.out)).clearNotice _
  have again : ∀ {u : State}, Asleep u →
      Asleep (if u.svc.again then (u.onSvc fun v => { v with again := false }).startWrite else u) := fun hu => by
    split
    · exact (hu.onSvc (f := fun v => { v with again := false }) hu.svc).onSvc (f := fun v => { v with write := some _ }) hu.svc
    · exact hu
  unfold State.endWrite
  dsimp only
  split
  · exact again (good (ended _))
  · exact again (ended _)

theorem Asleep.storeEnd (h : Asleep s) : Asleep s.storeEnd := by
  unfold State.storeEnd
  split
  · exact h.joinOrQuiet
  · exact h

/-! ## STM -/

theorem Asleep.changeEntry (h : Asleep s) (e e' : Stream) (arrival : Bool) : Asleep (s.changeEntry e e' arrival) := by
  have told : Asleep ((s.setEntry e').tellFault e e') := by
    have set := h.touches (setEntry_touches s e')
    unfold State.tellFault
    split
    · exact set
    · split
      · exact set.raiseNotice _ _ _
      · exact set.clearNotice _
  unfold State.changeEntry State.streamEvent
  rw [told.notRun]
  rw [if_pos (by rfl)]
  split
  · exact told.onEco (by exact told.eco)
  · exact told

theorem Asleep.arrive (h : Asleep s) (e : Stream) (data : List Byte) : Asleep (s.arrive e data) := by
  have set : ∀ e', Asleep (s.setEntry e') := fun e' => h.touches (setEntry_touches s e')
  unfold State.arrive
  split
  · exact set _
  · dsimp only
    split
    · exact set _
    · exact h.changeEntry _ _ _
    · exact h.changeEntry _ _ _

/-! ## The commands -/

/-- An outcome is a next state in which every block is at rest. -/
def Sleeps (o : Host.Outcome State Fault Refusal) : Prop := ∃ t, o = .next t ∧ Asleep t

theorem sleeps_next (h : Asleep t) : Sleeps (.next t) := ⟨t, rfl, h⟩

theorem sleeps_ite {p : Prop} [Decidable p] {u : State} (h : Asleep t) (k : Asleep u) : Sleeps (.next (if p then t else u)) := by
  split
  · exact sleeps_next h
  · exact sleeps_next k

theorem imageReadDone_sleeps (h : Asleep s) (r : Option ImageRead) : Sleeps (execImageReadDone r s) := by
  have accepted : ∀ im, Asleep (s.acceptImage im) := fun im =>
    ⟨nofun, h.snd, h.ntc, h.hold, h.rule, h.eco, h.pose, h.lim, h.svc⟩
  have refused : ∀ r c, Asleep (s.refuseImage r c) := fun r c =>
    ⟨nofun, h.snd, h.ntc, h.hold, h.rule, h.eco, h.pose, h.lim, h.svc⟩
  unfold execImageReadDone
  split
  · split
    · exact sleeps_next (accepted _)
    · exact sleeps_next (refused _ _)
    · exact sleeps_next (refused _ _)
  · exact sleeps_next h

theorem nodeStatusTimerExpiry_sleeps (h : Asleep s) : Sleeps (execNodeStatusTimerExpiry s) := by
  unfold execNodeStatusTimerExpiry
  split
  · exact sleeps_next h
  · exact sleeps_next ((h.arriveAt _).onCfg (by exact (h.arriveAt _).out)).offerNodeStatus

theorem keyDebounceExpiry_sleeps (h : Asleep s) : Sleeps (execKeyDebounceExpiry s) := by
  unfold execKeyDebounceExpiry
  split
  · exact sleeps_next h
  · exact sleeps_next ((h.arriveAt _).onCfg (by exact (h.arriveAt _).out)).keyEvent

theorem frameReceived_sleeps (h : Asleep s) (f : BusFrame) : Sleeps (execFrameReceived f s) := by
  have clash : ∀ f, Asleep (s.clash f) := fun f => by
    unfold State.clash
    dsimp only
    split
    · exact (h.onLink _).raiseNotice _ _ _
    · exact (h.onLink _).onLink _
    · exact (h.onLink _).onLink _
    all_goals exact h.onLink _
  have enqueue : ∀ f, Asleep (s.enqueue f) := fun f => by
    unfold State.enqueue
    split
    · exact (h.onLink _).touches (settled_touches _)
    · exact h.onLink _
  refine sleeps_ite ?_ h
  unfold State.receive
  split
  · exact clash _
  · split
    · exact enqueue _
    · exact h

theorem streamFrameArrival_sleeps (h : Asleep s) : Sleeps (execStreamFrameArrival s) := by
  unfold execStreamFrameArrival
  split
  · exact sleeps_next h
  · dsimp only
    split
    · exact sleeps_ite (h.takeFrame.arrive _ _) h.takeFrame
    · exact sleeps_next h.takeFrame

theorem entryTimers_sleep (h : Asleep s) (n : Nat) :
    Sleeps (execLateTimerExpiry n s) ∧ Sleeps (execStaleTimerExpiry n s) ∧ Sleeps (execRecoveryWindowExpiry n s) := by
  have turned : ∀ d e e', Asleep ((s.arriveAt d).changeEntry e e' false) := fun d e e' => (h.arriveAt d).changeEntry e e' false
  unfold execLateTimerExpiry execStaleTimerExpiry execRecoveryWindowExpiry
  split
  · exact ⟨sleeps_ite (turned _ _ _) h, sleeps_ite (turned _ _ _) h, sleeps_ite (turned _ _ _) h⟩
  · exact ⟨sleeps_next h, sleeps_next h, sleeps_next h⟩

theorem absenceWatchExpiry_sleeps (h : Asleep s) (n : Nat) : Sleeps (execAbsenceWatchExpiry n s) := by
  unfold execAbsenceWatchExpiry
  rw [h.notRun]
  split
  · split <;> exact sleeps_next h
  · exact sleeps_next h

/-- Outside RUN a limit item is refused STATE (R43). -/
theorem limitItem_sleeps (h : Asleep s) (n : Nat) (d : State → Int → LimitDecision) (p : Limit → Bool)
    (values : LimitSet → Option Int × Option Int × Option Int) : Sleeps (.next (s.limitItem n d p values)) := by
  unfold State.limitItem
  split
  · exact sleeps_next h
  · dsimp only
    rw [h.takeItem.notRun]
    exact sleeps_next (h.takeItem.respond _ _ _ _ _)

theorem workMode_sleeps (h : Asleep s) : Sleeps (execWorkMode s) := by
  unfold execWorkMode
  split
  · exact sleeps_next h
  · rw [h.notRun]
    have same : s.takeItem.changeMode s.eco.mode = s.takeItem := if_pos (by rw [(takeItem_touches s).eco rfl])
    refine sleeps_next (Asleep.respond ?_ _ _ _ _ _)
    show Asleep (s.takeItem.changeMode s.eco.mode)
    rw [same]
    exact h.takeItem

theorem autoIdleEnable_sleeps (h : Asleep s) : Sleeps (execAutoIdleEnable s) := by
  unfold execAutoIdleEnable
  split
  · exact sleeps_next h
  · rw [h.notRun]
    have same : s.takeItem.changeEnable s.eco.autoIdle = s.takeItem := if_pos (by rw [(takeItem_touches s).eco rfl])
    refine sleeps_next (Asleep.respond ?_ _ _ _ _ _)
    show Asleep (s.takeItem.changeEnable s.eco.autoIdle)
    rw [same]
    exact h.takeItem

theorem autoIdleDelay_sleeps (h : Asleep s) : Sleeps (execAutoIdleDelay s) := by
  unfold execAutoIdleDelay
  split
  · exact sleeps_next h
  · rw [h.notRun]
    have same : s.takeItem.changeDelay s.eco.delay = s.takeItem := if_pos (by rw [(takeItem_touches s).eco rfl])
    refine sleeps_next (Asleep.respond ?_ _ _ _ _ _)
    show Asleep (s.takeItem.changeDelay s.eco.delay)
    rw [same]
    exact h.takeItem

theorem setProfile_sleeps (h : Asleep s) : Sleeps (execSetProfile s) := by
  unfold execSetProfile
  split
  · exact sleeps_next h
  · rw [h.notRun]
    refine sleeps_next (Asleep.respond ?_ _ _ _ _ _)
    rw [if_pos (by rfl)]
    have taken := h.takeItem
    exact ⟨taken.out, taken.snd, taken.ntc, taken.hold, taken.rule, taken.eco, taken.pose, taken.lim, taken.svc⟩

theorem serviceDone_sleeps (h : Asleep s) : Sleeps (execServiceDone s) := by
  unfold execServiceDone
  split
  · exact sleeps_next h
  · have refused : ∀ n, decideServiceDone s.takeItem n = .refused .state := fun n => by
      unfold decideServiceDone
      rw [h.takeItem.notRun]
      rfl
    refine sleeps_next (Asleep.respond ?_ _ _ _ _ _)
    rw [refused, if_neg (by decide)]
    exact h.takeItem

theorem noticeInhibit_sleeps (h : Asleep s) : Sleeps (execNoticeInhibit s) := by
  unfold execNoticeInhibit
  split
  · exact sleeps_next h
  · rw [h.notRun]
    refine sleeps_next (Asleep.respond ?_ _ _ _ _ _)
    have taken := h.takeItem
    have held : (s.takeItem.onNtc fun n => { n with operatorInhibit := s.ntc.operatorInhibit }) = s.takeItem := by
      rw [← (takeItem_touches s).ntc rfl]
      rfl
    have same : (s.takeItem.setConditions fun n => { n with operatorInhibit := s.ntc.operatorInhibit }) = s.takeItem := by
      unfold State.setConditions
      dsimp only
      rw [held, if_pos ⟨rfl, rfl⟩]
    show Asleep (s.takeItem.setConditions fun n => { n with operatorInhibit := s.ntc.operatorInhibit })
    rw [same]
    exact taken

theorem noticeAck_sleeps (h : Asleep s) : Sleeps (execNoticeAck s) := by
  unfold execNoticeAck
  split
  · exact sleeps_next h
  · rw [h.notRun]
    exact sleeps_next h.takeItem

theorem silence_sleeps (h : Asleep s) : Sleeps (execSilence s) := by
  unfold execSilence
  split
  · exact sleeps_next h
  · rw [h.notRun]
    exact sleeps_next (h.takeItem.respond _ _ _ _ _)

theorem settingItemUnknown_sleeps (h : Asleep s) : Sleeps (execSettingItemUnknown s) := by
  unfold execSettingItemUnknown
  split
  · exact sleeps_next h
  · exact sleeps_ite h (h.takeItem.respond _ _ _ _ _)

theorem holdRequest_sleeps (h : Asleep s) : Sleeps (execHoldRequest s) := by
  unfold execHoldRequest
  split
  · exact sleeps_next h
  · refine sleeps_next ?_
    have taken := h.takeFrame
    unfold State.takeHold
    split
    · exact taken
    · split
      · rename_i node
        exact absurd node taken.out
      · exact taken.offer _ _ _ _
      · exact taken.offer _ _ _ _
      all_goals exact taken

/-- Outside RUN a query leaves the receive queue and nothing more (R38, R76, R77, R152). -/
theorem query_sleeps (h : Asleep s) (o : RxOwner) (f : RxFrame → State → State) :
    Sleeps (match s.headFor o with
      | none => .next s
      | some x => .next (if s.takeFrame.inRun then f x s.takeFrame else s.takeFrame)) := by
  split
  · exact sleeps_next h
  · rw [h.takeFrame.notRun]
    exact sleeps_next h.takeFrame

theorem judgeCurrent_sleeps (h : Asleep s) : Asleep s.judgeCurrent :=
  (h.onLink fun _ => (ageCurrent s.now s.link).1).report _

theorem attempt_sleeps (h : Asleep s) : Asleep s.attempt := by
  refine Asleep.onLink ?_ _
  unfold State.select
  split
  · exact h
  · exact ((h.onLink fun _ => (ageAll s.now s.link).1).reports _).onLink _

theorem transmitSuccess_sleeps (h : Asleep s) : Sleeps (execTransmitSuccess s) := by
  refine sleeps_ite ?_ h
  have sent : Asleep ({ s with link := (attemptSucceeded s.link).1 }.report (attemptSucceeded s.link).2) :=
    (h.onLink fun _ => (attemptSucceeded s.link).1).report _
  dsimp only
  split
  · exact sent
  · exact sent.clearNotice _

theorem transmitFailure_sleeps (h : Asleep s) : Sleeps (execTransmitFailure s) := by
  refine sleeps_ite ?_ h
  dsimp only
  split
  · exact judgeCurrent_sleeps ((h.onLink _).raiseNotice _ _ _)
  · exact judgeCurrent_sleeps (h.onLink _)

theorem silentHoldExpiry_sleeps (h : Asleep s) : Sleeps (execSilentHoldExpiry s) := by
  unfold execSilentHoldExpiry
  split
  · exact sleeps_next h
  · rename_i d _
    have judged := judgeCurrent_sleeps ((h.arriveAt d).onLink fun l => { l with silentHold := none, probe := true })
    exact sleeps_ite (attempt_sleeps judged) judged

theorem recordWrites_sleep (h : Asleep s) (answered : Bool) :
    Sleeps (execRecordWriteDone answered s) ∧ Sleeps (execRecordWriteTimeout s) := by
  unfold execRecordWriteDone execRecordWriteTimeout
  split
  · exact ⟨sleeps_next h, sleeps_next h⟩
  · exact ⟨sleeps_next (h.endWrite _).storeEnd, sleeps_next ((h.arriveAt _).endWrite _).storeEnd⟩

/-! ## Stopped timers -/

theorem eco_timers_stopped (h : EcoAtRest s.eco) : execIdleDelayExpiry s = .next s ∧ execRecoveryTimerExpiry s = .next s
    ∧ execYieldTimerExpiry s = .next s ∧ execRequestTimerExpiry s = .next s ∧ execEcoSecondExpiry s = .next s
    ∧ execEconomyReportTimerExpiry s = .next s := by
  obtain ⟨-, -, -, -, delay, recovery, yield, request, second, report, -⟩ := h
  unfold execIdleDelayExpiry execRecoveryTimerExpiry execYieldTimerExpiry execRequestTimerExpiry execEcoSecondExpiry
    execEconomyReportTimerExpiry
  rw [delay, recovery, yield, request, second, report]
  exact ⟨rfl, rfl, rfl, rfl, rfl, rfl⟩

theorem svc_timers_stopped (h : SvcAtRest s.svc) (n : Nat) : execSvcSecondExpiry s = .next s ∧ execReremindExpiry n s = .next s
    ∧ execServiceSummaryTimerExpiry s = .next s := by
  obtain ⟨second, summary, -, -⟩ := h
  unfold execSvcSecondExpiry execReremindExpiry execServiceSummaryTimerExpiry
  rw [second, summary]
  exact ⟨rfl, rfl, rfl⟩

theorem ntc_timers_stopped (h : NtcAtRest s.ntc) (n : Nat) : execSettleTimerExpiry s = .next s
    ∧ execEscalationTimerExpiry n s = .next s ∧ execNoticeSummaryTimerExpiry s = .next s := by
  obtain ⟨-, pending, -, -, settle, summary⟩ := h
  unfold execSettleTimerExpiry execEscalationTimerExpiry execNoticeSummaryTimerExpiry
  rw [pending, settle, summary]
  exact ⟨rfl, rfl, rfl⟩

theorem snd_timers_stopped (h : SndAtRest s.snd) : execOneShotEnd s = .next s ∧ execCadencePhaseExpiry s = .next s
    ∧ execSilenceTimerExpiry s = .next s := by
  obtain ⟨playing, -, -, -, -, -, silence⟩ := h
  unfold execOneShotEnd execCadencePhaseExpiry execSilenceTimerExpiry
  rw [playing, silence]
  exact ⟨rfl, rfl, rfl⟩

theorem hold_timers_stopped (h : HoldAtRest s.hold) (who : Option Byte) : execQuantumTimerExpiry s = .next s
    ∧ execHoldEntryExpiry who s = .next s := by
  obtain ⟨-, -, quantum⟩ := h
  unfold execQuantumTimerExpiry execHoldEntryExpiry
  rw [quantum]
  exact ⟨rfl, rfl⟩

theorem limitStatusTimerExpiry_stopped (h : s.lim.statusTimer = none) : execLimitStatusTimerExpiry s = .next s := by
  unfold execLimitStatusTimerExpiry
  rw [h]

theorem sleeps_same {o : Host.Outcome State Fault Refusal} (h : Asleep s) (e : o = .next s) : Sleeps o := ⟨s, e, h⟩

/-- Outside RUN no command but the entry to RUN wakes a block. -/
theorem exec_sleeps (h : Asleep s) (c : Instr) (hc : c ≠ .joinTimerExpiry) : Sleeps (exec c s) := by
  obtain ⟨delay, recovery, yield, request, second, report⟩ := eco_timers_stopped h.eco
  obtain ⟨playing, cadence, silence⟩ := snd_timers_stopped h.snd
  cases c with
  | joinTimerExpiry => exact absurd rfl hc
  | powerOnStart => exact sleeps_next (reset_asleep _ _ (by exact fun e => nomatch e) _ _)
  | keyDebounceExpiry => exact keyDebounceExpiry_sleeps h
  | imageReadDone r => exact imageReadDone_sleeps h r
  | recordReadDone b => exact sleeps_ite (h.endRecordRead b) h
  | nodeStatusTimerExpiry => exact nodeStatusTimerExpiry_sleeps h
  | posePeriodExpiry => exact sleeps_same h (posePeriodExpiry_stopped h.pose.1)
  | frameReceived f => exact frameReceived_sleeps h f
  | streamFrameArrival => exact streamFrameArrival_sleeps h
  | lateTimerExpiry n => exact (entryTimers_sleep h n).1
  | staleTimerExpiry n => exact (entryTimers_sleep h n).2.1
  | recoveryWindowExpiry n => exact (entryTimers_sleep h n).2.2
  | absenceWatchExpiry n => exact absenceWatchExpiry_sleeps h n
  | setFloor | setFloorAtTip | setGradeSlope | clearFloor | setCeiling | clearCeiling | setReach | clearReach
  | setSlewLeft | setSlewRight | setSlewLeftHere | setSlewRightHere | clearSlew => exact limitItem_sleeps h _ _ _ _
  | workMode => exact workMode_sleeps h
  | autoIdleEnable => exact autoIdleEnable_sleeps h
  | autoIdleDelay => exact autoIdleDelay_sleeps h
  | setProfile => exact setProfile_sleeps h
  | serviceDone => exact serviceDone_sleeps h
  | noticeInhibit => exact noticeInhibit_sleeps h
  | noticeAck => exact noticeAck_sleeps h
  | silence => exact silence_sleeps h
  | settingItemUnknown => exact settingItemUnknown_sleeps h
  | holdRequest => exact holdRequest_sleeps h
  | streamStats =>
    exact query_sleeps h .streamStats fun f t => t.beginReply .stm f.source none (t.streams.map (·.number))
  | ruleStats =>
    exact query_sleeps h .ruleStats fun f t => t.beginReply .rule f.source (some (ruleHeader t)) (t.img.rules.map (·.index) ++ [32])
  | ruleStatsClear =>
    exact query_sleeps h .ruleStatsClear
      (fun f t => (if keyEngineRunning (t.rule.key.getD 0) then t
        else t.onRule fun u => { u with hits := List.replicate 33 0 }).offerBackground
          ((if keyEngineRunning (t.rule.key.getD 0) then t
            else t.onRule fun u => { u with hits := List.replicate 33 0 }).frame .statsReply f.source
              (replyData 4 [byteOf (bit (keyEngineRunning (t.rule.key.getD 0)))])))
  | itemTable => exact query_sleeps h .itemTable fun f t => t.beginReply .svc f.source none (t.svc.items.map (·.config.number))
  | limitStatusTimerExpiry => exact sleeps_same h (limitStatusTimerExpiry_stopped h.lim)
  | quantumTimerExpiry => exact sleeps_same h (hold_timers_stopped h.hold none).1
  | holdEntryExpiry who => exact sleeps_same h (hold_timers_stopped h.hold who).2
  | periodStart c =>
    have same : s.periodStart c = s := by
      unfold State.periodStart
      rw [beginPeriod_out h.notRun]
      exact if_pos rfl
    exact sleeps_same h (congrArg Host.Outcome.next same)
  | dutyEnd c =>
    unfold exec execDutyEnd
    rw [h.notRun]
    exact sleeps_next h
  | idleDelayExpiry => exact sleeps_same h delay
  | recoveryTimerExpiry => exact sleeps_same h recovery
  | yieldTimerExpiry => exact sleeps_same h yield
  | requestTimerExpiry => exact sleeps_same h request
  | ecoSecondExpiry => exact sleeps_same h second
  | economyReportTimerExpiry => exact sleeps_same h report
  | svcSecondExpiry => exact sleeps_same h (svc_timers_stopped h.svc 0).1
  | reremindExpiry n => exact sleeps_same h (svc_timers_stopped h.svc n).2.1
  | serviceSummaryTimerExpiry => exact sleeps_same h (svc_timers_stopped h.svc 0).2.2
  | recordWriteDone answered => exact (recordWrites_sleep h answered).1
  | recordWriteTimeout => exact (recordWrites_sleep h false).2
  | settleTimerExpiry => exact sleeps_same h (ntc_timers_stopped h.ntc 0).1
  | escalationTimerExpiry id => exact sleeps_same h (ntc_timers_stopped h.ntc id).2.1
  | noticeSummaryTimerExpiry => exact sleeps_same h (ntc_timers_stopped h.ntc 0).2.2
  | oneShotEnd => exact sleeps_same h playing
  | cadencePhaseExpiry => exact sleeps_same h cadence
  | silenceTimerExpiry => exact sleeps_same h silence
  | transmitAttemptStart => exact sleeps_ite (attempt_sleeps h) h
  | transmitSuccess => exact transmitSuccess_sleeps h
  | arbitrationLost => exact sleeps_ite (judgeCurrent_sleeps (h.onLink _)) h
  | transmitFailure => exact transmitFailure_sleeps h
  | silentHoldExpiry => exact silentHoldExpiry_sleeps h
  | keyInputChange level => exact sleeps_ite h (h.onCfg (by exact h.out))

/-! ## The law -/

/-- The entry to RUN ends in RUN (R188). -/
theorem enterRun_inRun (s : State) : s.enterRun.inRun = true := by
  unfold State.enterRun
  dsimp only
  refine inRun_of_touches (reportEntry_touches _ _) ?_
  exact anyOrder_keeps (P := fun t => t.inRun = true) (fun _ _ h => h) _ _
    (runThreads_keeps (C := fun t => t.inRun = true) (fun h hc _ run => inRun_of_touches h run hc) _) ((pick_inRun _ 2).trans rfl)

theorem joinTimerExpiry_unitsRest (rest : UnitsRest s) (h : execJoinTimerExpiry s = .next t) : UnitsRest t := by
  unfold execJoinTimerExpiry at h
  split at h <;> cases h
  · exact rest
  · exact unitsRest_of_inRun (enterRun_inRun _)

/-- The debounced key in RUN: on, nothing follows; off, the node leaves RUN (R188). -/
theorem keyEvent_unitsRest (run : s.inRun = true) : UnitsRest s.keyEvent := by
  unfold State.keyEvent
  rw [(inRun_iff s).1 run]
  dsimp only
  split
  · exact unitsRest_of_inRun run
  · exact unitsRest_of_asleep (leaveRun_asleep s)

theorem keyDebounceExpiry_unitsRest (run : s.inRun = true) (h : execKeyDebounceExpiry s = .next t) : UnitsRest t := by
  unfold execKeyDebounceExpiry at h
  split at h <;> cases h
  · exact unitsRest_of_inRun run
  · refine keyEvent_unitsRest ?_
    rw [State.inRun, onCfg_cfg, (arriveAt_touches s _).cfg rfl]
    exact run

theorem exec_unitsRest {c : Instr} (rest : UnitsRest s) (h : exec c s = .next t) : UnitsRest t := by
  by_cases joins : c = .joinTimerExpiry
  · subst joins
    exact joinTimerExpiry_unitsRest rest h
  by_cases run : s.inRun = true
  · have deeds := exec_deeds h
    cases leaves : leavesRun c with
    | false =>
      rw [leaves] at deeds
      exact unitsRest_of_inRun (deeds_inRun deeds run)
    | true =>
      unfold leavesRun at leaves
      split at leaves
      · cases h
        exact unitsRest_of_asleep (reset_asleep _ _ (by exact fun e => nomatch e) _ _)
      · exact keyDebounceExpiry_unitsRest run h
      · cases leaves
  · obtain ⟨u, e, asleep⟩ := exec_sleeps (asleep_of_unitsRest rest fun node => run ((inRun_iff s).2 node)) c joins
    rw [e] at h
    cases h
    exact unitsRest_of_asleep asleep

/-- Settles O52: in RUN no command but the key's and the power's leaves it, and outside RUN none but the join timer's wakes a block. -/
theorem stepKeepsUnitsRest : Obligations.StepKeepsUnitsRest := by
  intro s t hs h
  exact step_keeps (P := UnitsRest) (fun _ _ _ h => h) (fun _ h _ => h) (fun c s t hs h => exec_unitsRest hs h) hs h

end Sys2Proof.Laws
end

section
/-! The start: a step with a command in the queue, the values at power-on, and the laws at reset. -/

namespace Sys2Proof.Laws

open Sys2Proof.Machine Relation

-- Many short proofs at once would each hold a thread of the checking process.
set_option Elab.async false

/-- Settles O1. -/
theorem frontCommandRuns : Obligations.FrontCommandRuns := fun _ _ _ h => step_of_cons h

/-- Settles O3: the channels' records are those of an empty channel, the other blocks those of reset. -/
theorem powerOnStart : Obligations.PowerOnStart := by
  intro s
  refine ⟨_, rfl, rfl, rfl, rfl, rfl, rfl, rfl, rfl, rfl, rfl, fun c => ⟨emptyChannels_rest _ c, ?_⟩, rfl, rfl, rfl, rfl, rfl⟩
  dsimp only
  rw [emptyChannels_get]
  rfl

/-! ## Reset -/

theorem reset_out : State.reset.cfg.node ≠ .run := by decide

theorem asleep_reset : Asleep State.reset := by
  have asleep := reset_asleep State.reset.cfg State.reset.vch reset_out State.reset.pending State.reset.freeCount
  exact asleep

theorem reset_vch_rest (c : Channel) : ChannelAtRest (State.reset.vch.get c) := by
  cases c <;> exact ⟨rfl, rfl, rfl, rfl, rfl, rfl, rfl, rfl, rfl, rfl⟩

theorem dutiesBounded_reset : DutiesBounded State.reset := by
  have clear : ∀ l : Limit, (State.reset.lim.records.get l).state ≠ .approach := fun l => by cases l <;> decide
  rw [dutiesBounded_iff]
  refine ⟨fun c => ?_, ⟨(fun _ he => nomatch he), (fun _ ho => nomatch ho)⟩, imagePerMille_blank,
    fun l state => absurd state (clear l), fun _ => ⟨clear, fun c => ?_⟩⟩
  · cases c <;> exact channelSound_reset _ _
  · cases c <;> exact ⟨rfl, rfl⟩

theorem transmitterSound_reset : TransmitterSound State.reset := by
  refine ⟨Nat.zero_le _, (fun h => nomatch h), (fun _ h => nomatch h), (fun h => nomatch h), fun cls k _ => ?_, by decide, fun _ => rfl⟩
  cases cls <;> exact Nat.zero_le _

/-- Settles O49. -/
theorem lawsHoldAtReset : Obligations.LawsHoldAtReset := by
  refine ⟨by unfold LinkBounded; decide, fun _ => reset_vch_rest, fun c pin => ?_, unitsRest_of_asleep asleep_reset, ?_, ?_,
    countsInBand_reset, fuelInRange_reset, settingsSound_reset, ?_, dutiesBounded_reset, ⟨(fun _ h => nomatch h), rfl, rfl⟩, transmitterSound_reset⟩
  · obtain ⟨-, -, -, -, -, -, -, -, -, low⟩ := reset_vch_rest c
    rw [low] at pin
    cases pin
  · exact ⟨Nat.zero_le _, .nil, (fun _ h => nomatch h), (fun _ h => nomatch h), fun _ => ⟨rfl, rfl⟩, (fun _ h => nomatch h)⟩
  · exact ⟨Nat.zero_le _, .nil, .nil, .nil, .nil⟩
  · exact ⟨fun run => absurd run reset_out, fun _ => ⟨rfl, rfl⟩, by decide, by decide⟩

end Sys2Proof.Laws
end

section
/-! What is due: the members of the list, command by command, and the clock's turn. -/

namespace Sys2Proof.Laws

open Sys2Proof.Machine Relation

-- Many short proofs at once would each hold a thread of the checking process.
set_option Elab.async false

variable {s t : State}

/-! ## The members of the list -/

@[simp] theorem mem_dueAt {now : Ms} {d : Option Ms} {c x : Instr} :
    x ∈ dueAt now d c ↔ x = c ∧ ∃ e, d = some e ∧ reached now e = true := by
  unfold dueAt
  cases d with
  | none => simp
  | some e => by_cases h : reached now e = true <;> simp [h]

/-- The expiry that an entry's state waits for (R28, R29). -/
@[simp] theorem mem_dueStream {e : Stream} {x : Instr} : x ∈ s.dueStream e ↔ s.timersRun e = true
    ∧ (e.state = .fresh ∧ x = .lateTimerExpiry e.number ∧ reached s.now (lateEnd e) = true
      ∨ e.state = .late ∧ x = .staleTimerExpiry e.number ∧ reached s.now (staleEnd e) = true
      ∨ e.state = .recovering ∧ x = .recoveryWindowExpiry e.number ∧ reached s.now (windowEnd e) = true
      ∨ e.state = .neverSeen ∧ s.inRun = true ∧ x = .absenceWatchExpiry e.number
        ∧ ∃ d, e.absence = some d ∧ reached s.now d = true) := by
  unfold State.dueStream
  split
  · rename_i runs
    cases state : e.state <;> simp [runs]
  · rename_i stands
    simp [stands]

@[simp] theorem mem_dueChannels {x : Instr} : x ∈ s.dueChannels ↔ ∃ c, s.inRun = true ∧ (s.img.channels.get c).used = true
    ∧ (periodOver (s.img.channels.get c) (s.vch.get c) = true ∧ x = .periodStart c
      ∨ dutyOver (s.img.channels.get c) (s.vch.get c) = true ∧ x = .dutyEnd c) := by
  unfold State.dueChannels
  rw [List.mem_flatMap]
  refine exists_congr fun c => ?_
  by_cases counts : s.inRun = true ∧ (s.img.channels.get c).used = true
  · simp [channel_mem_all, counts]
  · simp only [channel_mem_all, true_and, Bool.and_eq_true, if_neg counts, List.not_mem_nil, false_iff]
    exact fun h => counts ⟨h.1, h.2.1⟩

theorem headFor_eq_some {o : RxOwner} {f : RxFrame} :
    s.headFor o = some f ↔ s.link.rx.head? = some f ∧ rxOwner s.streams f = o := by
  unfold State.headFor
  cases s.link.rx with
  | nil => simp
  | cons g rest =>
    dsimp only
    rw [List.head?_cons, Option.ite_none_right_eq_some]
    constructor
    · rintro ⟨owner, e⟩
      cases e
      exact ⟨rfl, owner⟩
    · rintro ⟨e, owner⟩
      cases e
      exact ⟨owner, rfl⟩

theorem nextItem_eq_some {i : SettingItem} : s.nextItem = some i ↔
    ∃ f, s.headFor .setting = some f ∧ s.link.itemsTaken < itemCount f ∧ i = itemAt f s.link.itemsTaken := by
  unfold State.nextItem
  cases s.headFor .setting with
  | none => simp
  | some f =>
    by_cases left : s.link.itemsTaken < itemCount f
    · simp [left, eq_comm]
    · simp [left]

theorem itemFor_eq_some {n : Nat} {i : SettingItem} : s.itemFor n = some i ↔ s.nextItem = some i ∧ i.code = n := by
  unfold State.itemFor
  rw [Option.filter_eq_some_iff, beq_iff_eq]

/-- The command of a frame that one block takes whole. -/
def frameCommands : List (RxOwner × Instr) :=
  [(.stm, .streamFrameArrival), (.hold, .holdRequest), (.streamStats, .streamStats), (.ruleStats, .ruleStats),
    (.ruleStatsClear, .ruleStatsClear), (.itemTable, .itemTable)]

@[simp] theorem mem_dueFrame {x : Instr} : x ∈ s.dueFrame ↔
    (∃ o f, (o, x) ∈ frameCommands ∧ s.headFor o = some f) ∨ ∃ i, s.nextItem = some i ∧ x = settingCommand i.code := by
  have none_setting : s.headFor .setting = none → ∀ i, s.nextItem ≠ some i := fun h i e => by
    obtain ⟨f, e, -⟩ := nextItem_eq_some.1 e
    rw [h] at e
    cases e
  cases rx : s.link.rx with
  | nil =>
    have head : ∀ o, s.headFor o = none := fun o => by rw [State.headFor, rx]
    have next := none_setting (head _)
    simp [State.dueFrame, rx, head, next]
  | cons f rest =>
    have head : ∀ o, s.headFor o = if rxOwner s.streams f = o then some f else none := fun o => by rw [State.headFor, rx]
    cases owner : rxOwner s.streams f
    case setting =>
      simp [State.dueFrame, rx, owner, head, frameCommands, eq_comm]
    all_goals
      have next := none_setting (by rw [head, owner]; rfl)
      simp [State.dueFrame, rx, owner, head, frameCommands, next]

theorem mem_due {x : Instr} : x ∈ s.due ↔ x ∈ s.dueTimers ∨ x ∈ s.dueChannels ∨ x ∈ s.dueFrame := by
  rw [State.due, List.append_assoc, List.mem_append, List.mem_append]

/-! ## The items -/

/-- Every setting code below 0x2B and every setting command stand in one row (10.7). -/
theorem settingCommand_small : ∀ n < 43, ∀ x ∈ answeredItems ++ [(0x29, Instr.noticeAck)], settingCommand n = x.2 ↔ n = x.1 := by
  decide

theorem settingCommand_large {n : Nat} (h : 43 ≤ n) : settingCommand n = .settingItemUnknown := by
  unfold settingCommand
  simp only [show n ≠ 0x01 by omega, show n ≠ 0x02 by omega, show n ≠ 0x03 by omega, show n ≠ 0x04 by omega,
    show n ≠ 0x05 by omega, show n ≠ 0x06 by omega, show n ≠ 0x07 by omega, show n ≠ 0x08 by omega, show n ≠ 0x09 by omega,
    show n ≠ 0x0A by omega, show n ≠ 0x0B by omega, show n ≠ 0x0C by omega, show n ≠ 0x0D by omega, show n ≠ 0x10 by omega,
    show n ≠ 0x11 by omega, show n ≠ 0x12 by omega, show n ≠ 0x18 by omega, show n ≠ 0x20 by omega, show n ≠ 0x28 by omega,
    show n ≠ 0x29 by omega, show n ≠ 0x2A by omega, if_false]

/-- A setting command takes the items of its code alone. -/
theorem settingCommand_eq_iff (n : Nat) {x : Nat × Instr} (hx : x ∈ answeredItems ++ [(0x29, Instr.noticeAck)]) :
    settingCommand n = x.2 ↔ n = x.1 := by
  by_cases small : n < 43
  · exact settingCommand_small n small x hx
  · rw [settingCommand_large (Nat.le_of_not_lt small)]
    have code : ∀ y ∈ answeredItems ++ [(0x29, Instr.noticeAck)], y.1 < 43 ∧ Instr.settingItemUnknown ≠ y.2 := by decide
    obtain ⟨low, other⟩ := code x hx
    exact ⟨fun e => absurd e other, fun e => absurd (e ▸ low) small⟩

theorem settingCommand_unknown (n : Nat) : settingCommand n = .settingItemUnknown ↔ n ∉ settingCodes := by
  by_cases small : n < 43
  · have table : ∀ n < 43, settingCommand n = .settingItemUnknown ↔ n ∉ settingCodes := by decide
    exact table n small
  · have codes : ∀ m ∈ settingCodes, m < 43 := by decide
    exact ⟨fun _ mem => small (codes n mem), fun _ => settingCommand_large (Nat.le_of_not_lt small)⟩

end Sys2Proof.Laws
end

section
/-! Every command completes, the clock's turn, and what is due, each way. -/

namespace Sys2Proof.Laws

open Sys2Proof.Machine Relation

-- Many short proofs at once would each hold a thread of the checking process.
set_option Elab.async false

variable {s t : State}

/-! ## The queue of commands stands -/

theorem noticeActs_pending (h : NoticeActs s t) : t.pending = s.pending := by
  induction h with
  | refl => rfl
  | tail _ act ih =>
    cases act with
    | offer | ntc => exact ih
    | sound _ => rw [(sound_touches _ _).pending rfl]; exact ih

theorem act_pending (h : Act s t) : t.pending = s.pending := by
  cases h with
  | link | eco | rule | limits => rfl
  | sound => exact (sound_touches _ _).pending rfl
  | raise => exact (raiseNotice_touches _ _ _ _).pending rfl
  | clear => exact (clearNotice_touches _ _).pending rfl
  | demand => exact (writeDemand_touches _ _ _).pending rfl

theorem parts_pending {wire : Bool} (h : Parts wire s t) : t.pending = s.pending := by
  induction h with
  | refl => rfl
  | tail _ part ih =>
    rw [← ih]
    cases part with
    | act act => exact act_pending act
    | command => exact (sound_touches _ _).pending rfl
    | conditions => exact (setConditions_touches _ _).pending rfl
    | pass => exact (pass_touches _).pending rfl
    | repend => exact (pend_touches _ _).pending rfl
    | rest same => exact same
    | link | attempt | silent | desk | unqueue | emptied => rfl

theorem exec_keeps_queue (c : Instr) (s : State) : ∃ t, exec c s = .next t ∧ t.pending = s.pending := by
  obtain ⟨t, e, parts⟩ := exec_completes c s
  exact ⟨t, e, parts_pending parts⟩

/-! ## The clock's turn -/

theorem step_of_due (empty : s.pending = []) (due : s.due ≠ []) :
    ∃ t c, step s = .next t ∧ c ∈ s.due ∧ t = { s with pending := [c], freeCount := t.freeCount } := by
  have room : 0 < s.due.length := List.length_pos_iff.2 due
  have chosen := pick_lt s room
  have turn : s.clock = { (s.pick s.due.length).2 with pending := [s.due[(s.pick s.due.length).1]] } := by
    unfold State.clock
    rw [if_neg (by simpa using due)]
    dsimp only
    rw [List.getElem?_eq_getElem chosen]
    rfl
  refine ⟨_, _, step_of_empty empty, List.getElem_mem chosen, ?_⟩
  rw [turn]
  unfold State.pick
  split <;> rfl

theorem step_of_idle (empty : s.pending = []) (idle : s.due = []) : step s = .next s.tick := by
  rw [step_of_empty empty, State.clock, idle]
  rfl

theorem tick_vch (s : State) (c : Channel) : s.tick.vch.get c = if s.inRun && (s.img.channels.get c).used
    then tickChannel (s.img.channels.get c) (s.vch.get c) else s.vch.get c := channel_get_tabulate _ c

theorem tick_counts {c : Channel} (run : s.cfg.node = .run) (used : (s.img.channels.get c).used = true) :
    s.tick.vch.get c = tickChannel (s.img.channels.get c) (s.vch.get c) := by
  rw [tick_vch, (inRun_iff s).2 run, used]
  rfl

theorem tick_stands {c : Channel} (h : s.cfg.node ≠ .run ∨ (s.img.channels.get c).used = false) :
    s.tick.vch.get c = s.vch.get c := by
  rw [tick_vch, if_neg fun k => ?_]
  rw [Bool.and_eq_true, inRun_iff] at k
  rcases h with out | unused
  · exact out k.1
  · rw [k.2] at unused; cases unused

/-! ## What is due -/

/-- What makes a command due. -/
inductive DueBy where
  | timer | entry | escalation | sound | channel | item | frame | outside

/-- What makes each command due. -/
def dueBy : Instr → DueBy
  | .keyDebounceExpiry | .joinTimerExpiry | .nodeStatusTimerExpiry | .posePeriodExpiry | .limitStatusTimerExpiry
  | .quantumTimerExpiry | .idleDelayExpiry | .recoveryTimerExpiry | .yieldTimerExpiry | .requestTimerExpiry | .ecoSecondExpiry
  | .economyReportTimerExpiry | .svcSecondExpiry | .serviceSummaryTimerExpiry | .recordWriteTimeout | .settleTimerExpiry
  | .noticeSummaryTimerExpiry | .silenceTimerExpiry | .silentHoldExpiry => .timer
  | .lateTimerExpiry _ | .staleTimerExpiry _ | .recoveryWindowExpiry _ | .absenceWatchExpiry _ => .entry
  | .escalationTimerExpiry _ => .escalation
  | .oneShotEnd | .cadencePhaseExpiry => .sound
  | .periodStart _ | .dutyEnd _ => .channel
  | .setFloor | .setFloorAtTip | .setGradeSlope | .clearFloor | .setCeiling | .clearCeiling | .setReach | .clearReach
  | .setSlewLeft | .setSlewRight | .setSlewLeftHere | .setSlewRightHere | .clearSlew | .workMode | .autoIdleEnable
  | .autoIdleDelay | .setProfile | .serviceDone | .noticeInhibit | .noticeAck | .silence | .settingItemUnknown => .item
  | .streamFrameArrival | .holdRequest | .streamStats | .ruleStats | .ruleStatsClear | .itemTable => .frame
  | .powerOnStart | .imageReadDone _ | .recordReadDone _ | .frameReceived _ | .holdEntryExpiry _ | .reremindExpiry _
  | .recordWriteDone _ | .transmitAttemptStart | .transmitSuccess | .arbitrationLost | .transmitFailure | .keyInputChange _ =>
    .outside

theorem dueBy_settingCommand (n : Nat) : dueBy (settingCommand n) = .item := by
  by_cases small : n < 43
  · have table : ∀ n < 43, (match dueBy (settingCommand n) with | .item => true | _ => false) = true := by decide
    have found := table n small
    split at found
    · assumption
    · cases found
  · rw [settingCommand_large (Nat.le_of_not_lt small)]
    rfl

/-- The timers of the blocks, each with the command of its expiry. -/
def blockTimers (s : State) : List (Option Ms × Instr) := [
  (s.cfg.debounce, .keyDebounceExpiry), (s.cfg.joinTimer, .joinTimerExpiry), (s.cfg.statusTimer, .nodeStatusTimerExpiry),
  (s.pose.timer, .posePeriodExpiry), (s.lim.statusTimer, .limitStatusTimerExpiry), (s.hold.quantumTimer, .quantumTimerExpiry),
  (s.eco.delayTimer, .idleDelayExpiry), (s.eco.recoveryTimer, .recoveryTimerExpiry), (s.eco.yieldTimer, .yieldTimerExpiry),
  (s.eco.requestTimer, .requestTimerExpiry), (s.eco.secondTimer, .ecoSecondExpiry),
  (s.eco.reportTimer, .economyReportTimerExpiry), (s.svc.secondTimer, .svcSecondExpiry),
  (s.svc.summaryTimer, .serviceSummaryTimerExpiry), (s.svc.write.map (·.deadline), .recordWriteTimeout),
  (s.ntc.settleTimer, .settleTimerExpiry), (s.ntc.summaryTimer, .noticeSummaryTimerExpiry),
  (s.snd.silence, .silenceTimerExpiry), (s.link.silentHold, .silentHoldExpiry)]

/-- The sounder's own expiries (R168, R171). -/
def soundsDue (s : State) (x : Instr) : Prop :=
  (x = .oneShotEnd ∧ ∃ o d, s.snd.playing = .oneShot o d ∧ reached s.now d = true)
    ∨ x = .cadencePhaseExpiry ∧ ∃ cls p on d, s.snd.playing = .sustained cls p on (some d) ∧ reached s.now d = true

theorem mem_dueTimers {x : Instr} : x ∈ s.dueTimers ↔ (∃ y ∈ blockTimers s, x = y.2 ∧ ∃ d, y.1 = some d ∧ reached s.now d = true)
    ∨ (∃ e ∈ s.streams, x ∈ s.dueStream e)
    ∨ (∃ r ∈ s.ntc.pending, x = .escalationTimerExpiry r.id
        ∧ ∃ d, r.escalationStart.map (fun t => after t s.escalationMs) = some d ∧ reached s.now d = true)
    ∨ soundsDue s x := by
  unfold State.dueTimers soundsDue
  cases playing : s.snd.playing <;>
    simp only [List.mem_append, List.mem_flatMap, mem_dueAt, blockTimers, List.exists_mem_cons_iff, List.not_mem_nil, false_and,
      exists_false, and_false, or_false, reduceCtorEq, Playing.oneShot.injEq, Playing.sustained.injEq, Option.some.injEq,
      exists_eq_left', and_assoc, exists_and_left, false_or] <;>
    exact Eq.to_iff (by ac_rfl)

/-- A command is due by its own cause. -/
def DueFor (s : State) : DueBy → Instr → Prop
  | .timer, x => ∃ y ∈ blockTimers s, x = y.2 ∧ ∃ d, y.1 = some d ∧ reached s.now d = true
  | .entry, x => ∃ e ∈ s.streams, x ∈ s.dueStream e
  | .escalation, x => ∃ r ∈ s.ntc.pending, x = .escalationTimerExpiry r.id
      ∧ ∃ d, r.escalationStart.map (fun t => after t s.escalationMs) = some d ∧ reached s.now d = true
  | .sound, x => soundsDue s x
  | .channel, x => x ∈ s.dueChannels
  | .item, x => ∃ i, s.nextItem = some i ∧ x = settingCommand i.code
  | .frame, x => ∃ o f, (o, x) ∈ frameCommands ∧ s.headFor o = some f
  | .outside, _ => False

theorem dueBy_blockTimers : ∀ y ∈ blockTimers s, dueBy y.2 = .timer := by
  simp only [blockTimers, List.forall_mem_cons]
  simp [dueBy]

theorem dueBy_frameCommands : ∀ y ∈ frameCommands, dueBy y.2 = .frame := by
  simp [frameCommands, dueBy]

theorem mem_due_iff {x : Instr} : x ∈ s.due ↔ DueFor s (dueBy x) x := by
  rw [mem_due, mem_dueTimers, mem_dueFrame]
  constructor
  · rintro ((⟨y, hy, rfl, h⟩ | ⟨e, he, h⟩ | ⟨r, hr, rfl, h⟩ | h) | h | ⟨o, f, hx, h⟩ | ⟨i, hi, rfl⟩)
    · rw [dueBy_blockTimers y hy]
      exact ⟨y, hy, rfl, h⟩
    · have cause : dueBy x = .entry := by
        obtain ⟨-, ⟨-, rfl, -⟩ | ⟨-, rfl, -⟩ | ⟨-, rfl, -⟩ | ⟨-, -, rfl, -⟩⟩ := mem_dueStream.1 h <;> rfl
      rw [cause]
      exact ⟨e, he, h⟩
    · exact ⟨r, hr, rfl, h⟩
    · have cause : dueBy x = .sound := by
        obtain ⟨rfl, -⟩ | ⟨rfl, -⟩ := h <;> rfl
      rw [cause]
      exact h
    · have cause : dueBy x = .channel := by
        obtain ⟨c, -, -, ⟨-, rfl⟩ | ⟨-, rfl⟩⟩ := mem_dueChannels.1 h <;> rfl
      rw [cause]
      exact h
    · rw [dueBy_frameCommands _ hx]
      exact ⟨o, f, hx, h⟩
    · rw [dueBy_settingCommand]
      exact ⟨i, hi, rfl⟩
  · intro h
    cases cause : dueBy x <;> rw [cause] at h
    · exact .inl (.inl h)
    · exact .inl (.inr (.inl h))
    · exact .inl (.inr (.inr (.inl h)))
    · exact .inl (.inr (.inr (.inr h)))
    · exact .inr (.inl h)
    · exact .inr (.inr (.inr h))
    · exact .inr (.inr (.inl h))
    · cases h

theorem blockTimers_inj {y z : Option Ms × Instr} (hy : y ∈ blockTimers s) (hz : z ∈ blockTimers s) (h : y.2 = z.2) : y = z := by
  have once : ((blockTimers s).map (·.2)).Nodup := by
    rw [show (blockTimers s).map (·.2) = (blockTimers State.reset).map (·.2) from rfl]
    decide
  exact List.inj_on_of_nodup_map once hy hz h

/-- An expiry is due where its timer runs and has reached its end. -/
theorem due_blockTimer {y : Option Ms × Instr} (hy : y ∈ blockTimers s) :
    y.2 ∈ s.due ↔ ∃ d, y.1 = some d ∧ reached s.now d = true := by
  rw [mem_due_iff, dueBy_blockTimers y hy]
  constructor
  · rintro ⟨z, hz, same, h⟩
    rw [blockTimers_inj hy hz same]
    exact h
  · exact fun h => ⟨y, hy, rfl, h⟩

theorem due_escalation (id : Nat) : .escalationTimerExpiry id ∈ s.due ↔ ∃ r ∈ s.ntc.pending, r.id = id ∧
    ∃ start, r.escalationStart = some start ∧ reached s.now (after start s.escalationMs) = true := by
  rw [mem_due_iff]
  refine exists_congr fun r => and_congr_right fun _ => ?_
  simp only [Instr.escalationTimerExpiry.injEq, Option.map_eq_some_iff, exists_exists_and_eq_and, eq_comm (a := id), State.escalationMs]

theorem due_entry {x : Instr} (h : dueBy x = .entry) : x ∈ s.due ↔ ∃ e ∈ s.streams, x ∈ s.dueStream e := by
  rw [mem_due_iff, h]
  rfl

theorem due_channel {x : Instr} (h : dueBy x = .channel) : x ∈ s.due ↔ x ∈ s.dueChannels := by
  rw [mem_due_iff, h]
  rfl

theorem due_frame {y : RxOwner × Instr} (hy : y ∈ frameCommands) : y.2 ∈ s.due ↔ ∃ f, s.headFor y.1 = some f := by
  rw [mem_due_iff, dueBy_frameCommands y hy]
  constructor
  · rintro ⟨o, f, hx, h⟩
    have once : (frameCommands.map (·.2)).Nodup := by decide
    rw [← List.inj_on_of_nodup_map once hx hy rfl]
    exact ⟨f, h⟩
  · exact fun ⟨f, h⟩ => ⟨y.1, f, hy, h⟩

theorem due_item {x : Instr} (h : dueBy x = .item) : x ∈ s.due ↔ ∃ i, s.nextItem = some i ∧ settingCommand i.code = x := by
  rw [mem_due_iff, h]
  exact exists_congr fun i => and_congr_right fun _ => eq_comm

theorem due_outside {x : Instr} (h : dueBy x = .outside) : x ∉ s.due := by
  rw [mem_due_iff, h]
  exact not_false

/-- In RUN an entry's timers run (R28). -/
theorem timersRun_of_inRun (run : s.inRun = true) (e : Stream) : s.timersRun e = true := by
  rw [State.inRun] at run
  simp [State.timersRun, State.streamsRun, run]

theorem dueBy_items : ∀ y ∈ answeredItems ++ [(0x29, Instr.noticeAck)], dueBy y.2 = .item := by
  simp [answeredItems, limitItems, dueBy]

/-- Settles O2. -/
theorem everyCommandCompletes : Obligations.EveryCommandCompletes := by
  refine ⟨exec_keeps_queue, fun s => step_of_due, fun s empty idle => ?_, fun now d => ?_, fun s x hx => due_blockTimer hx,
    fun s => ⟨?_, ?_⟩, fun s id => due_escalation id, fun s n => ⟨?_, ?_, ?_, ?_⟩, fun s c => ⟨?_, ?_⟩,
    fun s x hx => due_frame hx, fun s x hx => ?_, fun s => ?_, fun s o f => headFor_eq_some, fun s n i => itemFor_eq_some,
    fun s i => nextItem_eq_some, fun s => ?_⟩
  · refine ⟨_, step_of_idle empty idle, fun h => ⟨if_pos h, if_pos h⟩, fun h => ⟨if_neg (by omega), if_neg (by omega)⟩,
      fun c h => tick_stands h, fun c run used sub => ?_, fun c run used sub count => ?_, fun c run used sub count => ?_, rfl⟩
    · rw [tick_counts run used]
      exact if_pos sub
    · rw [tick_counts run used]
      exact (if_neg (by omega)).trans (if_pos count)
    · rw [tick_counts run used]
      exact (if_neg (by omega)).trans (if_neg (by omega))
  · exact decide_eq_true_iff
  · rw [mem_due_iff]
    simp [dueBy, DueFor, soundsDue]
  · rw [mem_due_iff]
    simp [dueBy, DueFor, soundsDue]
  · rw [due_entry rfl]
    refine exists_congr fun e => and_congr_right fun _ => ?_
    simp only [mem_dueStream, lateEnd, Instr.lateTimerExpiry.injEq, eq_comm (a := n), reduceCtorEq, false_and, and_false, or_false]
    tauto
  · rw [due_entry rfl]
    refine exists_congr fun e => and_congr_right fun _ => ?_
    simp only [mem_dueStream, staleEnd, Instr.staleTimerExpiry.injEq, eq_comm (a := n), reduceCtorEq, false_and, and_false, or_false, false_or]
    tauto
  · rw [due_entry rfl]
    refine exists_congr fun e => and_congr_right fun _ => ?_
    simp only [mem_dueStream, windowEnd, Instr.recoveryWindowExpiry.injEq, eq_comm (a := n), reduceCtorEq, false_and, and_false, or_false, false_or]
    tauto
  · rw [due_entry rfl, ← inRun_iff]
    constructor
    · rintro ⟨e, he, h⟩
      simp only [mem_dueStream, reduceCtorEq, false_and, and_false, false_or, Instr.absenceWatchExpiry.injEq] at h
      obtain ⟨-, state, run, number, h⟩ := h
      exact ⟨run, e, he, number.symm, state, h⟩
    · rintro ⟨run, e, he, number, state, h⟩
      exact ⟨e, he, mem_dueStream.2 ⟨timersRun_of_inRun run e, .inr (.inr (.inr ⟨state, run, congrArg _ number.symm, h⟩))⟩⟩
  · rw [due_channel rfl, mem_dueChannels, ← inRun_iff]
    simp [periodOver]
  · rw [due_channel rfl, mem_dueChannels, ← inRun_iff]
    simp [dutyOver, and_assoc]
  · rw [due_item (dueBy_items x hx)]
    refine exists_congr fun i => ?_
    rw [settingCommand_eq_iff _ hx, itemFor_eq_some]
  · rw [due_item rfl]
    refine exists_congr fun i => and_congr_right fun _ => settingCommand_unknown _
  · exact ⟨due_outside rfl, fun _ => due_outside rfl, fun _ => due_outside rfl, fun _ => due_outside rfl, fun _ => due_outside rfl,
      fun _ => due_outside rfl, fun _ => due_outside rfl, due_outside rfl, due_outside rfl, due_outside rfl, due_outside rfl,
      fun _ => due_outside rfl⟩

end Sys2Proof.Laws
end

section
/-! CFG: the key and the node states that it gives, the image and the record as they are judged and taken. -/

namespace Sys2Proof.Laws

open Sys2Proof.Machine Relation

-- Many short proofs at once would each hold a thread of the checking process.
set_option Elab.async false

variable {s t : State}

/-! ## The key -/

/-- The part at the end of the debounce, the debounced key taken. -/
def keyTaken (s : State) (d : Ms) : State := { s.arriveAt d with cfg := { s.cfg with key := s.cfg.keyPin, debounce := none } }

theorem keyTaken_key (s : State) (d : Ms) : (keyTaken s d).cfg.key = s.cfg.keyPin := rfl

theorem keyDebounceExpiry_eq {d : Ms} (h : s.cfg.debounce = some d) : exec .keyDebounceExpiry s = .next (keyTaken s d).keyEvent := by
  show execKeyDebounceExpiry s = _
  unfold execKeyDebounceExpiry keyTaken State.onCfg
  rw [h]
  dsimp only
  rw [arriveAt_cfg]

theorem keyEvent_join (node : s.cfg.node = .join) : s.keyEvent = if s.cfg.key then s else s.enterQuiet := by
  rw [State.keyEvent, node]

theorem keyEvent_run (node : s.cfg.node = .run) : s.keyEvent = if s.cfg.key then s else s.leaveRun := by
  rw [State.keyEvent, node]

theorem keyEvent_quiet (node : s.cfg.node = .quiet) : s.keyEvent = if s.cfg.key then s.enterJoin else s := by
  rw [State.keyEvent, node]

theorem keyEvent_other (run : s.cfg.node ≠ .run) (join : s.cfg.node ≠ .join) (quiet : s.cfg.node ≠ .quiet) : s.keyEvent = s := by
  unfold State.keyEvent
  split
  · rename_i node; exact absurd node join
  · rename_i node; exact absurd node run
  · rename_i node; exact absurd node quiet
  all_goals rfl

theorem leaveRun_cfg (s : State) : s.leaveRun.cfg = { s.cfg with node := .store } := (requestWrite_touches _).cfg rfl

theorem enterJoin_cfg (s : State) : s.enterJoin.cfg =
    { s.cfg with node := .join, joinTimer := some (after s.now 200), statusTimer := none } := rfl

theorem enterQuiet_cfg (s : State) : s.enterQuiet.cfg =
    { s.cfg with node := .quiet, joinTimer := none, statusTimer := some (after s.now 5000) } := (enterQuiet_enters s).1

/-- A key event changes the node and its timers in CFG, and nothing where the node stays. -/
theorem keyEvent_cfg (s : State) : (∃ n j d, s.keyEvent.cfg = { s.cfg with node := n, joinTimer := j, statusTimer := d })
    ∧ (s.keyEvent.cfg.node = s.cfg.node → s.keyEvent = s) := by
  unfold State.keyEvent
  split
  · rename_i node
    split
    · exact ⟨⟨_, _, _, rfl⟩, fun _ => rfl⟩
    · rw [enterQuiet_cfg, node]
      exact ⟨⟨_, _, _, rfl⟩, nofun⟩
  · rename_i node
    split
    · exact ⟨⟨_, _, _, rfl⟩, fun _ => rfl⟩
    · rw [leaveRun_cfg, node]
      exact ⟨⟨_, _, _, rfl⟩, nofun⟩
  · rename_i node
    split
    · rw [enterJoin_cfg, node]
      exact ⟨⟨_, _, _, rfl⟩, nofun⟩
    · exact ⟨⟨_, _, _, rfl⟩, fun _ => rfl⟩
  all_goals exact ⟨⟨_, _, _, rfl⟩, fun _ => rfl⟩

/-- Settles O4. -/
theorem keyMovesNode : Obligations.KeyMovesNode := by
  refine ⟨fun s level h => congrArg Host.Outcome.next (if_neg h), fun s => congrArg Host.Outcome.next (if_pos rfl),
    fun s d debounce => ⟨_, keyDebounceExpiry_eq debounce, ?_⟩⟩
  obtain ⟨⟨n, j, st, cfg⟩, stays⟩ := keyEvent_cfg (keyTaken s d)
  refine ⟨by rw [cfg]; rfl, by rw [cfg]; rfl, by rw [cfg]; rfl, by rw [cfg]; rfl, by rw [cfg]; rfl, fun node => ?_, fun node => ?_,
    fun node => ?_, fun run join quiet => ?_, fun node pin => ?_, ?_⟩
  · rw [keyEvent_run (s := keyTaken s d) node]
    rw [keyTaken_key]
    split
    · exact node
    · rw [leaveRun_cfg]
  · rw [keyEvent_join (s := keyTaken s d) node]
    rw [keyTaken_key]
    split
    · exact node
    · rw [enterQuiet_cfg]
  · rw [keyEvent_quiet (s := keyTaken s d) node]
    rw [keyTaken_key]
    split
    · rw [enterJoin_cfg]
    · exact node
  · rw [keyEvent_other (s := keyTaken s d) run join quiet]
    rfl
  · rw [keyEvent_quiet (s := keyTaken s d) node, keyTaken_key, if_pos pin]
    obtain ⟨e, -⟩ := enterJoin_enters (keyTaken s d)
    rw [e]
    refine ⟨rfl, rfl, rfl, rfl, rfl, rfl, rfl, congrArg (fun e : Eco => { e with grant := .none }) (arriveAt_eco s d), fun e he => ?_⟩
    · obtain ⟨x, -, rfl⟩ := List.mem_map.1 he
      exact ⟨rfl, rfl, rfl⟩
  · rintro u rfl
    refine ⟨fun node pin => ?_, fun node pin => ?_, stays⟩
    · rw [keyEvent_join (s := keyTaken s d) node, keyTaken_key, if_neg (by rw [pin]; decide)]
      exact enterQuiet_enters (keyTaken s d)
    · rw [keyEvent_quiet (s := keyTaken s d) node, keyTaken_key, if_pos pin]
      exact enterJoin_enters _

/-! ## Leaving RUN -/

/-- The part as every block has left RUN, before the record write is requested. -/
def runLeft (s : State) : State :=
  { s with
    cfg := { s.cfg with node := .store }
    pose := leavePose s.pose
    streams := s.streams.map freezeEntry
    stmReply := none
    lim := restLim s.lim
    rule := leaveRule s.rule
    hold := ⟨[], none, none⟩
    vch := emptyChannels s.img
    eco := leaveEco s.img.economy s.svc.derate s.eco
    svc := leaveSvc s.svc
    ntc := leaveNtc s.img.notices.busyFlag s.ntc
    snd := sndClear s.snd
    link := emptyClasses s.link }

theorem leaveRun_eq (s : State) : s.leaveRun = (runLeft s).requestWrite := rfl

theorem leaveRun_svc (s : State) : s.leaveRun.svc = { leaveSvc s.svc with write := s.leaveRun.svc.write, again := s.leaveRun.svc.again } := by
  rw [leaveRun_eq, State.requestWrite]
  split <;> rfl

/-- The record write that the departure starts has the snapshot of the part as it was in RUN (R149, R151). -/
theorem leaveRun_write (s : State) : (s.svc.write = none → s.leaveRun.svc.write = some ⟨recordBlock s, after s.now 50⟩)
    ∧ ∀ w, s.svc.write = some w → s.leaveRun.svc.write = some w ∧ s.leaveRun.svc.again = true := by
  have write : (runLeft s).svc.write = s.svc.write := rfl
  rw [leaveRun_eq, State.requestWrite, write]
  refine ⟨fun none => ?_, fun w some => ?_⟩
  · rw [none]
    rfl
  · rw [some]
    exact ⟨write.trans some, rfl⟩

theorem recordBlock_keyTaken (s : State) (d : Ms) : recordBlock (keyTaken s d) = recordBlock s := by
  unfold keyTaken State.arriveAt
  split <;> rfl

/-- Settles O5. -/
theorem leavingRunStops : Obligations.LeavingRunStops := by
  intro s d node debounce pin
  refine ⟨_, keyDebounceExpiry_eq debounce, ?_⟩
  rw [keyEvent_run (s := keyTaken s d) node, keyTaken_key, pin, if_neg (by decide)]
  have touched := requestWrite_touches (runLeft (keyTaken s d))
  rw [← leaveRun_eq] at touched
  have arrived := arriveAt_touches s d
  obtain ⟨write, again⟩ := leaveRun_write (keyTaken s d)
  rw [recordBlock_keyTaken] at write
  refine ⟨by rw [leaveRun_cfg], fun c => ?_, unitsRest_of_asleep (leaveRun_asleep _), ?_⟩
  · rw [touched.vch rfl]
    exact emptyChannels_rest _ c
  rw [leaveRun_svc, touched.link rfl, touched.lim rfl, touched.rule rfl, touched.eco rfl, touched.ntc rfl, touched.snd rfl]
  have eco : (keyTaken s d).eco = s.eco := arrived.eco rfl
  have svc : (keyTaken s d).svc = s.svc := arrived.svc rfl
  have lim : (keyTaken s d).lim = s.lim := arrived.lim rfl
  have rule : (keyTaken s d).rule = s.rule := arrived.rule rfl
  have ntc : (keyTaken s d).ntc = s.ntc := arrived.ntc rfl
  have snd : (keyTaken s d).snd = s.snd := arrived.snd rfl
  rw [svc] at write again
  exact ⟨rfl, rfl, rfl, rfl, congrArg (·.set) lim, congrArg (·.profile) rule, congrArg (·.hits) rule, congrArg (·.mode) eco,
    congrArg (·.autoIdle) eco, congrArg (·.delay) eco, congrArg (·.fuelTotal) eco, congrArg (·.fuelRem) eco,
    congrArg (·.engineSeconds) svc, congrArg (·.weighted) svc, congrArg (·.cycles) svc, congrArg (·.unaccounted) svc,
    congrArg (·.items) svc, congrArg (·.logCount) ntc, congrArg (·.dropped) snd, write, again⟩

end Sys2Proof.Laws
end

section
/-! The configuration image: how it is judged, brought into range and taken. -/

namespace Sys2Proof.Laws

open Sys2Proof.Machine Relation

-- Many short proofs at once would each hold a thread of the checking process.
set_option Elab.async false

variable {s t : State}

/-! ## The checks -/

/-- The code of the first failing check of a list. -/
theorem firstFailure_cons (c : FaultCode) (p : Bool) (checks : List (FaultCode × Bool)) :
    (((c, p) :: checks).find? fun x => x.2).map (·.1) = if p = true then some c else (checks.find? fun x => x.2).map (·.1) := by
  cases p <;> rfl

theorem judgeImage_eq_first (i : ImageRead) : judgeImage (some i) = ((([
    (.crc, crcFails i), (.version, versionFails i), (.geometry, geometryFails i.image.geometry),
    (.subscription, subscriptionFails i.image.subscriptions), (.thresholds, thresholdsFail i.image.zones),
    (.rule, ruleFails i.image), (.channel, Channel.all.any fun c => channelFails (i.image.channels.get c)),
    (.economy, economyFails i.image.economy), (.service, serviceFails i.image.service)] : List (FaultCode × Bool)).find?
      fun x => x.2).map fun x => x.1) := by
  simp only [firstFailure_cons]
  rfl

/-! ## Values brought into range -/

theorem clampInt_eq {lo hi : Int} (v : Int) (h : lo ≤ hi) : clampInt lo hi v = max lo (min hi v) := by
  unfold clampInt
  split
  · omega
  · split <;> omega

theorem rangeBand_eq (b : Band) : rangeBand b = ⟨max 100 (min 3000 b.b), max 0 (min 200 b.aStop)⟩ := by
  rw [rangeBand, clampInt_eq _ (by decide), clampInt_eq _ (by decide)]

theorem rangeImage_eq (im : Image) : rangeImage im = { im with
      limits := { im.limits with
        floor := rangeBand im.limits.floor, ceiling := rangeBand im.limits.ceiling, reach := rangeBand im.limits.reach
        slew := rangeBand im.limits.slew
        slopeMin := max (-500) (min 0 im.limits.slopeMin), slopeMax := max 0 (min 500 im.limits.slopeMax) }
      holds := { im.holds with tmax := max 100 (min 6000 im.holds.tmax) }
      channels := (rangeImage im).channels
      economy := { im.economy with
        modePump := (rangeImage im).economy.modePump, warmUp := max (-40) (min 60 im.economy.warmUp)
        tolerance := max 20 (min 300 im.economy.tolerance), recoveryTimeout := max 1 (min 10 im.economy.recoveryTimeout)
        yieldConfirm := max 200 (min 5000 im.economy.yieldConfirm), runThreshold := max 300 (min 800 im.economy.runThreshold) }
      service := { im.service with remind := max 600 (min 65535 im.service.remind) }
      notices := { im.notices with escalationMinutes := max 10 (min 120 im.notices.escalationMinutes) } } := by
  simp only [← clampInt_eq _ (show (-500 : Int) ≤ 0 by decide), ← clampInt_eq _ (show (0 : Int) ≤ 500 by decide),
    ← clampInt_eq _ (show (-40 : Int) ≤ 60 by decide), ← clampInt_eq _ (show (20 : Int) ≤ 300 by decide),
    ← clampInt_eq _ (show (1 : Int) ≤ 10 by decide), ← clampInt_eq _ (show (200 : Int) ≤ 5000 by decide),
    ← clampInt_eq _ (show (300 : Int) ≤ 800 by decide), ← clampInt_eq _ (show (600 : Int) ≤ 65535 by decide),
    ← clampInt_eq _ (show (10 : Int) ≤ 120 by decide)]
  rfl

theorem rangeImage_modePump (im : Image) (m : WorkMode) :
    (rangeImage im).economy.modePump.get m = max 20 (min 100 (im.economy.modePump.get m)) := by
  rw [← clampInt_eq _ (by decide)]
  cases m <;> rfl

theorem rangeImage_channel (im : Image) (c : Channel) : (rangeImage im).channels.get c = rangeChannel (im.channels.get c) :=
  channel_get_tabulate _ c

theorem rangeChannel_used (c : ChannelConfig) : (rangeChannel c).used = c.used := by
  unfold rangeChannel
  split
  · rfl
  · rename_i unused
    exact (Bool.eq_false_iff.2 unused).symm

/-! ## The tables of an image -/

/-- In a list whose numbers differ, a number finds its member in the list by order. -/
theorem find_inOrder {α : Type} {number : α → Nat} {xs : List α} {limit : Nat} (once : (xs.map number).Nodup) {x : α} (mem : x ∈ xs)
    (small : number x < limit) : ((inOrder limit number xs).find? fun y => number y == number x) = some x := by
  have found : xs.find? (fun y => number y == number x) = some x := by
    cases h : xs.find? fun y => number y == number x with
    | none => exact absurd (List.find?_eq_none.1 h x mem) (by simp)
    | some y =>
      have same := List.find?_some h
      rw [List.inj_on_of_nodup_map once (List.mem_of_find?_eq_some h) mem (by simpa using same)]
  cases h : (inOrder limit number xs).find? fun y => number y == number x with
  | none =>
    have listed : x ∈ inOrder limit number xs := List.mem_filterMap.2 ⟨number x, List.mem_range.2 small, found⟩
    exact absurd (List.find?_eq_none.1 h x listed) (by simp)
  | some y =>
    obtain ⟨n, -, hn⟩ := List.mem_filterMap.1 (List.mem_of_find?_eq_some h)
    have same := List.find?_some h
    rw [List.inj_on_of_nodup_map once (List.mem_of_find?_eq_some hn) mem (by simpa using same)]

theorem newStreams_find {im : Image} (once : (im.subscriptions.map (·.number)).Nodup) {x : Subscription}
    (mem : x ∈ im.subscriptions) (small : x.number < 12) :
    ((newStreams im).find? fun e => e.number == x.number) = some (newStream x) := by
  unfold newStreams
  rw [List.find?_map]
  exact congrArg (Option.map newStream) (find_inOrder once mem small)

theorem newItems_find {im : Image} (once : (im.service.items.map (·.number)).Nodup) {x : ItemConfig}
    (mem : x ∈ im.service.items) (small : x.number < 17) :
    ((newItems im).find? fun i => (i.config.number : Int) == x.number) = some ⟨x, 0, .ok, none⟩ := by
  unfold newItems
  rw [List.find?_map]
  have same : ((fun i : ServiceItem => (i.config.number : Int) == x.number) ∘ fun c => ⟨c, 0, .ok, none⟩)
      = fun y : ItemConfig => y.number == x.number := by
    funext y
    simp
  rw [same, find_inOrder (number := fun y : ItemConfig => y.number) once mem small]
  rfl

/-! ## The obligations -/

/-! ## What the checks say -/

theorem crc_sound {r : ImageRead} (h : crcFails r = false) : r.length ≤ 4096 ∧ r.needed ≤ r.length ∧ crcHolds r.bytes = true := by
  simpa [crcFails, and_assoc] using h

theorem version_sound {r : ImageRead} (h : versionFails r = false) :
    r.version = 1 ∧ r.image.nodeAddress ≤ 0xFD ∧ r.image.bitRate.isSome = true := by
  simp only [versionFails, Bool.or_eq_false_iff, bne_eq_false_iff_eq, decide_eq_false_iff_not, Nat.not_lt] at h
  obtain ⟨⟨version, rate⟩, address⟩ := h
  exact ⟨version, address, by simpa using rate⟩

theorem geometry_within {g : Geometry} (h : geometryFails g = false) :
    (500 ≤ g.l1 ∧ g.l1 ≤ 15000) ∧ (500 ≤ g.l2 ∧ g.l2 ≤ 15000) ∧ (500 ≤ g.l3 ∧ g.l3 ≤ 15000) ∧ g.l1 + g.l2 + g.l3 ≤ 28000
      ∧ (-2000 ≤ g.xf ∧ g.xf ≤ 2000) ∧ (0 ≤ g.zf ∧ g.zf ≤ 4000) := by
  simp only [geometryFails, Bool.not_eq_false', Bool.and_eq_true, within_iff, decide_eq_true_eq] at h
  obtain ⟨⟨⟨⟨⟨l1, l2⟩, l3⟩, total⟩, xf⟩, zf⟩ := h
  exact ⟨l1, l2, l3, total, xf, zf⟩

theorem subscription_sound {es : List Subscription} (h : subscriptionFails es = false) :
    (∀ x ∈ requiredRoles, ∃ e ∈ es, e.role = x) ∧ (es.map (·.role)).Nodup ∧ (es.map fun e => (e.source, e.kind)).Nodup
      ∧ ∀ e ∈ es, 10 ≤ e.period ∧ e.period ≤ 1000 ∧ 3 ≤ e.staleMult ∧ e.staleMult ≤ 20 := by
  simp only [subscriptionFails, Bool.not_eq_false', Bool.and_eq_true, decide_eq_true_eq, List.all_eq_true, List.any_eq_true,
    beq_iff_eq] at h
  obtain ⟨⟨⟨roles, once⟩, apart⟩, timing⟩ := h
  refine ⟨roles, once, apart, fun e he => ?_⟩
  obtain ⟨period, mult⟩ := timing e he
  exact ⟨period.1, period.2, mult⟩

theorem rising_iff_pairwise : ∀ xs : List Int, rising xs = true ↔ xs.Pairwise (· < ·)
  | [] => by simp [rising]
  | [a] => by simp [rising]
  | a :: b :: rest => by
    rw [rising, Bool.and_eq_true, rising_iff_pairwise (b :: rest), decide_eq_true_eq, List.pairwise_cons (a := a)]
    refine ⟨fun ⟨low, tail⟩ => ⟨fun c hc => ?_, tail⟩, fun ⟨low, tail⟩ => ⟨low b List.mem_cons_self, tail⟩⟩
    rcases List.mem_cons.1 hc with rfl | hc
    · exact low
    · exact low.trans (List.rel_of_pairwise_cons tail hc)

theorem thresholds_sound {z : Zones} (h : thresholdsFail z = false) :
    z.height.Pairwise (· < ·) ∧ z.reach.Pairwise (· < ·) ∧ z.slew.Pairwise (· < ·) := by
  simpa only [thresholdsFail, Bool.not_eq_false', Bool.and_eq_true, rising_iff_pairwise, and_assoc] using h

theorem actions_sound {idle : Nat} {a : RuleActions} (h : actionsFail idle a = false) : (∀ n ∈ a.speedCap, idle ≤ n)
    ∧ (∀ n ∈ a.pumpCap, n ≤ 100) ∧ a.sound ≠ some none ∧ ∀ c : Channel, ∀ n ∈ a.cuts.get c, n ≤ 1000 := by
  refine ⟨?_, ?_, ?_, actionsFail_perMille h⟩ <;> simp only [actionsFail, Bool.or_eq_false_iff] at h <;>
    obtain ⟨⟨⟨speed, -⟩, pump⟩, sound⟩ := h
  · intro n hn
    rw [Option.mem_def] at hn
    simpa [hn] using speed
  · intro n hn
    rw [Option.mem_def] at hn
    simpa [hn] using pump
  · simpa using sound

theorem channel_sound {c : ChannelConfig} (h : channelFails c = false) (used : c.used = true) :
    c.modulus ∈ [256, 128, 64, 32] ∧ c.countTime ∈ [1, 2, 4, 8] ∧ 1 ≤ c.release ∧ c.release ≤ c.modulus ∧ c.fail ≤ 1000 := by
  simp only [channelFails, used, Bool.true_and, Bool.not_eq_false', Bool.and_eq_true, List.contains_iff_mem, decide_eq_true_eq] at h
  obtain ⟨⟨⟨modulus, time⟩, release⟩, fail⟩ := h
  exact ⟨modulus, time, release.1, release.2, fail⟩

theorem economy_sound {e : EcoConfig} (h : economyFails e = false) : (800 ≤ e.idleSpeed ∧ e.idleSpeed ≤ 1200)
    ∧ (∀ m : WorkMode, 1000 ≤ e.modeSpeed.get m ∧ e.modeSpeed.get m ≤ 2300 ∧ e.idleSpeed ≤ e.modeSpeed.get m)
    ∧ e.engineAddress ≠ 0xFE ∧ e.engineAddress ≠ 0xFF := by
  simp only [economyFails, Bool.not_eq_false', Bool.and_eq_true, within_iff, List.all_eq_true, decide_eq_true_eq, bne_iff_ne] at h
  obtain ⟨⟨⟨idle, modes⟩, fe⟩, ff⟩ := h
  refine ⟨by omega, fun m => ?_, fe, ff⟩
  have listed : e.modeSpeed.get m ∈ e.modeSpeed.toList := by cases m <;> simp [PerMode.get, PerMode.toList]
  obtain ⟨range, floor⟩ := modes _ listed
  omega

theorem service_sound {v : ServiceConfig} (h : serviceFails v = false) : v.digLevel < v.liftLevel ∧ (1 ≤ v.minSwing ∧ v.minSwing ≤ 32768)
    ∧ v.items.length ≤ 16 ∧ (v.items.map (·.number)).Nodup
    ∧ ∀ i ∈ v.items, 1 ≤ i.number ∧ i.number ≤ 16 ∧ i.lead < i.interval ∧ i.basis.isSome = true := by
  simp only [serviceFails, Bool.or_eq_false_iff, decide_eq_false_iff_not, Bool.not_eq_false', within_iff, decide_eq_true_eq,
    List.any_eq_false, Bool.or_eq_true, not_or, Bool.not_eq_true, Int.not_le, Nat.not_lt] at h
  obtain ⟨⟨⟨⟨level, swing⟩, room⟩, once⟩, items⟩ := h
  refine ⟨level, by omega, room, once, fun i hi => ?_⟩
  obtain ⟨⟨⟨number, -⟩, lead⟩, basis⟩ := items i hi
  exact ⟨by omega, by omega, Nat.not_le.1 lead, by simpa using basis⟩

/-- Settles O7. -/
theorem acceptedImageIsSound : Obligations.AcceptedImageIsSound := by
  intro r h
  obtain ⟨crc, version, geometry, subscription, thresholds, rule, channels, economy, service⟩ := judgeImage_none h
  obtain ⟨v1, address, rate⟩ := version_sound version
  obtain ⟨length, needed, holds⟩ := crc_sound crc
  obtain ⟨l1, l2, l3, total, xf, zf⟩ := geometry_within geometry
  obtain ⟨roles, once, apart, timing⟩ := subscription_sound subscription
  obtain ⟨height, reach, slew⟩ := thresholds_sound thresholds
  obtain ⟨rules, default⟩ := Bool.or_eq_false_iff.1 rule
  obtain ⟨idle, modes, fe, ff⟩ := economy_sound economy
  obtain ⟨level, swing, room, numbers, items⟩ := service_sound service
  refine ⟨v1, address, rate, length, needed, holds, l1, l2, l3, total, xf, zf, roles, once, apart, timing, height, reach, slew,
    fun a ha => ?_, fun c => channel_sound (channels c), idle, modes, fe, ff, level, swing.1, swing.2, room, numbers, items⟩
  rcases List.mem_cons.1 ha with rfl | ha
  · exact actions_sound default
  · obtain ⟨slot, mem, rfl⟩ := List.mem_map.1 ha
    exact actions_sound (Bool.eq_false_iff.2 (List.any_eq_false.1 rules slot mem))

/-! ## The image read -/

theorem faultBus_allowed {i : ImageRead} {b : BitRate} (address : i.image.nodeAddress ≤ 0xFD) (rate : i.image.bitRate = some b) :
    faultBus (some i) = (BitVec.ofNat 8 i.image.nodeAddress, b) := by
  unfold faultBus
  dsimp only
  rw [rate]
  exact if_pos address

theorem faultBus_default {r : Option ImageRead} (h : ∀ i, r = some i → 0xFD < i.image.nodeAddress ∨ i.image.bitRate = none) :
    faultBus r = (0xFD, .kbit250) := by
  unfold faultBus
  split
  · rename_i i
    split
    · rename_i b rate
      refine if_neg fun address => ?_
      rcases h i rfl with large | none
      · omega
      · rw [none] at rate; cases rate
    · rfl
  · rfl

theorem imageReadDone_refused {r : Option ImageRead} {c : FaultCode} (node : s.cfg.node = .startRead) (h : judgeImage r = some c) :
    exec (.imageReadDone r) s = .next (s.refuseImage r c) := by
  show execImageReadDone r s = _
  unfold execImageReadDone
  rw [if_pos node, h]

theorem imageReadDone_accepted {i : ImageRead} (node : s.cfg.node = .startRead) (h : judgeImage (some i) = none) :
    exec (.imageReadDone (some i)) s = .next (s.acceptImage i.image) := by
  show execImageReadDone (some i) s = _
  unfold execImageReadDone
  rw [if_pos node, h]

theorem newStreams_mem {im : Image} {e : Stream} (h : e ∈ newStreams im) : e.state = .neverSeen ∧ e.gaps = 0 ∧ e.malformed = 0 := by
  obtain ⟨x, -, rfl⟩ := List.mem_map.1 h
  exact ⟨rfl, rfl, rfl⟩

theorem newItems_mem {im : Image} {i : ServiceItem} (h : i ∈ newItems im) : i.lastDone = 0 ∧ i.state = .ok := by
  obtain ⟨x, -, rfl⟩ := List.mem_map.1 h
  exact ⟨rfl, rfl⟩

/-- Settles O6. -/
theorem imageReadJudged : Obligations.ImageReadJudged := by
  refine ⟨judgeImage_eq_first, rangeImage_eq, rangeBand_eq, rangeImage_modePump, fun im c => ⟨fun used => ?_, fun unused => ?_⟩,
    fun s r node => ?_⟩
  · rw [rangeImage_channel, rangeChannel, if_pos used]
  · rw [rangeImage_channel, rangeChannel_used, unused]
  cases judged : judgeImage r with
  | some c =>
    refine ⟨_, imageReadDone_refused node judged, fun c' e => ?_, (fun _ _ e => nomatch e), fun e => by subst e; exact judged.symm⟩
    cases e
    refine ⟨rfl, rfl, rfl, rfl, rfl, fun i b e address rate => ?_, fun h => ?_⟩
    · subst e
      have bus := faultBus_allowed address rate
      exact ⟨congrArg Prod.fst bus, congrArg (fun x : Byte × BitRate => some x.2) bus⟩
    · have bus := faultBus_default h
      exact ⟨congrArg Prod.fst bus, congrArg (fun x : Byte × BitRate => some x.2) bus⟩
  | none =>
    match r with
    | none => cases judged
    | some i =>
      refine ⟨_, imageReadDone_accepted node judged, (fun _ e => nomatch e), fun i' e _ => ?_, (fun e => nomatch e)⟩
      cases e
      obtain ⟨-, -, -, -, -, -, -, -, service⟩ := judgeImage_none judged
      obtain ⟨-, -, -, numbers, items⟩ := service_sound service
      refine ⟨rfl, rfl, rfl, rfl, rfl, rfl, rfl, rfl, rfl, rfl, fun c => ⟨emptyChannels_rest _ c, ?_⟩,
        fun once x mem small => newStreams_find once mem small, fun x mem => ?_, fun e => newStreams_mem, fun x => newItems_mem, rfl⟩
      · show ((emptyChannels (rangeImage i.image)).get c).state = _
        rw [emptyChannels_get, rangeImage_channel, rangeChannel_used]
        rfl
      · obtain ⟨-, small, -, -⟩ := items x mem
        exact newItems_find (im := rangeImage i.image) numbers mem (Nat.lt_succ_of_le small)

end Sys2Proof.Laws
end

section
/-! The service record: what a read of it gives, and that a stored one reads back. -/

namespace Sys2Proof.Laws

open Sys2Proof.Machine Relation

-- Many short proofs at once would each hold a thread of the checking process.
set_option Elab.async false

variable {s t : State}

/-! ## The evaluation of the items outside RUN -/

theorem raiseItem_out (h : s.inRun = false) (i : ServiceItem) : s.raiseItem i = s := by
  unfold State.raiseItem
  split
  · rfl
  · exact raiseNotice_out h _ _ _

theorem formDerate_out (h : s.inRun = false) : s.formDerate = s.onSvc fun v => { v with derate := derateOf v.items } := by
  unfold State.formDerate
  dsimp only
  split
  · rename_i same
    show s = { s with svc := { s.svc with derate := derateOf s.svc.items } }
    rw [same]
  · exact derateEvent_out h

/-- Outside RUN an evaluation tells no block (R145, R147). -/
theorem evaluate_out (h : s.inRun = false) (p : ServiceItem → Bool) : s.evaluate p = s.onSvc fun v => { v with
    items := v.items.map fun i => if p i then evaluated v i else i
    derate := derateOf (v.items.map fun i => if p i then evaluated v i else i) } := by
  have silent : ∀ (is : List ServiceItem) (f : ServiceItem → ServiceItem) (u : State), u.inRun = false →
      is.foldl (fun t i => t.raiseItem (f i)) u = u := by
    intro is f u out
    induction is with
    | nil => rfl
    | cons i is ih =>
      rw [List.foldl_cons, raiseItem_out out]
      exact ih
  unfold State.evaluate
  dsimp only
  rw [silent _ _ _ (show (s.onSvc _).inRun = false from h), formDerate_out (s := s.onSvc _) h]
  rfl

/-! ## A record read -/

/-- The record's values taken, its items evaluated and ECO's target formed. -/
def recordTaken (s : State) (block : Option (List Byte)) : State :=
  let v := s.takeRecord (recordOf block s.img.defaults) (judgeRecord block)
  let v := v.onSvc fun w => { w with items := w.items.map (evaluated w), derate := derateOf (w.items.map (evaluated w)) }
  v.onEco fun e => { e with target := e.formTarget s.img.economy v.svc.derate }

theorem recordReadDone_eq (block : Option (List Byte)) (node : s.cfg.node = .recordRead) :
    exec (.recordReadDone block) s = .next (recordTaken s block).joinOrQuiet := by
  have out : (s.takeRecord (recordOf block s.img.defaults) (judgeRecord block)).inRun = false := by
    show (s.cfg.node == .run) = false
    rw [node]
    rfl
  show Host.Outcome.next (if s.cfg.node = .recordRead then s.endRecordRead block else s) = _
  rw [if_pos node, State.endRecordRead]
  rw [evaluate_out out]
  rfl

/-- The entry that the key gives changes of what the record gave only ECO's grant (R39, R185, R188). -/
theorem joinOrQuiet_keeps (v : State) : v.joinOrQuiet.rule = v.rule ∧ v.joinOrQuiet.svc = v.svc
    ∧ (∃ g, v.joinOrQuiet.eco = { v.eco with grant := g })
    ∧ v.joinOrQuiet.cfg.recordLost = v.cfg.recordLost ∧ v.joinOrQuiet.cfg.node = (if v.cfg.key then .join else .quiet)
    ∧ v.joinOrQuiet = { v with
        cfg := v.joinOrQuiet.cfg, streams := v.joinOrQuiet.streams, lim := v.joinOrQuiet.lim, eco := v.joinOrQuiet.eco
        link := v.joinOrQuiet.link } := by
  unfold State.joinOrQuiet
  split
  · exact ⟨rfl, rfl, ⟨_, rfl⟩, rfl, rfl, rfl⟩
  · obtain ⟨cfg, rest, -⟩ := enterQuiet_enters v
    have streams : v.enterQuiet.streams = v.streams := by rw [rest]
    have lim : v.enterQuiet.lim = v.lim := by rw [rest]
    have eco : v.enterQuiet.eco = v.eco := by rw [rest]
    rw [streams, lim, eco]
    exact ⟨by rw [rest], by rw [rest], ⟨v.eco.grant, rfl⟩, by rw [cfg], by rw [cfg], rest⟩

theorem recordOf_accepted {b : List Byte} (h : judgeRecord (some b) = none) (d : SettingsBlock) :
    recordOf (some b) d = readRecord b := by
  unfold recordOf
  rw [h]

theorem recordOf_lost {block : Option (List Byte)} (h : judgeRecord block ≠ none) (d : SettingsBlock) :
    recordOf block d = lostRecord d := by
  unfold recordOf
  split
  · rename_i accepted
    exact absurd accepted h
  · rfl

theorem joinOrQuiet_lim {v : State} (rest : v.lim = restLim v.lim) : v.joinOrQuiet.lim = v.lim := by
  unfold State.joinOrQuiet
  split
  · exact rest.symm
  · obtain ⟨-, e, -⟩ := enterQuiet_enters v
    rw [e]

/-- What the blocks hold of the record's data (R41, R75, R115, R132, R134, R137, R143). -/
theorem recordTaken_values {block : Option (List Byte)} {d : RecordData} (h : recordOf block s.img.defaults = d) {v : State}
    (hv : v = recordTaken s block) :
    (v.svc.engineSeconds = d.engineSeconds ∧ v.svc.weighted = d.weighted ∧ v.svc.cycles = d.cycles
        ∧ v.svc.unaccounted = d.unaccounted)
      ∧ (v.eco.fuelTotal = d.fuelTotal ∧ v.eco.fuelRem = d.fuelRem ∧ v.eco.mode = takeMode d.settings.mode
        ∧ v.eco.delay = takeDelay d.settings.delay ∧ v.eco.autoIdle = takeEnable d.settings.autoIdle)
      ∧ v.lim.set = takeLimitSet s.img.limits d.settings.limits ∧ v.rule.profile = takeProfile d.settings.profile
      ∧ ∀ i ∈ v.svc.items, i.lastDone = d.lastDone i.config.number := by
  subst h hv
  refine ⟨⟨rfl, rfl, rfl, rfl⟩, ⟨rfl, rfl, rfl, rfl, rfl⟩, rfl, rfl, fun i hi => ?_⟩
  obtain ⟨x, hx, rfl⟩ := List.mem_map.1 hi
  obtain ⟨y, -, rfl⟩ := List.mem_map.1 hx
  rfl

/-- Settles O8. -/
theorem recordReadTaken : Obligations.RecordReadTaken := by
  intro s block node
  refine ⟨_, recordReadDone_eq block node, ?_⟩
  generalize hv : recordTaken s block = v
  obtain ⟨rule, svc, ⟨g, eco⟩, lost, key, rest⟩ := joinOrQuiet_keeps v
  have lim : v.joinOrQuiet.lim = v.lim := joinOrQuiet_lim (by subst hv; rfl)
  refine ⟨?_, ?_, fun b e accepted => ?_, fun refused => ?_, ⟨by decide, by decide, fun n h => if_pos h, takeProfile_range⟩,
    ?_, ?_, fun i hi => ?_, ?_, ?_, ?_, ?_, fun l => ?_, ?_, v, ?_, fun on => ?_, fun off => ?_⟩
  · rw [key, ← hv]; rfl
  · rw [lost, ← hv]; rfl
  · subst e
    rw [svc, eco, lim, rule]
    obtain ⟨⟨seconds, weighted, cycles, unaccounted⟩, ⟨total, rem, mode, delay, enable⟩, set, profile, items⟩ :=
      recordTaken_values (recordOf_accepted accepted s.img.defaults) hv.symm
    refine ⟨seconds, weighted, cycles, unaccounted, ?_, rem, set, mode, delay, enable, profile, items⟩
    show v.eco.fuelTotal.toNat = _
    rw [total]
    exact (BitVec.toNat_ofNat _ _).trans (Nat.mod_eq_of_lt (u32At_lt b 16))
  · rw [svc, eco, lim, rule]
    obtain ⟨⟨seconds, weighted, cycles, unaccounted⟩, ⟨total, rem, mode, delay, enable⟩, set, profile, items⟩ :=
      recordTaken_values (recordOf_lost refused s.img.defaults) hv.symm
    exact ⟨seconds, weighted, cycles, unaccounted, total, rem, items, set, mode, delay, enable, profile⟩
  · rw [eco, ← hv]; rfl
  · rw [svc, ← hv]
    show List.map _ (List.map _ (List.map _ _)) = _
    rw [List.map_map, List.map_map]
    rfl
  · rw [svc, ← hv] at hi
    rw [svc, ← hv]
    obtain ⟨x, -, rfl⟩ := List.mem_map.1 hi
    rfl
  · rw [svc, ← hv]; rfl
  · rw [rule, ← hv]; rfl
  · rw [rule, svc]
    refine rest.trans ?_
    rw [← hv]
    rfl
  · rw [svc, eco, ← hv]; rfl
  · rw [lim, ← hv]
    exact get_tabulate_limit _ l
  · rw [lim, ← hv]; rfl
  · rw [lim, rule, eco, svc, ← hv]; rfl
  · rw [State.joinOrQuiet, if_pos (by rw [← hv]; exact on)]
    exact enterJoin_enters v
  · rw [State.joinOrQuiet, if_neg (by rw [← hv]; exact Bool.eq_false_iff.1 off)]
    exact enterQuiet_enters v

end Sys2Proof.Laws
end

section
/-! A stored record reads back: the fields of the block, one by one. -/

namespace Sys2Proof.Laws

open Sys2Proof.Machine Relation

-- Many short proofs at once would each hold a thread of the checking process.
set_option Elab.async false

variable {s t : State}

/-! ## Fields -/

theorem u32At_be4 {n : Nat} (h : n < 4294967296) : u32At (be4 (n : Int)) 0 = n := by
  have word : (BitVec.ofInt 32 (n : Int)).toNat = n := by
    rw [BitVec.ofInt_natCast, BitVec.toNat_ofNat]
    exact Nat.mod_eq_of_lt h
  simp only [u32At, u16At, be4, byteAt, List.getD_cons_zero, List.getD_cons_succ, BitVec.toNat_setWidth, BitVec.toNat_ushiftRight,
    Nat.shiftRight_eq_div_pow, word, Nat.zero_add]
  omega

theorem s16At_be2 {v : Int} (low : -32768 ≤ v) (high : v ≤ 32767) : s16At (be2 v) 0 = v := by
  have word := u16At_be2 (BitVec.ofInt 16 v)
  have bytes : be2 ((BitVec.ofInt 16 v).toNat : Int) = be2 v := by
    unfold be2
    rw [BitVec.ofInt_natCast, BitVec.ofNat_toNat, BitVec.setWidth_eq]
  rw [bytes] at word
  rw [s16At, word, BitVec.ofNat_toNat, BitVec.setWidth_eq, BitVec.toInt_ofInt]
  exact Int.bmod_eq_of_le (by omega) (by omega)

theorem byteOf_toNat {n : Nat} (h : n < 256) : (byteOf (n : Int)).toNat = n := by
  rw [byteOf, BitVec.ofInt_natCast, BitVec.toNat_ofNat]
  exact Nat.mod_eq_of_lt h

/-- The presence bits of the stored limit set (11.3). -/
theorem presence_bits : ∀ a b c d e : Bool,
    (byteOf (bit a + 2 * bit b + 4 * bit c + 8 * bit d + 16 * bit e)).getLsbD 0 = a
      ∧ (byteOf (bit a + 2 * bit b + 4 * bit c + 8 * bit d + 16 * bit e)).getLsbD 1 = b
      ∧ (byteOf (bit a + 2 * bit b + 4 * bit c + 8 * bit d + 16 * bit e)).getLsbD 2 = c
      ∧ (byteOf (bit a + 2 * bit b + 4 * bit c + 8 * bit d + 16 * bit e)).getLsbD 3 = d
      ∧ (byteOf (bit a + 2 * bit b + 4 * bit c + 8 * bit d + 16 * bit e)).getLsbD 4 = e := by
  decide

theorem optField_reads {o : Option Int} (h : ∀ v ∈ o, -32768 ≤ v ∧ v ≤ 32767) :
    (if o.isSome = true then some (s16At (optField o) 0) else none) = o := by
  cases o with
  | none => rfl
  | some v =>
    obtain ⟨low, high⟩ := h v rfl
    exact congrArg some (s16At_be2 low high)

/-! ## The block -/

/-- The fields of the record block, in order (11.3). -/
def recordFields (s : State) : List (List Byte) :=
  [be4 s.svc.engineSeconds, be4 s.svc.weighted, be4 s.svc.cycles, be4 s.svc.unaccounted, be4 s.eco.fuelTotal.toNat, be4 s.eco.fuelRem]
    ++ ((List.range 16).map fun n => be4 (lastDoneOf s.svc.items (n + 1)))
    ++ [(limitBytes s.lim.set).take 1, optField (s.lim.set.floor.map (·.f0)), optField (s.lim.set.floor.map (·.s)),
      optField (s.lim.set.floor.map (·.r0)), optField s.lim.set.ceiling, optField s.lim.set.reach, optField s.lim.set.slewLeft,
      optField s.lim.set.slewRight, [byteOf s.eco.mode.code], [byteOf (bit s.eco.autoIdle)], [byteOf s.eco.delay],
      [byteOf s.rule.profile], List.replicate 19 0, be2 (crc (recordBody s)).toNat]

theorem recordBlock_eq (s : State) : recordBlock s = (recordFields s).flatten := by
  unfold recordBlock recordFields
  simp only [recordBody, limitBytes, List.flatten_append, List.flatten_cons, List.flatten_nil, List.append_assoc, List.cons_append,
    List.nil_append, List.append_nil, List.take_succ_cons, List.take_zero, List.flatMap_def]

/-- A byte of a field, at its place in the block. -/
theorem byteAt_flatten {f : List Byte} {j : Nat} (hj : j < f.length) : ∀ {fs : List (List Byte)} {k : Nat}, fs[k]? = some f →
    byteAt fs.flatten (((fs.take k).map List.length).sum + j) = byteAt f j
  | [], k, h => by simp at h
  | g :: gs, 0, h => by
    obtain rfl : g = f := by simpa using h
    rw [List.flatten_cons, List.take_zero, List.map_nil, List.sum_nil, Nat.zero_add]
    exact byteAt_append_left g gs.flatten j hj
  | g :: gs, k + 1, h => by
    rw [List.flatten_cons, List.take_succ_cons, List.map_cons, List.sum_cons, Nat.add_assoc, byteAt_append_right]
    exact byteAt_flatten hj (by simpa using h)

/-- The place of a field. -/
def fieldPlace (s : State) (k : Nat) : Nat := (((recordFields s).take k).map List.length).sum

theorem recordFields_lengths (s : State) : (recordFields s).map List.length
    = List.replicate 22 4 ++ [1, 2, 2, 2, 2, 2, 2, 2, 1, 1, 1, 1, 19, 2] := rfl

theorem fieldPlace_eq (s : State) (k : Nat) : fieldPlace s k =
    ((List.replicate 22 4 ++ [1, 2, 2, 2, 2, 2, 2, 2, 1, 1, 1, 1, 19, 2]).take k).sum := by
  rw [fieldPlace, List.map_take, recordFields_lengths]

theorem recordBlock_byte {k : Nat} {f : List Byte} (h : (recordFields s)[k]? = some f) {j : Nat} (hj : j < f.length) :
    byteAt (recordBlock s) (fieldPlace s k + j) = byteAt f j := by
  rw [recordBlock_eq]
  exact byteAt_flatten hj h

theorem recordBlock_u16 {k : Nat} {f : List Byte} (h : (recordFields s)[k]? = some f) {j : Nat} (hj : j + 1 < f.length) :
    u16At (recordBlock s) (fieldPlace s k + j) = u16At f j := by
  unfold u16At
  rw [Nat.add_assoc, recordBlock_byte h hj, recordBlock_byte h (Nat.lt_of_succ_lt hj)]

theorem recordBlock_u32 {k : Nat} {f : List Byte} (h : (recordFields s)[k]? = some f) (hj : 3 < f.length) :
    u32At (recordBlock s) (fieldPlace s k) = u32At f 0 := by
  have low := recordBlock_u16 (j := 0) h (by omega)
  have high := recordBlock_u16 (j := 2) h (by omega)
  unfold u32At
  rw [high, ← low]
  rfl

theorem recordBlock_length (s : State) : (recordBlock s).length = 128 := by
  rw [recordBlock_eq, List.length_flatten, recordFields_lengths]
  rfl

/-- The four-byte fields. -/
theorem recordBlock_be4 {k n : Nat} {v : Nat} (h : (recordFields s)[k]? = some (be4 (v : Int))) (place : fieldPlace s k = n)
    (small : v < 4294967296) : u32At (recordBlock s) n = v := by
  rw [← place, recordBlock_u32 h (by rw [be4_length]; decide), u32At_be4 small]

theorem recordBlock_lastDone (s : State) {n : Nat} (low : 1 ≤ n) (high : n ≤ 16) (small : lastDoneOf s.svc.items n < 4294967296) :
    u32At (recordBlock s) (24 + 4 * (n - 1)) = lastDoneOf s.svc.items n := by
  refine recordBlock_be4 (k := 6 + (n - 1)) ?_ ?_ small
  · interval_cases n <;> rfl
  · rw [fieldPlace_eq]
    interval_cases n <;> rfl

theorem recordBlock_s16 {k n : Nat} {v : Int} (h : (recordFields s)[k]? = some (be2 v)) (place : fieldPlace s k = n) :
    s16At (recordBlock s) n = s16At (be2 v) 0 := by
  have word := recordBlock_u16 (j := 0) h (by rw [be2_length]; decide)
  rw [Nat.add_zero, place] at word
  rw [s16At, s16At, word]

theorem recordBlock_single {k n : Nat} {b : Byte} (h : (recordFields s)[k]? = some [b]) (place : fieldPlace s k = n) :
    byteAt (recordBlock s) n = b := by
  have single := recordBlock_byte (j := 0) h Nat.zero_lt_one
  rw [Nat.add_zero, place] at single
  exact single

/-- A stored limit with its presence bit. -/
theorem storedLimit_reads {o : Option Int} {i k n : Nat} (present : (byteAt (recordBlock s) 88).getLsbD i = o.isSome)
    (h : (recordFields s)[k]? = some (optField o)) (place : fieldPlace s k = n) (range : ∀ v ∈ o, -32768 ≤ v ∧ v ≤ 32767) :
    storedLimit (recordBlock s) i n = o := by
  rw [storedLimit, present, recordBlock_s16 h place]
  exact optField_reads range

theorem recordBlock_presence (s : State) : (byteAt (recordBlock s) 88).getLsbD 0 = s.lim.set.floor.isSome
    ∧ (byteAt (recordBlock s) 88).getLsbD 1 = s.lim.set.ceiling.isSome
    ∧ (byteAt (recordBlock s) 88).getLsbD 2 = s.lim.set.reach.isSome
    ∧ (byteAt (recordBlock s) 88).getLsbD 3 = s.lim.set.slewLeft.isSome
    ∧ (byteAt (recordBlock s) 88).getLsbD 4 = s.lim.set.slewRight.isSome := by
  rw [recordBlock_single (k := 22) (n := 88) rfl (by rw [fieldPlace_eq]; rfl)]
  exact presence_bits _ _ _ _ _

theorem recordBlock_floor (s : State) (f0 : ∀ f ∈ s.lim.set.floor, -32768 ≤ f.f0 ∧ f.f0 ≤ 32767)
    (other : ∀ f ∈ s.lim.set.floor, -32768 ≤ f.s ∧ f.s ≤ 32767 ∧ -32768 ≤ f.r0 ∧ f.r0 ≤ 32767) :
    (if (byteAt (recordBlock s) 88).getLsbD 0 then
      some (⟨s16At (recordBlock s) 89, s16At (recordBlock s) 91, s16At (recordBlock s) 93⟩ : Floor) else none) = s.lim.set.floor := by
  have first : s16At (recordBlock s) 89 = s16At (optField (s.lim.set.floor.map (·.f0))) 0 :=
    recordBlock_s16 (k := 23) rfl (by rw [fieldPlace_eq]; rfl)
  have second : s16At (recordBlock s) 91 = s16At (optField (s.lim.set.floor.map (·.s))) 0 :=
    recordBlock_s16 (k := 24) rfl (by rw [fieldPlace_eq]; rfl)
  have third : s16At (recordBlock s) 93 = s16At (optField (s.lim.set.floor.map (·.r0))) 0 :=
    recordBlock_s16 (k := 25) rfl (by rw [fieldPlace_eq]; rfl)
  rw [(recordBlock_presence s).1, first, second, third]
  cases held : s.lim.set.floor with
  | none => rfl
  | some f =>
    obtain ⟨a, b⟩ := f0 f held
    obtain ⟨c, d, e, g⟩ := other f held
    have r1 := s16At_be2 a b
    have r2 := s16At_be2 c d
    have r3 := s16At_be2 e g
    simp only [Option.isSome_some, if_true, Option.map_some, optField, Option.getD_some, r1, r2, r3]

/-! ## The record -/

theorem takeMode_code (m : WorkMode) : takeMode (byteOf m.code).toNat = m := by
  cases m <;> rfl

theorem takeEnable_bit (b : Bool) : takeEnable (byteOf (bit b)).toNat = b := by
  cases b <;> rfl

theorem takeDelay_same {n : Nat} (low : 4 ≤ n) (high : n ≤ 30) : takeDelay n = n := by
  rw [takeDelay, clampInt_eq _ (by decide)]
  omega

theorem lastDoneOf_small (h : ∀ i ∈ s.svc.items, i.lastDone < 4294967296) (n : Nat) : lastDoneOf s.svc.items n < 4294967296 := by
  unfold lastDoneOf
  cases found : s.svc.items.find? fun i => i.config.number == n with
  | none => simp
  | some i => exact h i (List.mem_of_find?_eq_some found)

/-- The settings as they stand in a block (11.3). -/
theorem readRecord_settings (b : List Byte) : (readRecord b).settings.mode = (byteAt b 103).toNat
    ∧ (readRecord b).settings.autoIdle = (byteAt b 104).toNat ∧ (readRecord b).settings.delay = (byteAt b 105).toNat
    ∧ (readRecord b).settings.profile = (byteAt b 106).toNat
    ∧ (readRecord b).settings.limits =
      ⟨if (byteAt b 88).getLsbD 0 then some ⟨s16At b 89, s16At b 91, s16At b 93⟩ else none, storedLimit b 1 95, storedLimit b 2 97,
        storedLimit b 3 99, storedLimit b 4 101⟩
    ∧ (readRecord b).fuelTotal = BitVec.ofNat 32 (u32At b 16) := ⟨rfl, rfl, rfl, rfl, rfl, rfl⟩

/-- Settles O9. -/
theorem recordReadsBack : Obligations.RecordReadsBack := by
  intro s counts fuel legal dones floor left right
  obtain ⟨limit, low, high, cycles, unaccounted, -⟩ := counts
  obtain ⟨rem, -⟩ := fuel
  obtain ⟨f0, ceiling, reach, -, -, ⟨least, most⟩, profile⟩ := legal
  have place : ∀ {k n : Nat}, ((List.replicate 22 4 ++ [1, 2, 2, 2, 2, 2, 2, 2, 1, 1, 1, 1, 19, 2]).take k).sum = n →
      fieldPlace s k = n := fun h => (fieldPlace_eq s _).trans h
  have seconds : u32At (recordBlock s) 0 = s.svc.engineSeconds := recordBlock_be4 (k := 0) rfl (place rfl) (by omega)
  have weighted : u32At (recordBlock s) 4 = s.svc.weighted := recordBlock_be4 (k := 1) rfl (place rfl) (by omega)
  have cycled : u32At (recordBlock s) 8 = s.svc.cycles := recordBlock_be4 (k := 2) rfl (place rfl) (by omega)
  have gaps : u32At (recordBlock s) 12 = s.svc.unaccounted := recordBlock_be4 (k := 3) rfl (place rfl) (by omega)
  have total : u32At (recordBlock s) 16 = s.eco.fuelTotal.toNat := recordBlock_be4 (k := 4) rfl (place rfl) s.eco.fuelTotal.isLt
  have rest : u32At (recordBlock s) 20 = s.eco.fuelRem := recordBlock_be4 (k := 5) rfl (place rfl) (by omega)
  obtain ⟨-, p1, p2, p3, p4⟩ := recordBlock_presence s
  have accepted : judgeRecord (some (recordBlock s)) = none := by
    unfold judgeRecord
    dsimp only [readRecord]
    rw [seconds, weighted, rest, recordBlock_length, recordBlock, crcHolds_append, if_neg (by decide), if_neg (by unfold engineLimit; omega),
      if_neg (by omega), if_neg (by omega)]
  obtain ⟨mode, enable, delay, byte, limits, fuelTotal⟩ := readRecord_settings (recordBlock s)
  refine ⟨recordBlock_length s, accepted, seconds, weighted, cycled, gaps, ?_, rest,
    fun n first last => recordBlock_lastDone s first last (lastDoneOf_small dones n), ?_, ?_, ?_, ?_, ?_⟩
  · rw [fuelTotal, total, BitVec.ofNat_toNat, BitVec.setWidth_eq]
  · have c := storedLimit_reads p1 (k := 26) (n := 95) rfl (place rfl) fun v hv => by have := ceiling v hv; omega
    have r := storedLimit_reads p2 (k := 27) (n := 97) rfl (place rfl) fun v hv => by have := reach v hv; omega
    have l := storedLimit_reads p3 (k := 28) (n := 99) rfl (place rfl) left
    have g := storedLimit_reads p4 (k := 29) (n := 101) rfl (place rfl) right
    have f := recordBlock_floor s (fun f hf => by have := f0 f hf; omega) floor
    rw [limits, f, c, r, l, g]
  · rw [mode, recordBlock_single (k := 30) (n := 103) rfl (place rfl), takeMode_code]
  · rw [enable, recordBlock_single (k := 31) (n := 104) rfl (place rfl), takeEnable_bit]
  · rw [delay, recordBlock_single (k := 32) (n := 105) rfl (place rfl), byteOf_toNat (by omega), takeDelay_same least most]
  · rw [byte, recordBlock_single (k := 33) (n := 106) rfl (place rfl), byteOf_toNat (by omega)]
    exact if_pos profile

end Sys2Proof.Laws
end

section
/-! LINK, transmit side: what an offer does to the classes, the newest frame and the queued frames that it leaves. -/

namespace Sys2Proof.Laws

open Sys2Proof.Machine Relation

-- Many short proofs at once would each hold a thread of the checking process.
set_option Elab.async false

variable {s t : State}

/-! ## A state by the blocks that a change touches -/

theorem cond_kept {α : Type} {b : Bool} {x y : α} (h : b = false → x = y) : (bif b then x else y) = x := by
  cases b with
  | false => exact (h rfl).symm
  | true => rfl

/-- A change is told by the blocks that it touches: the others stand. -/
theorem framed {b : Blocks} (h : Touches b s t) : t = {
    pending := bif b.pending then t.pending else s.pending
    freeCount := bif b.freeCount then t.freeCount else s.freeCount
    now := bif b.now then t.now else s.now
    micros := bif b.now then t.micros else s.micros
    cfg := bif b.cfg then t.cfg else s.cfg
    image := bif b.image then t.image else s.image
    pose := bif b.pose then t.pose else s.pose
    streams := bif b.streams then t.streams else s.streams
    stmReply := bif b.stmReply then t.stmReply else s.stmReply
    lim := bif b.lim then t.lim else s.lim
    rule := bif b.rule then t.rule else s.rule
    hold := bif b.hold then t.hold else s.hold
    vch := bif b.vch then t.vch else s.vch
    eco := bif b.eco then t.eco else s.eco
    svc := bif b.svc then t.svc else s.svc
    ntc := bif b.ntc then t.ntc else s.ntc
    snd := bif b.snd then t.snd else s.snd
    link := bif b.link then t.link else s.link } := by
  rw [cond_kept h.pending, cond_kept h.freeCount, cond_kept h.now, cond_kept h.micros, cond_kept h.cfg, cond_kept h.image,
    cond_kept h.pose, cond_kept h.streams, cond_kept h.stmReply, cond_kept h.lim, cond_kept h.rule, cond_kept h.hold,
    cond_kept h.vch, cond_kept h.eco, cond_kept h.svc, cond_kept h.ntc, cond_kept h.snd, cond_kept h.link]

/-! ## A full class makes room -/

/-- The frame that leaves a full class: the first that no attempt holds, and else the last. -/
theorem dropFirst_eq (w : Bool) : ∀ {fs : List TxFrame}, fs ≠ [] → ∃ before g rest, fs = before ++ g :: rest
    ∧ (∀ x ∈ before, x.current = true ∧ w = true) ∧ ((g.current = true → w = false) ∨ rest = [])
    ∧ dropFirst w fs = (some g, before ++ rest)
  | [], h => absurd rfl h
  | [f], _ => ⟨[], f, [], rfl, fun _ h => (nomatch h), .inr rfl, rfl⟩
  | f :: g :: fs, _ => by
    unfold dropFirst
    split
    · rename_i held
      obtain ⟨before, x, rest, e, all, free, d⟩ := dropFirst_eq w (List.cons_ne_nil g fs)
      rw [Bool.and_eq_true] at held
      refine ⟨f :: before, x, rest, by rw [e]; rfl, ?_, free, by simp only [d]; rfl⟩
      intro y hy
      obtain rfl | hy := List.mem_cons.1 hy
      · exact held
      · exact all y hy
    · rename_i free
      refine ⟨[], f, g :: fs, rfl, fun _ h => (nomatch h), .inl fun c => ?_, rfl⟩
      simpa [c] using free

variable {node : NodeState} {cls : TxClass} {f : TxFrame} {l : LinkUnit}

theorem offerFrame_notTaken (h : takesOffer node f.kind = false) : offerFrame node cls f l = (l, none) := by
  simp [offerFrame, h]

theorem offerFrame_thinned (h : takesOffer node f.kind = true) (thin : l.thinning = true) (odd : oddSequence f = true) :
    offerFrame node cls f l = ({ l with thinned := sat16 l.thinned }, none) := by
  simp [offerFrame, h, thin, odd]

/-- A frame that is neither thinned nor replaces one of its kind joins its class. -/
theorem offerFrame_joins (h : takesOffer node f.kind = true) (thin : l.thinning = false ∨ oddSequence f = false)
    (new : periodic cls f.kind = false ∨ ∀ g ∈ classOf l cls, g.kind ≠ f.kind) :
    offerFrame node cls f l = joinClass cls f l := by
  have noThin : (l.thinning && oddSequence f) = false := by rcases thin with e | e <;> simp [e]
  unfold offerFrame
  simp only [h, noThin, Bool.not_true, Bool.false_eq_true, if_false]
  split
  · rename_i per
    have none : (classOf l cls).find? (fun g => g.kind == f.kind) = none := by
      rw [List.find?_eq_none]
      intro g hg
      simpa using (new.resolve_left (by simp [per])) g hg
    rw [none]
  · rfl

/-- A periodic frame takes the place of the unsent frame of its kind, or stands beside the attempt of it. -/
theorem offerFrame_replaces (h : takesOffer node f.kind = true) (thin : l.thinning = false ∨ oddSequence f = false)
    (per : periodic cls f.kind = true) {g : TxFrame} (found : (classOf l cls).find? (fun x => x.kind == f.kind) = some g) :
    offerFrame node cls f l = if g.current && l.onWire then ({ l with beside := some f }, none)
      else (setClass l cls (replaceKind f (classOf l cls)), none) := by
  have noThin : (l.thinning && oddSequence f) = false := by rcases thin with e | e <;> simp [e]
  unfold offerFrame
  simp only [h, noThin, per, Bool.not_true, Bool.false_eq_true, if_false, if_true, found]

theorem joinClass_room (room : (classOf l cls).length < capacity cls) :
    joinClass cls f l = (setClass l cls (classOf l cls ++ [f]), none) := by
  simp [joinClass, room]

@[simp] theorem setClass_overflows (l : LinkUnit) (cls : TxClass) (fs : List TxFrame) :
    (setClass l cls fs).overflows = l.overflows := by
  cases cls <;> rfl

theorem setClass_thinning_ne (l : LinkUnit) {cls : TxClass} (h : cls ≠ .normal) (fs : List TxFrame) :
    (setClass l cls fs).thinning = l.thinning := by
  cases cls with
  | normal => exact absurd rfl h
  | urgent | background => rfl

/-- Thinning follows the number of frames in NORMAL (R181). -/
theorem setClass_normal_thinning (l : LinkUnit) (fs : List TxFrame) : (setClass l .normal fs).thinning =
    if 6 ≤ fs.length then true else if fs.length ≤ 3 then false else l.thinning := rfl

theorem joinClass_full {before rest : List TxFrame} {g : TxFrame} (full : capacity cls ≤ (classOf l cls).length)
    (d : dropFirst l.onWire (classOf l cls) = (some g, before ++ rest)) :
    joinClass cls f l = (setClass (setClass { l with overflows := sat16 l.overflows } cls (before ++ rest)) cls
      (before ++ rest ++ [f]), g.reply) := by
  simp [joinClass, Nat.not_lt.2 full, d]

/-- The first frame of a kind is replaced in place. -/
theorem replaceKind_eq {g : TxFrame} : ∀ {fs : List TxFrame}, fs.find? (fun x => x.kind == f.kind) = some g →
    ∃ before rest, fs = before ++ g :: rest ∧ replaceKind f fs = before ++ { f with current := g.current } :: rest
  | [], h => by cases h
  | x :: xs, h => by
    unfold replaceKind
    split
    · rename_i same
      rw [List.find?_cons_of_pos (by simpa using same)] at h
      obtain rfl : x = g := by injection h
      exact ⟨[], xs, rfl, rfl⟩
    · rename_i differs
      rw [List.find?_cons_of_neg (by simpa using differs)] at h
      obtain ⟨before, rest, e, r⟩ := replaceKind_eq h
      exact ⟨x :: before, rest, by rw [e]; rfl, by rw [r]; rfl⟩

/-- Thinning after a frame has joined NORMAL (R181). -/
theorem joinNormal_thinning (f : TxFrame) (l : LinkUnit) :
    (5 ≤ l.normal.length → (joinClass .normal f l).1.thinning = true)
      ∧ (l.normal.length ≤ 2 → (joinClass .normal f l).1.thinning = false)
      ∧ (3 ≤ l.normal.length → l.normal.length ≤ 4 → (joinClass .normal f l).1.thinning = l.thinning) := by
  by_cases room : l.normal.length < 8
  · rw [joinClass_room (show (classOf l .normal).length < capacity .normal from room), setClass_normal_thinning]
    simp only [classOf, List.length_append, List.length_singleton]
    refine ⟨fun h => if_pos (by omega), fun h => ?_, fun h k => ?_⟩
    · rw [if_neg (by omega), if_pos (by omega)]
    · rw [if_neg (by omega), if_neg (by omega)]
  · have ne : classOf l .normal ≠ [] := by intro e; exact room (by rw [show l.normal = [] from e]; decide)
    obtain ⟨before, g, rest, e, -, -, d⟩ := dropFirst_eq l.onWire ne
    rw [joinClass_full (show capacity .normal ≤ (classOf l .normal).length from Nat.not_lt.1 room) d, setClass_normal_thinning]
    have length : (before ++ rest).length + 1 = l.normal.length := by
      rw [show l.normal = before ++ g :: rest from e]; simp; omega
    refine ⟨fun h => if_pos (by simp only [List.length_append, List.length_singleton] at *; omega), fun h => ?_, fun h k => ?_⟩
    · omega
    · omega

/-- Settles O47: an offer by what LINK finds of its kind and of room. -/
theorem offerTaken : Obligations.OfferTaken := by
  refine ⟨fun node cls f l => ⟨fun h => by rw [offerFrame_notTaken h], fun h thin odd => by rw [offerFrame_thinned h thin odd]; rfl,
      fun h thin => ⟨fun new => ?_, fun per g found => ?_⟩⟩,
    fun l fs => ⟨rfl, fun h => if_pos h, fun h => ?_, fun h k => ?_⟩, fun node f l h thin new => ?_⟩
  · rw [offerFrame_joins h thin new]
    refine ⟨fun room => by rw [joinClass_room room]; simp, fun full => ?_⟩
    have ne : classOf l cls ≠ [] := by
      intro e; rw [e] at full; have := capacity_pos cls; simp at full; omega
    obtain ⟨before, g, rest, e, all, free, d⟩ := dropFirst_eq l.onWire ne
    rw [joinClass_full (Nat.le_of_eq full.symm) d]
    exact ⟨⟨before, g, rest, e, all, free, classOf_setClass _ _ _⟩, by simp [sat16, satAdd]⟩
  · rw [offerFrame_replaces h thin per found]
    refine ⟨fun c w => by simp [c, w], fun free => ?_⟩
    have notHeld : (g.current && l.onWire) = false := by rcases free with e | e <;> simp [e]
    obtain ⟨before, rest, e, r⟩ := replaceKind_eq found
    refine ⟨before, rest, e, ?_⟩
    rw [notHeld, if_neg Bool.false_ne_true, classOf_setClass, r]
  · rw [setClass_normal_thinning, if_neg (by omega), if_pos h]
  · rw [setClass_normal_thinning, if_neg (by omega), if_neg (by omega)]
  · rw [offerFrame_joins h thin new]
    exact joinNormal_thinning f l

/-! ## What an offer leaves queued -/

theorem oddSequence_plain {f : TxFrame} (h : f.kind ≠ .pose ∧ f.kind ≠ .guidance) : oddSequence f = false := by
  obtain ⟨pose, guidance⟩ := h
  simp [oddSequence, pose, guidance]

/-- An offer that is taken and not thinned leaves the frame in its class, or beside the attempt (R179). -/
theorem offerFrame_queued (h : takesOffer node f.kind = true) (thin : l.thinning = false ∨ oddSequence f = false) :
    Queued (offerFrame node cls f l).1 cls f.kind f.destination f.data := by
  have joined : Queued (joinClass cls f l).1 cls f.kind f.destination f.data := by
    refine ⟨f, .inl ?_, rfl, rfl, rfl⟩
    obtain ⟨-, e⟩ | ⟨-, n, e⟩ := joinClass_cases cls f l <;> rw [e] <;> simp
  cases per : periodic cls f.kind with
  | false => rw [offerFrame_joins h thin (.inl per)]; exact joined
  | true =>
    cases found : (classOf l cls).find? (fun x => x.kind == f.kind) with
    | none =>
      rw [offerFrame_joins h thin (.inr fun g hg => by simpa using List.find?_eq_none.1 found g hg)]
      exact joined
    | some g =>
      rw [offerFrame_replaces h thin per found]
      split
      · exact ⟨f, .inr rfl, rfl, rfl, rfl⟩
      · obtain ⟨before, rest, -, r⟩ := replaceKind_eq found
        refine ⟨{ f with current := g.current }, .inl ?_, rfl, rfl, rfl⟩
        rw [classOf_setClass, r]
        simp

/-- A frame that joins class URGENT is its newest. -/
theorem joinUrgent_last (f : TxFrame) (l : LinkUnit) : (joinClass .urgent f l).1.urgent.getLast? = some f := by
  show (classOf (joinClass .urgent f l).1 .urgent).getLast? = some f
  obtain ⟨-, e⟩ | ⟨-, n, e⟩ := joinClass_cases .urgent f l <;> rw [e] <;> simp

/-- A frame of URGENT that is not periodic is the newest there once it is taken. -/
theorem offer_lastUrgent {k : TxKind} (h : takesOffer s.cfg.node k = true) (once : periodic .urgent k = false) (dst : Byte)
    (data : List Byte) : LastUrgent (s.offer .urgent k dst data).link k dst data := by
  refine ⟨s.frame k dst data, ?_, rfl, rfl, rfl⟩
  show (offerFrame s.cfg.node .urgent (s.frame k dst data) s.link).1.urgent.getLast? = _
  have plain : k ≠ .pose ∧ k ≠ .guidance := by
    constructor <;> (intro e; rw [e] at once; cases once)
  rw [offerFrame_joins h (.inr (oddSequence_plain (f := s.frame k dst data) plain)) (.inl once), joinUrgent_last]

/-- A response is the newest frame of URGENT where offers are taken (R43). -/
theorem respond_answered (h : takesOffer s.cfg.node .settingResponse = true) (i : SettingItem) (r : SettingResult)
    (a b c : Option Int) : ItemAnswered (s.respond i r a b c) i r a b c :=
  offer_lastUrgent h rfl _ _

/-- An URGENT LIMIT STATUS is the newest frame of its class where offers are taken (R61). -/
theorem offerStatusChange_last (h : takesOffer s.cfg.node .limitStatus = true) :
    LastUrgent s.offerStatusChange.link .limitStatus 0xFF (limitStatusData s true) :=
  offer_lastUrgent h rfl _ _

theorem offer_queued {k : TxKind} (h : takesOffer s.cfg.node k = true) (plain : k ≠ .pose ∧ k ≠ .guidance) (dst : Byte)
    (data : List Byte) : Queued (s.offer cls k dst data).link cls k dst data :=
  offerFrame_queued (f := s.frame k dst data) h (.inr (oddSequence_plain plain))

/-- Where a class has room no frame leaves it, so no reply is told. -/
theorem offerFrame_room (room : (classOf l cls).length < capacity cls) : (offerFrame node cls f l).2 = none := by
  unfold offerFrame
  split
  · rfl
  split
  · rfl
  split
  · split
    · split <;> rfl
    · rw [joinClass_room room]
  · rw [joinClass_room room]

theorem offerBackground_room (room : s.link.background.length < 8) (f : TxFrame) :
    s.offerBackground f = { s with link := (offerFrame s.cfg.node .background f s.link).1 } := by
  have none := offerFrame_room (node := s.cfg.node) (f := f) (show (classOf s.link .background).length < capacity .background from room)
  unfold State.offerBackground
  dsimp only
  rw [none]
  rfl

/-- A BACKGROUND frame is queued where its class has room. -/
theorem offerBackground_queued (h : takesOffer s.cfg.node f.kind = true) (plain : f.kind ≠ .pose ∧ f.kind ≠ .guidance)
    (room : s.link.background.length < 8) : Queued (s.offerBackground f).link .background f.kind f.destination f.data := by
  rw [offerBackground_room room]
  exact offerFrame_queued h (.inr (oddSequence_plain plain))

end Sys2Proof.Laws
end

section
/-! The five timers that report, and the data fields of their frames, byte by byte (10.7, R193). -/

namespace Sys2Proof.Laws

open Sys2Proof.Machine Relation

-- Many short proofs at once would each hold a thread of the checking process.
set_option Elab.async false

variable {s t : State}

/-! ## The five timers -/

theorem nodeStatusTimerExpiry_eq {d : Ms} (h : s.cfg.statusTimer = some d) : exec .nodeStatusTimerExpiry s =
    .next ((s.arriveAt d).onCfg fun c => { c with statusTimer := some (after d (statusPeriod c.node)) }).offerNodeStatus := by
  show execNodeStatusTimerExpiry s = _
  rw [execNodeStatusTimerExpiry, h]

theorem limitStatusTimerExpiry_eq {d : Ms} (h : s.lim.statusTimer = some d) {u : State}
    (hu : u = (s.arriveAt d).onLim fun v => { v with statusTimer := some (after d 100) }) :
    exec .limitStatusTimerExpiry s = .next (u.offer .normal .limitStatus 0xFF (limitStatusData u false)) := by
  show execLimitStatusTimerExpiry s = _
  rw [execLimitStatusTimerExpiry, h, hu]

theorem noticeSummaryTimerExpiry_eq {d : Ms} (h : s.ntc.summaryTimer = some d) {u : State}
    (hu : u = (s.arriveAt d).onNtc fun n => { n with summaryTimer := some (after d 1000) }) :
    exec .noticeSummaryTimerExpiry s = .next (u.offerBackground (u.frame .noticeSummary 0xFF (noticeSummary u))) := by
  show execNoticeSummaryTimerExpiry s = _
  rw [execNoticeSummaryTimerExpiry, h, hu]

theorem serviceSummaryTimerExpiry_eq {d : Ms} (h : s.svc.summaryTimer = some d) {u : State}
    (hu : u = (s.arriveAt d).onSvc fun v => { v with summaryTimer := some (after d 10000) }) :
    exec .serviceSummaryTimerExpiry s = .next (u.offerBackground (u.frame .serviceSummary 0xFF (summaryData u))) := by
  show execServiceSummaryTimerExpiry s = _
  rw [execServiceSummaryTimerExpiry, h, hu]

theorem economyReportTimerExpiry_eq {d : Ms} (h : s.eco.reportTimer = some d) {u : State}
    (hu : u = (s.arriveAt d).onEco fun e => { e with reportTimer := some (after d 10000) }) :
    exec .economyReportTimerExpiry s = .next (u.offerBackground (u.frame .economyReport 0xFF (economyData u))) := by
  show execEconomyReportTimerExpiry s = _
  rw [execEconomyReportTimerExpiry, h, hu]

theorem statusPeriod_eq (n : NodeState) : statusPeriod n = if n = .quiet then 5000 else 1000 := by cases n <;> rfl

/-- What an offer to BACKGROUND changes of SVC is the reply in progress. -/
theorem setReply_svc (s : State) (o : ReplyOwner) (r : Option ListReply) :
    (s.setReply o r).svc = { s.svc with reply := (s.setReply o r).svc.reply } := by
  cases o <;> rfl

theorem deliver_svc : ∀ (n : Nat) (o : ReplyOwner) (s : State), (deliver n o s).svc = { s.svc with reply := (deliver n o s).svc.reply }
  | 0, _, _ => rfl
  | n + 1, o, s => by
    unfold deliver
    split
    · rfl
    · exact setReply_svc s o none
    · rename_i dst m rest _
      dsimp only
      split
      · exact setReply_svc s o _
      · rw [deliver_svc n _ _]
        dsimp only
        rw [setReply_svc s o]

theorem offerBackground_svc (s : State) (f : TxFrame) :
    (s.offerBackground f).svc = { s.svc with reply := (s.offerBackground f).svc.reply } := by
  unfold State.offerBackground State.report
  dsimp only
  split
  · rfl
  · exact deliver_svc _ _ _

/-! ## The data fields -/

/-- NODE STATUS reads the node, its fault and flags, SVC's counts, the entries and LINK's counts. -/
theorem nodeStatusData_congr (node : t.cfg.node = s.cfg.node) (fault : t.cfg.fault = s.cfg.fault)
    (lost : t.cfg.recordLost = s.cfg.recordLost) (streams : t.streams = s.streams) (svc : t.svc = s.svc)
    (link : t.link = s.link) : nodeStatusData t = nodeStatusData s := by
  simp only [nodeStatusData, State.statusCounts, State.entryCode, State.entry, node, fault, lost, streams, svc, link]

theorem limitStatusData_congr (lim : t.lim.records = s.lim.records) (vch : t.vch = s.vch) (b : Bool) :
    limitStatusData t b = limitStatusData s b := by
  simp only [limitStatusData, lim, vch]

theorem summaryData_congr (now : t.now = s.now) (svc : t.svc = { s.svc with summaryTimer := t.svc.summaryTimer }) :
    summaryData t = summaryData s := by
  have items : ∀ i : ServiceItem, i.share t.svc = i.share s.svc := fun i => by rw [svc]; rfl
  have nearest : t.svc.nearest = s.svc.nearest := by rw [svc]; rfl
  have report : t.nearestReport = s.nearestReport := by
    unfold State.nearestReport
    rw [nearest, now]
    cases s.svc.nearest with
    | none => rfl
    | some i => dsimp only; rw [items]
  unfold summaryData
  rw [report, svc]

/-- The counts of NODE STATUS outside CONFIG_FAULT. -/
theorem statusCounts_of_ne (h : s.cfg.node ≠ .configFault) : s.statusCounts = [s.link.overruns, s.link.malformed, s.link.clashes,
    s.link.ageDiscards, s.link.overflows, s.link.thinned, s.link.failedAttempts, s.link.failures] := if_neg h

/-- A list padded to a length that holds it. -/
theorem padded_take {α : Type} {xs : List α} {n : Nat} (h : xs.length ≤ n) (a : α) :
    (xs ++ List.replicate n a).take n = xs ++ List.replicate (n - xs.length) a := by
  rw [List.take_append, List.take_of_length_le h, List.take_replicate, Nat.min_eq_left (Nat.sub_le _ _)]

theorem queueBytes_length (q : List NoticeRecord) :
    (q.flatMap fun r => [byteOf r.id, byteOf (severityCode r.severity)]).length = 2 * q.length := by
  induction q with
  | nil => rfl
  | cons r rs ih => simp only [List.flatMap_cons, List.length_append, ih, List.length_cons, List.length_nil]; omega

/-! ## The nearest item -/

/-- The nearer of the item held so far and the next (R153). -/
def nearerItem (v : Svc) (best : Option ServiceItem) (i : ServiceItem) : Option ServiceItem :=
  match best with
  | none => some i
  | some b =>
    if i.share v < b.share v ∨ (i.share v = b.share v ∧ i.config.number < b.config.number) then some i else some b

theorem nearest_eq (v : Svc) : v.nearest = v.items.foldl (nearerItem v) none := rfl

/-- Item `i` is nearer than `x`. -/
def Nearer (v : Svc) (i x : ServiceItem) : Prop :=
  i.share v < x.share v ∨ i.share v = x.share v ∧ i.config.number < x.config.number

theorem foldl_nearer {v : Svc} {i : ServiceItem} : ∀ {xs : List ServiceItem} {best : Option ServiceItem},
    (∀ x ∈ xs, x = i ∨ Nearer v i x) → (∀ b ∈ best, b = i ∨ Nearer v i b) → (i ∈ xs ∨ best = some i) →
    xs.foldl (nearerItem v) best = some i
  | [], _, _, _, h => h.resolve_left (fun k => nomatch k)
  | x :: xs, best, all, held, h => by
    have irrefl : ¬ Nearer v i i := fun k => by rcases k with k | ⟨-, k⟩ <;> omega
    have step : (∀ b ∈ nearerItem v best x, b = i ∨ Nearer v i b) ∧ (i ∈ xs ∨ nearerItem v best x = some i) := by
      have hx := all x List.mem_cons_self
      cases best with
      | none =>
        refine ⟨fun b hb => by obtain rfl : x = b := by injection hb
                               exact hx, ?_⟩
        rcases h with h | h
        · rcases List.mem_cons.1 h with rfl | h
          · exact .inr rfl
          · exact .inl h
        · cases h
      | some b =>
        have hb := held b rfl
        unfold nearerItem
        dsimp only
        split
        · rename_i nearer
          refine ⟨fun c hc => by obtain rfl : x = c := by injection hc
                                 exact hx, ?_⟩
          rcases h with h | h
          · rcases List.mem_cons.1 h with rfl | h
            · exact .inr rfl
            · exact .inl h
          · obtain rfl : b = i := by injection h
            rcases hx with rfl | hx
            · exact .inr rfl
            · unfold Nearer at hx; omega
        · rename_i notNearer
          refine ⟨fun c hc => by obtain rfl : b = c := by injection hc
                                 exact hb, ?_⟩
          rcases h with h | h
          · rcases List.mem_cons.1 h with rfl | h
            · rcases hb with rfl | hb
              · exact .inr rfl
              · exact absurd hb notNearer
            · exact .inl h
          · exact .inr h
    rw [List.foldl_cons]
    exact foldl_nearer (fun y hy => all y (List.mem_cons_of_mem _ hy)) step.1 step.2

theorem nearestReport_some {i : ServiceItem} (h : s.svc.nearest = some i) :
    s.nearestReport = [byteOf i.config.number, byteOf (itemStateCode i.state)] ++ be2 (i.share s.svc) := by
  unfold State.nearestReport
  rw [h]

theorem nearest_of_least {v : Svc} {i : ServiceItem} (nodup : (v.items.map (·.config.number)).Nodup) (mem : i ∈ v.items)
    (least : ∀ x ∈ v.items, i.share v < x.share v ∨ i.share v = x.share v ∧ i.config.number ≤ x.config.number) :
    v.nearest = some i := by
  refine foldl_nearer (fun x hx => ?_) (fun b hb => nomatch hb) (.inl mem)
  rcases least x hx with h | ⟨e, h⟩
  · exact .inr (.inl h)
  · rcases Nat.lt_or_eq_of_le h with h | h
    · exact .inr (.inr ⟨e, h⟩)
    · exact .inl (List.inj_on_of_nodup_map nodup hx mem h.symm)

/-! ## The obligation -/

/-- The report timers restart in `b`; the report's offer shows in LINK and in the replies. -/
theorem report_framed {b : Blocks} {u : State} (h : Touches b s u) (f : TxFrame) (hb : b.le (b.or replyBlocks) = true := by rfl)
    (hr : replyBlocks.le (b.or replyBlocks) = true := by rfl) : Touches (b.or replyBlocks) s (u.offerBackground f) :=
  (h.mono hb).trans ((offerBackground_touches u f).mono hr)

/-- The seconds left of the silence, rounded up, as the field of NOTICE SUMMARY carries them (R166). -/
theorem silence_left {left : Nat} (h : left = 0 ∧ (∀ d, s.snd.silence = some d → reached s.now d = true)
    ∨ ∃ d, s.snd.silence = some d ∧ reached s.now d = false ∧ elapsed d s.now ≤ 1000 * left ∧ 1000 * left < elapsed d s.now + 1000) :
    (left : Int) = match s.snd.silence with
      | none => 0
      | some d => if reached s.now d then 0 else (elapsed d s.now + 999) / 1000 := by
  rcases h with ⟨zero, over_⟩ | ⟨d, e, short, low, high⟩
  · cases e : s.snd.silence with
    | none => rw [zero]; rfl
    | some d => simp [over_ d e, zero]
  · simp only [e, short, Bool.false_eq_true, if_false]
    omega

/-- NODE STATUS of a part that holds no image (R190, R193). -/
theorem nodeStatusData_fault {c : FaultCode} (node : s.cfg.node = .configFault) (fault : s.cfg.fault = some c)
    (streams : s.streams = []) (svc : s.svc = Svc.reset) (lost : s.cfg.recordLost = none) :
    nodeStatusData s = [1, byteOf (faultNumber c), 0, byteOf (linkStateCode s.link.state)]
      ++ List.replicate 6 0 ++ List.replicate 6 0xFF ++ List.replicate 16 0 := by
  have counts : s.statusCounts = List.replicate 8 0 := if_pos node
  have entries : ∀ n, s.entryCode n = 15 := fun n => by unfold State.entryCode State.entry; rw [streams]; rfl
  unfold nodeStatusData
  rw [counts, node, fault, svc, lost]
  simp only [entries]
  rfl

/-- Settles O11: each timer by its command, each data field by its definition. -/
theorem reportTimersReport : Obligations.ReportTimersReport := by
  refine ⟨fun s d h => ?_, fun s d h => ?_, fun s d h => ?_, fun s d h => ?_, fun s d h => ?_, fun s node => ?_,
    fun s c node fault streams svc lost => nodeStatusData_fault node fault streams svc lost,
    fun s n => ⟨fun h => ?_, fun e h => ?_⟩, fun s b => ?_, fun s left short hl => ?_, fun s => rfl, fun v i => rfl,
    fun s i nodup mem least => nearestReport_some (nearest_of_least nodup mem least), fun s h => ?_,
    fun s => rfl, fun s => ⟨fun e h => ?_, fun h => ?_⟩, rfl, rfl, rfl, rfl, rfl, rfl, rfl, rfl, rfl, rfl, rfl, rfl⟩
  · obtain ⟨u, hu⟩ : ∃ u, u = (s.arriveAt d).onCfg fun c => { c with statusTimer := some (after d (statusPeriod c.node)) } := ⟨_, rfl⟩
    have data : nodeStatusData u = nodeStatusData s := by
      rw [hu]
      exact nodeStatusData_congr (by simp) (by simp) (by simp) (by simp) (by simp) (by simp)
    have cfg : u.cfg = { s.cfg with statusTimer := some (after d (if s.cfg.node = .quiet then 5000 else 1000)) } := by
      rw [hu, onCfg_cfg, arriveAt_cfg, statusPeriod_eq]
    refine ⟨u.offerBackground (u.frame .nodeStatus 0xFF (nodeStatusData u)), hu ▸ nodeStatusTimerExpiry_eq h, ?_,
      framed (report_framed (hu ▸ onCfg_touches _ _) _), fun taken room => ?_⟩
    · rw [(offerBackground_touches _ _).cfg rfl, cfg]
    · rw [← data]
      refine offerBackground_queued (f := u.frame .nodeStatus 0xFF (nodeStatusData u)) ?_ ⟨nofun, nofun⟩ ?_
      · rw [cfg]; exact taken
      · rw [hu, onCfg_link, arriveAt_link]; exact room
  · obtain ⟨u, hu⟩ : ∃ u, u = (s.arriveAt d).onLim fun v => { v with statusTimer := some (after d 100) } := ⟨_, rfl⟩
    have data : limitStatusData u false = limitStatusData s false := limitStatusData_congr (by simp [hu]) (by simp [hu]) _
    refine ⟨_, limitStatusTimerExpiry_eq h hu, ?_, fun taken => ?_⟩
    · rw [hu]
      simp only [State.offer, State.onLink, State.onLim, arriveAt_lim]
    · rw [data]
      refine offer_queued ?_ (by decide) _ _
      rw [hu, onLim_cfg, arriveAt_cfg]
      exact taken
  · obtain ⟨u, hu⟩ : ∃ u, u = (s.arriveAt d).onNtc fun n => { n with summaryTimer := some (after d 1000) } := ⟨_, rfl⟩
    have data : noticeSummary u = noticeSummary (s.arriveAt d) := by rw [hu]; rfl
    refine ⟨_, noticeSummaryTimerExpiry_eq h hu, ?_, framed (report_framed (hu ▸ onNtc_touches _ _) _), fun taken room => ?_⟩
    · rw [(offerBackground_touches _ _).ntc rfl, hu, onNtc_ntc, arriveAt_ntc]
    · rw [← data]
      refine offerBackground_queued (f := u.frame .noticeSummary 0xFF (noticeSummary u)) ?_ ⟨nofun, nofun⟩ ?_
      · rw [hu, onNtc_cfg, arriveAt_cfg]; exact taken
      · rw [hu, onNtc_link, arriveAt_link]; exact room
  · obtain ⟨u, hu⟩ : ∃ u, u = (s.arriveAt d).onSvc fun v => { v with summaryTimer := some (after d 10000) } := ⟨_, rfl⟩
    have data : summaryData u = summaryData (s.arriveAt d) := summaryData_congr (by rw [hu]; rfl) (by rw [hu]; rfl)
    refine ⟨_, serviceSummaryTimerExpiry_eq h hu, ?_, framed (report_framed (hu ▸ onSvc_touches _ _) _), fun taken room => ?_⟩
    · rw [offerBackground_svc]
      simp only [hu, onSvc_svc, arriveAt_svc]
    · rw [← data]
      refine offerBackground_queued (f := u.frame .serviceSummary 0xFF (summaryData u)) ?_ ⟨nofun, nofun⟩ ?_
      · rw [hu, onSvc_cfg, arriveAt_cfg]; exact taken
      · rw [hu, onSvc_link, arriveAt_link]; exact room
  · obtain ⟨u, hu⟩ : ∃ u, u = (s.arriveAt d).onEco fun e => { e with reportTimer := some (after d 10000) } := ⟨_, rfl⟩
    have data : economyData u = economyData (s.arriveAt d) := by rw [hu]; rfl
    refine ⟨_, economyReportTimerExpiry_eq h hu, ?_, framed (report_framed (hu ▸ onEco_touches _ _) _), fun taken room => ?_⟩
    · rw [(offerBackground_touches _ _).eco rfl, hu, onEco_eco, arriveAt_eco]
    · rw [← data]
      refine offerBackground_queued (f := u.frame .economyReport 0xFF (economyData u)) ?_ ⟨nofun, nofun⟩ ?_
      · rw [hu, onEco_cfg, arriveAt_cfg]; exact taken
      · rw [hu, onEco_link, arriveAt_link]; exact room
  · unfold nodeStatusData
    rw [statusCounts_of_ne node]
    rfl
  · unfold State.entryCode; rw [h]; rfl
  · unfold State.entryCode; rw [h]; rfl
  · cases b <;> rfl
  · unfold noticeSummary
    rw [padded_take (by rw [queueBytes_length]; omega), queueBytes_length, silence_left hl] <;> rfl
  · unfold State.nearestReport
    rw [show s.svc.nearest = none by rw [nearest_eq, h]; rfl]
    exact ⟨_, _, _, rfl⟩
  · unfold State.grantReport; rw [h]
  · unfold State.grantReport
    rw [h]
    refine ⟨_, _, _, ?_, rfl⟩
    split
    · exact .inr rfl
    · exact .inl rfl

end Sys2Proof.Laws
end

section
/-! The limit items: what an evaluation of limits and its parts leave unchanged (R43, R49). -/

namespace Sys2Proof.Laws

open Sys2Proof.Machine Relation

-- Many short proofs at once would each hold a thread of the checking process.
set_option Elab.async false

variable {s t : State}

/-! ## The sounder's slots under an arbitration -/

/-- Two sounders with the same requests and silence: only what plays, what waits and the count of drops may differ. -/
structure SameSlots (d e : Snd) : Prop where
  class1 : e.class1 = d.class1
  class2 : e.class2 = d.class2
  class3 : e.class3 = d.class3
  class4 : e.class4 = d.class4
  silence : e.silence = d.silence

theorem SameSlots.refl (d : Snd) : SameSlots d d := ⟨rfl, rfl, rfl, rfl, rfl⟩

theorem SameSlots.trans {d e f : Snd} (h : SameSlots d e) (k : SameSlots e f) : SameSlots d f :=
  ⟨k.class1.trans h.class1, k.class2.trans h.class2, k.class3.trans h.class3, k.class4.trans h.class4, k.silence.trans h.silence⟩

theorem sndPlayTop_slots (now : Ms) (d : Snd) : SameSlots d (sndPlayTop now d) := by
  unfold sndPlayTop
  split <;> exact ⟨rfl, rfl, rfl, rfl, rfl⟩

theorem sndTurn_slots (now : Ms) (d : Snd) : SameSlots d (sndTurn now d) := by
  unfold sndTurn
  split
  · exact sndPlayTop_slots now d
  · dsimp only
    split
    · exact SameSlots.trans (e := sndDrop { d with waiting := none }) ⟨rfl, rfl, rfl, rfl, rfl⟩ (sndPlayTop_slots now _)
    · exact ⟨rfl, rfl, rfl, rfl, rfl⟩

theorem sndSettle_slots (now : Ms) (d : Snd) : SameSlots d (sndSettle now d) := by
  have silent : SameSlots d { d with playing := .nothing } := ⟨rfl, rfl, rfl, rfl, rfl⟩
  unfold sndSettle
  split
  · exact sndTurn_slots now d
  · split
    · exact silent.trans (sndTurn_slots now _)
    · exact .refl d
  · split
    · exact silent.trans (sndTurn_slots now _)
    · split
      · exact .refl d
      split
      · exact ⟨rfl, rfl, rfl, rfl, rfl⟩
      · exact silent.trans (sndTurn_slots now _)

theorem sndPlaceOneShot_slots (now : Ms) (o : OneShot) (d : Snd) : SameSlots d (sndPlaceOneShot now o d) := by
  unfold sndPlaceOneShot
  split
  · exact ⟨rfl, rfl, rfl, rfl, rfl⟩
  · split <;> exact ⟨rfl, rfl, rfl, rfl, rfl⟩

/-- No request touches the silence. -/
theorem soundRequest_silence {f : Ms → Snd → Snd} (hf : SoundRequest f) (now : Ms) (d : Snd) : (f now d).silence = d.silence := by
  cases hf with
  | class1 on => exact (sndSettle_slots now _).silence
  | class2 p =>
    unfold sndClass2
    dsimp only
    split
    · exact (sndSettle_slots now _).silence
    · exact (sndSettle_slots now _).silence.trans (sndPlaceOneShot_slots now _ _).silence
    · exact (sndSettle_slots now _).silence.trans (sndPlaceOneShot_slots now _ _).silence
    · exact (sndSettle_slots now _).silence
    · exact (sndSettle_slots now _).silence
  | class3 p => exact (sndSettle_slots now _).silence
  | chirp => exact (sndPlaceOneShot_slots now _ d).silence
  | notice id p =>
    unfold sndNotice
    split
    · exact (sndPlaceOneShot_slots now _ d).silence
    · exact (sndPlaceOneShot_slots now _ d).silence
    · exact (sndSettle_slots now _).silence
    · exact (sndSettle_slots now _).silence
  | withdraw id =>
    unfold sndNoticeWithdraw
    dsimp only
    split
    · split
      · exact (sndTurn_slots now _).silence
      · exact (sndSettle_slots now _).silence
    · exact (sndSettle_slots now _).silence

/-! ## What the acts leave unchanged -/

/-- What a change of LINK's queues leaves: its state, failures, marks and the other counts. -/
def QueuesMoved (l l' : LinkUnit) : Prop :=
  l' = { l with
    rx := l'.rx, itemsTaken := l'.itemsTaken, urgent := l'.urgent, normal := l'.normal, background := l'.background
    onWire := l'.onWire, beside := l'.beside, probe := l'.probe, thinning := l'.thinning, malformed := l'.malformed
    overflows := l'.overflows, thinned := l'.thinned }

theorem QueuesMoved.trans {l m n : LinkUnit} (h : QueuesMoved l m) (k : QueuesMoved m n) : QueuesMoved l n := by
  unfold QueuesMoved at h k ⊢
  rw [h] at k
  exact k

theorem setClass_moved (l : LinkUnit) (cls : TxClass) (fs : List TxFrame) : QueuesMoved l (setClass l cls fs) := by
  cases cls <;> rfl

theorem joinClass_moved (cls : TxClass) (f : TxFrame) (l : LinkUnit) : QueuesMoved l (joinClass cls f l).1 := by
  obtain ⟨-, e⟩ | ⟨-, n, e⟩ := joinClass_cases cls f l <;> rw [e]
  · exact setClass_moved _ _ _
  · refine QueuesMoved.trans (m := { l with overflows := n }) rfl ((setClass_moved _ _ _).trans (setClass_moved _ _ _))

theorem offerFrame_moved (node : NodeState) (cls : TxClass) (f : TxFrame) (l : LinkUnit) :
    QueuesMoved l (offerFrame node cls f l).1 := by
  obtain ⟨n, e⟩ | ⟨g, _, _, _, _, e⟩ | ⟨_, e⟩ | ⟨_, e⟩ := offerFrame_cases node cls f l <;> rw [e]
  · rfl
  · rfl
  · exact setClass_moved _ _ _
  · exact joinClass_moved _ _ _

theorem linkStep_moved {l l' : LinkUnit} (h : LinkStep l l') : QueuesMoved l l' := by
  cases h with
  | offer node cls f => exact offerFrame_moved node cls f l
  | withdraw k => rfl
  | forget o => rfl
  | take rx n m => rfl

theorem agree_refl (s : State) : AgreeOutsideLimits s s := ⟨rfl, rfl, rfl, fun _ => rfl, rfl, rfl, rfl, rfl⟩

theorem agree_trans {u : State} (h : AgreeOutsideLimits s t) (k : AgreeOutsideLimits t u) : AgreeOutsideLimits s u := by
  obtain ⟨all, lim, rule, vch, eco, ntc, snd, link⟩ := h
  obtain ⟨all', lim', rule', vch', eco', ntc', snd', link'⟩ := k
  rw [all] at all'
  rw [lim] at lim'
  rw [rule] at rule'
  rw [eco] at eco'
  rw [ntc] at ntc'
  rw [link] at link'
  exact ⟨all', lim', rule', fun c => by have e := vch' c; rw [vch c] at e; exact e, eco', ntc', snd'.trans snd, link'⟩

theorem agree_link {l : LinkUnit} (h : QueuesMoved s.link l) : AgreeOutsideLimits s { s with link := l } :=
  ⟨rfl, rfl, rfl, fun _ => rfl, rfl, rfl, rfl, h⟩

theorem agree_sound (s : State) {f : Ms → Snd → Snd} (h : SoundRequest f) : AgreeOutsideLimits s (s.sound f) := by
  unfold State.sound
  split
  · exact ⟨rfl, rfl, rfl, fun _ => rfl, rfl, rfl, soundRequest_silence h _ _, rfl⟩
  · exact agree_refl s

theorem noticeAct_agrees (h : NoticeAct s t) : AgreeOutsideLimits s t := by
  cases h with
  | offer cls k dst data lane => exact agree_link (linkStep_moved (offer_queueStep s cls k dst data lane).linkStep)
  | sound hf => exact agree_sound s hf.request
  | ntc f hf => exact ⟨rfl, rfl, rfl, fun _ => rfl, rfl, hf _, rfl, rfl⟩

theorem noticeActs_agree (h : NoticeActs s t) : AgreeOutsideLimits s t := by
  induction h with
  | refl => exact agree_refl s
  | tail _ act ih => exact agree_trans ih (noticeAct_agrees act)

theorem act_agrees (h : Act s t) : AgreeOutsideLimits s t := by
  cases h with
  | link step => exact agree_link (linkStep_moved step.linkStep)
  | sound hf => exact agree_sound s hf
  | raise id v d => exact noticeActs_agree (raiseNotice_noticeActs s id v d)
  | clear id => exact noticeActs_agree (clearNotice_noticeActs s id)
  | eco f hf => exact ⟨rfl, rfl, rfl, fun _ => rfl, hf, rfl, rfl, rfl⟩
  | rule f hf => exact ⟨rfl, rfl, hf _, fun _ => rfl, rfl, rfl, rfl, rfl⟩
  | demand c f hf =>
    have vch : ∀ c', (s.writeDemand c f).vch.get c' = { s.vch.get c' with
        limit := ((s.writeDemand c f).vch.get c').limit, rule := ((s.writeDemand c f).vch.get c').rule
        fail := ((s.writeDemand c f).vch.get c').fail } := fun c' => by
      rw [writeDemand_get]
      split
      · exact hf _
      · rfl
    unfold State.writeDemand at vch ⊢
    split at vch
    · rename_i run
      rw [if_pos run]
      exact ⟨rfl, rfl, rfl, vch, rfl, rfl, rfl, rfl⟩
    · rename_i out
      rw [if_neg out]
      exact agree_refl s
  | limits f hf => exact ⟨rfl, hf _, rfl, fun _ => rfl, rfl, rfl, rfl, rfl⟩

theorem acts_agree (h : Acts s t) : AgreeOutsideLimits s t := by
  induction h with
  | refl => exact agree_refl s
  | tail _ act ih => exact agree_trans ih (act_agrees act)

/-- Settles O24: a limit item is made of acts, and each act keeps to the frame. -/
theorem limitItemsFrame : Obligations.LimitItemsFrame := by
  intro x hx s t h
  simp only [limitItems, List.mem_cons, List.not_mem_nil, or_false] at hx
  have item : ∃ n d p v, exec x.2 s = .next (s.limitItem n d p v) := by
    rcases hx with rfl | rfl | rfl | rfl | rfl | rfl | rfl | rfl | rfl | rfl | rfl | rfl | rfl <;> exact ⟨_, _, _, _, rfl⟩
  obtain ⟨n, d, p, v, e⟩ := item
  rw [e] at h
  obtain rfl : s.limitItem n d p v = t := by injection h
  exact acts_agree (limitItem_acts s n d p v)

end Sys2Proof.Laws
end

section
/-! The limit items decided: the set after the item, the record evaluated on it, and the response (R43 to R49). -/

namespace Sys2Proof.Laws

open Sys2Proof.Machine Relation

-- Many short proofs at once would each hold a thread of the checking process.
set_option Elab.async false

variable {s t : State}

/-! ## States of limits -/

theorem marginState_eq (b m : Int) : marginState b m = if b ≤ m then .clear else if 0 < m then .approach else .stop := rfl

theorem evaluateLimit_absent {l : Limit} (h : s.lim.set.has l = false) : s.evaluateLimit l = ⟨.off, none⟩ := by
  simp [State.evaluateLimit, h]

theorem evaluateLimit_margin {l : Limit} {m : Int} (h : s.lim.set.has l = true) (margin : s.marginOf l = some m) :
    s.evaluateLimit l = ⟨marginState (bandOf s.img.limits l).b m, some m⟩ := by
  simp [State.evaluateLimit, h, margin]

theorem evaluateLimit_fault {l : Limit} (h : s.lim.set.has l = true) (margin : s.marginOf l = none) :
    s.evaluateLimit l = ⟨.fault, none⟩ := by
  simp [State.evaluateLimit, h, margin]

/-- The basis of a limit: the slew for a slew limit, the pose for any other (R50 to R52). -/
def basisOf (s : State) (l : Limit) : Bool := if l = .slewLeft ∨ l = .slewRight then s.slewValid else s.poseUsable

/-- A limit has a margin where it is present and its basis usable. -/
theorem marginOf_isSome (s : State) (l : Limit) : (s.marginOf l).isSome = (basisOf s l && s.lim.set.has l) := by
  cases l
  all_goals
    simp only [State.marginOf, basisOf, LimitSet.has, reduceCtorEq, or_self, or_true, true_or, if_true, if_false]
    split <;> simp_all

/-- The ramp of APPROACH lies between the stop cut and none (R55). -/
theorem rampCut {b : Band} {m : Int} (hb : 100 ≤ b.b) (ha : 0 ≤ b.aStop) (ha' : b.aStop ≤ 200) (low : 0 < m) (high : m < b.b) :
    0 ≤ 1000 - (b.aStop + ((1000 - b.aStop) * m) / b.b) ∧ 1000 - (b.aStop + ((1000 - b.aStop) * m) / b.b) ≤ 1000 - b.aStop := by
  have nonneg : 0 ≤ ((1000 - b.aStop) * m) / b.b := Int.ediv_nonneg (Int.mul_nonneg (by omega) (by omega)) (by omega)
  have less : ((1000 - b.aStop) * m) / b.b ≤ 1000 - b.aStop :=
    Int.ediv_le_of_le_mul (by omega) (Int.mul_le_mul_of_nonneg_left (by omega) (by omega))
  constructor <;> omega

/-- Settles O20: a margin's state and cut by its place in the band, and an evaluation by presence and basis. -/
theorem limitStatesAndCuts : Obligations.LimitStatesAndCuts := by
  refine ⟨fun b m hb hb' ha ha' => ⟨fun h => ⟨if_pos h, rfl⟩, fun low high => ⟨?_, ?_⟩, fun h => ⟨?_, ?_⟩, rfl, rfl⟩,
    fun s l basis hbasis => ⟨evaluateLimit_absent, fun present out => evaluateLimit_fault present ?_, fun present usable => ?_⟩,
    fun u => ⟨rfl, rfl, rfl, rfl, rfl⟩, fun c => ⟨rfl, rfl, rfl, rfl, rfl⟩⟩
  · rw [marginState_eq, if_neg (by omega), if_pos low]
  · obtain ⟨low', high'⟩ := rampCut hb ha ha' low high
    exact ⟨_, rfl, by omega, by omega⟩
  · rw [marginState_eq, if_neg (by omega), if_neg (by omega)]
  · exact ⟨_, rfl, by omega⟩
  · have none := marginOf_isSome s l
    rw [show basisOf s l = false from hbasis.symm.trans out, Bool.false_and] at none
    simpa using none
  · have some := marginOf_isSome s l
    rw [show basisOf s l = true from hbasis.symm.trans usable, present, Bool.true_and, Option.isSome_iff_exists] at some
    obtain ⟨m, margin⟩ := some
    exact ⟨m, margin, evaluateLimit_margin present margin⟩

/-! ## An evaluation of limits -/

theorem evaluateStates_lim (s : State) (p : Limit → Bool) : (s.evaluateStates p).lim = { s.lim with
    records := PerLimit.tabulate fun l => if p l then s.evaluateLimit l else s.lim.records.get l } := by
  unfold State.evaluateStates
  rw [(limitSounds_touches _).lim rfl, (Touches.foldl (fun t l => stopNotice_touches t s.lim.records l) Limit.all _).lim rfl]
  rfl

theorem evaluateLimits_lim (s : State) (p : Limit → Bool) : (s.evaluateLimits p).lim = (s.evaluateStates p).lim := by
  unfold State.evaluateLimits
  dsimp only
  split
  · rw [(rebuild_touches _).lim rfl, (offerStatusChange_touches _).lim rfl, (writeLimitDemands_touches _).lim rfl]
  · rw [(writeLimitDemands_touches _).lim rfl]

/-- An evaluation forms the records of the chosen limits and leaves the others (R53). -/
theorem evaluateLimits_record (s : State) (p : Limit → Bool) (l : Limit) :
    (s.evaluateLimits p).lim.records.get l = if p l then s.evaluateLimit l else s.lim.records.get l := by
  rw [evaluateLimits_lim, evaluateStates_lim]
  exact get_tabulate_limit _ l

theorem evaluateLimits_set (s : State) (p : Limit → Bool) : (s.evaluateLimits p).lim.set = s.lim.set := by
  rw [evaluateLimits_lim, evaluateStates_lim]

/-! ## An item taken -/

theorem takeItem_eq (s : State) : s.takeItem = { s with link := s.takeItem.link } := framed (takeItem_touches s)

theorem takeItem_urgent (s : State) : s.takeItem.link.urgent = s.link.urgent := rfl

theorem takesOffer_run {k : TxKind} (h : s.cfg.node = .run) : takesOffer s.cfg.node k = true := by rw [h]; rfl

/-- What a limit item does with its decision. -/
def limitItemDone (s : State) (p : Limit → Bool) (d : LimitDecision) : State :=
  match d.1 with
  | .refused _ => s.takeItem
  | .accepted | .clamped _ => (s.takeItem.onLim fun v => { v with set := d.2 }).evaluateLimits p

theorem limitItemDone_taken (p : Limit → Bool) {x : SettingResult} (u : LimitSet) (h : ∀ r, x ≠ .refused r) :
    limitItemDone s p (x, u) = (s.takeItem.onLim fun v => { v with set := u }).evaluateLimits p := by
  cases x with
  | refused r => exact absurd rfl (h r)
  | accepted | clamped => rfl

/-- A limit item in RUN is decided on the state as it is, the item taken. -/
theorem limitItem_eq {code : Nat} {i : SettingItem} {d : State → Int → LimitDecision} (p : Limit → Bool)
    (values : LimitSet → Option Int × Option Int × Option Int) (run : s.cfg.node = .run) (h : s.itemFor code = some i)
    (reads : d s.takeItem i.value = d s i.value) {x : SettingResult} {u : LimitSet} (hd : d s i.value = (x, u)) :
    s.limitItem code d p values
      = (limitItemDone s p (x, u)).respond i x (values u).1 (values u).2.1 (values u).2.2 := by
  have taken : s.takeItem.inRun = true := by rw [takeItem_inRun]; exact (inRun_iff s).2 run
  unfold State.limitItem
  rw [h]
  dsimp only
  rw [if_pos taken, reads, hd]
  cases x <;> rfl

/-- A refused limit item changes LINK alone, and is answered. -/
theorem limitItem_refused {code : Nat} {i : SettingItem} {d : State → Int → LimitDecision} (p : Limit → Bool)
    (values : LimitSet → Option Int × Option Int × Option Int) (run : s.cfg.node = .run) (h : s.itemFor code = some i)
    {r : Reason} (hd : d s i.value = (.refused r, s.lim.set)) (reads : d s.takeItem i.value = d s i.value := by rfl) {t : State}
    (ht : t = s.limitItem code d p values) :
    t.lim = s.lim ∧ ItemAnswered t i (.refused r) (values s.lim.set).1 (values s.lim.set).2.1 (values s.lim.set).2.2 := by
  rw [limitItem_eq p values run h reads hd] at ht
  rw [ht]
  refine ⟨((respond_touches _ _ _ _ _ _).lim rfl).trans ((takeItem_touches s).lim rfl), respond_answered (takesOffer_run ?_) _ _ _ _ _⟩
  exact (congrArg Cfg.node ((takeItem_touches s).cfg rfl)).trans run

/-- A taken limit item leaves its set, the record of each limit it changes evaluated on it, and is answered. -/
theorem limitItem_taken {code : Nat} {i : SettingItem} {d : State → Int → LimitDecision} (p : Limit → Bool)
    (values : LimitSet → Option Int × Option Int × Option Int) (run : s.cfg.node = .run) (h : s.itemFor code = some i)
    {x : SettingResult} {u : LimitSet} (hd : d s i.value = (x, u)) (notRefused : ∀ r, x ≠ .refused r)
    (reads : d s.takeItem i.value = d s i.value := by rfl) {t : State} (ht : t = s.limitItem code d p values) :
    t.lim.set = u ∧ (∀ l, p l = true → t.lim.records.get l = State.evaluateLimit { s with lim := { s.lim with set := t.lim.set } } l)
      ∧ ItemAnswered t i x (values u).1 (values u).2.1 (values u).2.2 := by
  obtain ⟨v, hv⟩ : ∃ v, v = (s.takeItem.onLim fun v => { v with set := u }) := ⟨_, rfl⟩
  have e : t = (v.evaluateLimits p).respond i x (values u).1 (values u).2.1 (values u).2.2 := by
    rw [ht, limitItem_eq p values run h reads hd, hv, limitItemDone_taken p u notRefused]
  have lim : t.lim = (v.evaluateLimits p).lim := by rw [e, (respond_touches _ _ _ _ _ _).lim rfl]
  have set : t.lim.set = u := by rw [lim, evaluateLimits_set, hv]; rfl
  refine ⟨set, fun l hl => ?_, ?_⟩
  · rw [set, lim, evaluateLimits_record, if_pos hl, hv]
    rfl
  · rw [e]
    refine respond_answered (takesOffer_run ?_) _ _ _ _ _
    rw [(evaluateLimits_touches _ _).cfg rfl, hv, onLim_cfg, (takeItem_touches s).cfg rfl, run]

/-! ## The floor, ceiling and reach items -/

theorem byRange_eq {a b : Int} : byRange (a != b) = if a = b then .accepted else .clamped none := by
  by_cases h : a = b <;> simp [byRange, h]

theorem byRange_ne {b : Bool} (r : Reason) : byRange b ≠ .refused r := by cases b <;> simp [byRange]

/-- A floor is in conflict with the ceiling where it leaves it less than 500 mm (R48). -/
theorem floorConflict_iff {u : LimitSet} {f : Floor} (h : u.floor = some f) :
    floorConflict u = true ↔ ∃ c, u.ceiling = some c ∧ c < f.f0 + 500 := by
  unfold floorConflict
  rw [h]
  cases e : u.ceiling with
  | none => simp
  | some c => simp

theorem floorConflict_of_room {u : LimitSet} {f : Floor} (h : u.floor = some f) (room : ∀ c, u.ceiling = some c → f.f0 + 500 ≤ c) :
    floorConflict u = false := by
  rw [Bool.eq_false_iff, Ne, floorConflict_iff h]
  rintro ⟨c, hc, low⟩
  have := room c hc
  omega

/-- A floor item decided by its conflict with the ceiling: refused where there is one, and else the floor in place (R44, R48). -/
theorem floorItem {code : Nat} {i : SettingItem} {d : State → Int → LimitDecision} (run : s.cfg.node = .run)
    (h : s.itemFor code = some i) (f : Floor) (v : Int) {u : LimitSet} (hu : u = { s.lim.set with floor := some f })
    (hd : d s i.value = if floorConflict u then (.refused .conflict, s.lim.set) else (byRange (f.f0 != v), u)) (reads : d s.takeItem i.value = d s i.value) {t : State}
    (ht : t = s.limitItem code d (· == .floor) floorValues) :
    (∀ c, s.lim.set.ceiling = some c → c < f.f0 + 500 → t.lim.set = s.lim.set ∧ ItemAnswered t i (.refused .conflict)
      (s.lim.set.floor.map (·.f0)) (s.lim.set.floor.map (·.s)) (s.lim.set.floor.map (·.r0)))
    ∧ ((∀ c, s.lim.set.ceiling = some c → f.f0 + 500 ≤ c) → t.lim.set = { s.lim.set with floor := some f }
      ∧ t.lim.records.floor = State.evaluateLimit { s with lim := { s.lim with set := t.lim.set } } .floor
      ∧ ItemAnswered t i (if f.f0 = v then .accepted else .clamped none) (some f.f0) (some f.s) (some f.r0)) := by
  have floor : u.floor = some f := by rw [hu]
  have ceiling : u.ceiling = s.lim.set.ceiling := by rw [hu]
  refine ⟨fun c hc low => ?_, fun room => ?_⟩
  · rw [if_pos ((floorConflict_iff floor).2 ⟨c, ceiling.trans hc, low⟩)] at hd
    obtain ⟨lim, answered⟩ := limitItem_refused _ _ run h hd reads ht
    exact ⟨congrArg LimitUnit.set lim, answered⟩
  · rw [floorConflict_of_room floor fun c hc => room c (ceiling.symm.trans hc), if_neg Bool.false_ne_true] at hd
    obtain ⟨set, record, answered⟩ := limitItem_taken _ _ run h hd byRange_ne reads ht
    rw [byRange_eq, floorValues, floor] at answered
    rw [hu] at set
    exact ⟨set, record .floor rfl, answered⟩

/-- Settles O21: the four floor items, each by its decision. -/
theorem floorItems : Obligations.FloorItems := by
  refine ⟨fun s i f run h hf => ⟨_, rfl, ?_⟩, fun s i f run h hf => ⟨_, rfl, fun out => ?_, fun usable => ?_, fun usable => ?_⟩,
    fun s i v run h hv => ⟨_, rfl, fun none => ?_, fun f floor => ?_⟩, fun s i run h => ⟨_, rfl, ?_⟩⟩
  · subst hf
    exact floorItem run h _ i.value rfl rfl rfl rfl
  · have refused : decideFloorAtTip s i.value = (.refused .noPose, s.lim.set) := by simp [decideFloorAtTip, out]
    obtain ⟨lim, answered⟩ := limitItem_refused (· == .floor) floorValues run h refused rfl rfl
    exact ⟨congrArg LimitUnit.set lim, answered⟩
  · have decided : decideFloorAtTip s i.value = if floorConflict { s.lim.set with floor := some f } then
        (.refused .conflict, s.lim.set) else (byRange (f.f0 != s.pose.record.p3Height), { s.lim.set with floor := some f }) := by
      simp [decideFloorAtTip, usable, hf]
    exact (floorItem run h f _ rfl decided rfl rfl).1
  · have decided : decideFloorAtTip s i.value = if floorConflict { s.lim.set with floor := some f } then
        (.refused .conflict, s.lim.set) else (byRange (f.f0 != s.pose.record.p3Height), { s.lim.set with floor := some f }) := by
      simp [decideFloorAtTip, usable, hf]
    exact (floorItem run h f _ rfl decided rfl rfl).2
  · have refused : decideSlope s i.value = (.refused .absent, s.lim.set) := by simp [decideSlope, none]
    obtain ⟨lim, answered⟩ := limitItem_refused (· == .floor) floorValues run h refused rfl rfl
    rw [floorValues, none] at answered
    exact ⟨congrArg LimitUnit.set lim, answered⟩
  · have decided : decideSlope s i.value = (byRange (v != i.value), { s.lim.set with floor := some { f with s := v } }) := by
      simp [decideSlope, floor, hv]
    obtain ⟨set, record, answered⟩ := limitItem_taken (· == .floor) floorValues run h decided byRange_ne rfl rfl
    rw [byRange_eq] at answered
    exact ⟨set, record .floor rfl, answered⟩
  · obtain ⟨set, record, answered⟩ := limitItem_taken (d := decideClearFloor) (· == .floor) floorValues run h rfl nofun rfl rfl
    refine ⟨set, ?_, answered⟩
    exact (record .floor rfl).trans (evaluateLimit_absent (by rw [set]; rfl))

theorem ceilingConflict_iff {u : LimitSet} {c : Int} (h : u.ceiling = some c) :
    floorConflict u = true ↔ ∃ f, u.floor = some f ∧ c < f.f0 + 500 := by
  unfold floorConflict
  rw [h]
  cases e : u.floor with
  | none => simp
  | some f => simp

/-- Settles O22: the ceiling and reach items, each by its decision. -/
theorem ceilingAndReachItems : Obligations.CeilingAndReachItems := by
  refine ⟨fun s i c run h hc => ⟨_, rfl, fun f hf low => ?_, fun room => ?_⟩, fun s i run h => ⟨_, rfl, ?_⟩,
    fun s i r run h hr => ⟨_, rfl, ?_⟩, fun s i run h => ⟨_, rfl, ?_⟩⟩
  · have refused : decideCeiling s i.value = (.refused .conflict, s.lim.set) := by
      subst hc
      exact if_pos ((ceilingConflict_iff (u := { s.lim.set with ceiling := some _ }) rfl).2 ⟨f, hf, low⟩)
    obtain ⟨lim, answered⟩ := limitItem_refused (· == .ceiling) (fun u => oneValue u.ceiling) run h refused rfl rfl
    exact ⟨congrArg LimitUnit.set lim, answered⟩
  · have decided : decideCeiling s i.value = (byRange (c != i.value), { s.lim.set with ceiling := some c }) := by
      subst hc
      refine if_neg fun conflict => ?_
      obtain ⟨f, hf, low⟩ := (ceilingConflict_iff (u := { s.lim.set with ceiling := some _ }) rfl).1 conflict
      have := room f hf
      omega
    obtain ⟨set, record, answered⟩ :=
      limitItem_taken (· == .ceiling) (fun u => oneValue u.ceiling) run h decided byRange_ne rfl rfl
    rw [byRange_eq] at answered
    exact ⟨set, record .ceiling rfl, answered⟩
  · obtain ⟨set, record, answered⟩ :=
      limitItem_taken (d := decideClearCeiling) (· == .ceiling) (fun u => oneValue u.ceiling) run h rfl nofun rfl rfl
    refine ⟨set, ?_, answered⟩
    exact (record .ceiling rfl).trans (evaluateLimit_absent (by rw [set]; rfl))
  · obtain ⟨set, record, answered⟩ :=
      limitItem_taken (d := decideReach) (· == .reach) (fun u => oneValue u.reach) run h rfl byRange_ne rfl rfl
    rw [← hr, byRange_eq] at answered
    rw [← hr] at set
    exact ⟨set, record .reach rfl, answered⟩
  · obtain ⟨set, record, answered⟩ :=
      limitItem_taken (d := decideClearReach) (· == .reach) (fun u => oneValue u.reach) run h rfl nofun rfl rfl
    refine ⟨set, ?_, answered⟩
    exact (record .reach rfl).trans (evaluateLimit_absent (by rw [set]; rfl))

/-! ## The slew items -/

theorem itemFor_code {n : Nat} {i : SettingItem} (h : s.itemFor n = some i) : i.code = n := by
  have := Option.filter_eq_some_iff.1 h
  simpa using this.2

theorem slewConflict_iff_left {u : LimitSet} {l : Int} (h : u.slewLeft = some l) :
    slewConflict u = true ↔ ∃ r, u.slewRight = some r ∧ l - r < 1820 := by
  unfold slewConflict
  rw [h]
  cases e : u.slewRight with
  | none => simp
  | some r => simp

theorem slewConflict_iff_right {u : LimitSet} {r : Int} (h : u.slewRight = some r) :
    slewConflict u = true ↔ ∃ l, u.slewLeft = some l ∧ l - r < 1820 := by
  unfold slewConflict
  rw [h]
  cases e : u.slewLeft with
  | none => simp
  | some l => simp

/-- A left slew item whose value is `v`, by its conflict with the right limit (R47, R48). -/
theorem slewLeftItem {code : Nat} {i : SettingItem} {d : State → Int → LimitDecision} (run : s.cfg.node = .run)
    (h : s.itemFor code = some i) {v : Int} (hd : d s i.value = decideSlewLeft s v) (reads : d s.takeItem i.value = d s i.value)
    {t : State} (ht : t = s.limitItem code d (· == .slewLeft) fun u => oneValue u.slewLeft) :
    (∀ r, s.lim.set.slewRight = some r → v - r < 1820 →
      t.lim = s.lim ∧ ItemAnswered t i (.refused .conflict) s.lim.set.slewLeft none none)
    ∧ ((∀ r, s.lim.set.slewRight = some r → 1820 ≤ v - r) →
      t.lim.set = { s.lim.set with slewLeft := some v } ∧ ItemAnswered t i .accepted (some v) none none
        ∧ t.lim.records.slewLeft = State.evaluateLimit { s with lim := { s.lim with set := t.lim.set } } .slewLeft) := by
  refine ⟨fun r hr low => ?_, fun room => ?_⟩
  · have refused : decideSlewLeft s v = (.refused .conflict, s.lim.set) :=
      if_pos ((slewConflict_iff_left (u := { s.lim.set with slewLeft := some v }) rfl).2 ⟨r, hr, low⟩)
    obtain ⟨lim, answered⟩ := limitItem_refused _ _ run h (hd.trans refused) reads ht
    exact ⟨lim, answered⟩
  · have decided : decideSlewLeft s v = (.accepted, { s.lim.set with slewLeft := some v }) := by
      refine if_neg fun conflict => ?_
      obtain ⟨r, hr, low⟩ := (slewConflict_iff_left (u := { s.lim.set with slewLeft := some v }) rfl).1 conflict
      have := room r hr
      omega
    obtain ⟨set, record, answered⟩ := limitItem_taken _ _ run h (hd.trans decided) nofun reads ht
    exact ⟨set, answered, record .slewLeft rfl⟩

/-- A right slew item whose value is `v`, by its conflict with the left limit (R47, R48). -/
theorem slewRightItem {code : Nat} {i : SettingItem} {d : State → Int → LimitDecision} (run : s.cfg.node = .run)
    (h : s.itemFor code = some i) {v : Int} (hd : d s i.value = decideSlewRight s v) (reads : d s.takeItem i.value = d s i.value)
    {t : State} (ht : t = s.limitItem code d (· == .slewRight) fun u => oneValue u.slewRight) :
    (∀ l, s.lim.set.slewLeft = some l → l - v < 1820 →
      t.lim = s.lim ∧ ItemAnswered t i (.refused .conflict) s.lim.set.slewRight none none)
    ∧ ((∀ l, s.lim.set.slewLeft = some l → 1820 ≤ l - v) →
      t.lim.set = { s.lim.set with slewRight := some v } ∧ ItemAnswered t i .accepted (some v) none none
        ∧ t.lim.records.slewRight = State.evaluateLimit { s with lim := { s.lim with set := t.lim.set } } .slewRight) := by
  refine ⟨fun l hl low => ?_, fun room => ?_⟩
  · have refused : decideSlewRight s v = (.refused .conflict, s.lim.set) :=
      if_pos ((slewConflict_iff_right (u := { s.lim.set with slewRight := some v }) rfl).2 ⟨l, hl, low⟩)
    obtain ⟨lim, answered⟩ := limitItem_refused _ _ run h (hd.trans refused) reads ht
    exact ⟨lim, answered⟩
  · have decided : decideSlewRight s v = (.accepted, { s.lim.set with slewRight := some v }) := by
      refine if_neg fun conflict => ?_
      obtain ⟨l, hl, low⟩ := (slewConflict_iff_right (u := { s.lim.set with slewRight := some v }) rfl).1 conflict
      have := room l hl
      omega
    obtain ⟨set, record, answered⟩ := limitItem_taken _ _ run h (hd.trans decided) nofun reads ht
    exact ⟨set, answered, record .slewRight rfl⟩

/-- Settles O23: the slew items, each by its decision. -/
theorem slewItems : Obligations.SlewItems := by
  refine ⟨fun s i v run h => ?_, fun s i v run h => ?_, fun s i run h => ⟨_, rfl, ?_⟩⟩
  · rcases h with ⟨h, rfl⟩ | ⟨h, rfl⟩
    · have code := itemFor_code h
      rw [if_pos code]
      refine ⟨_, rfl, fun other => ?_, fun _ => ?_⟩
      · rw [code] at other; cases other
      · exact slewLeftItem (d := decideSlewLeft) run h rfl rfl rfl
    · have code := itemFor_code h
      have other : ¬ i.code = 0x09 := by rw [code]; decide
      rw [if_neg other]
      refine ⟨_, rfl, fun _ out => ?_, fun usable => ?_⟩
      · have refused : decideSlewLeftHere s i.value = (.refused .noSlew, s.lim.set) := if_neg (by simp [out])
        obtain ⟨lim, answered⟩ :=
          limitItem_refused (· == .slewLeft) (fun u => oneValue u.slewLeft) run h refused rfl rfl
        exact ⟨lim, answered⟩
      · exact slewLeftItem (d := decideSlewLeftHere) run h (if_pos (usable.resolve_left other)) rfl rfl
  · rcases h with ⟨h, rfl⟩ | ⟨h, rfl⟩
    · have code := itemFor_code h
      rw [if_pos code]
      refine ⟨_, rfl, fun other => ?_, fun _ => ?_⟩
      · rw [code] at other; cases other
      · exact slewRightItem (d := decideSlewRight) run h rfl rfl rfl
    · have code := itemFor_code h
      have other : ¬ i.code = 0x0A := by rw [code]; decide
      rw [if_neg other]
      refine ⟨_, rfl, fun _ out => ?_, fun usable => ?_⟩
      · have refused : decideSlewRightHere s i.value = (.refused .noSlew, s.lim.set) := if_neg (by simp [out])
        obtain ⟨lim, answered⟩ :=
          limitItem_refused (· == .slewRight) (fun u => oneValue u.slewRight) run h refused rfl rfl
        exact ⟨lim, answered⟩
      · exact slewRightItem (d := decideSlewRightHere) run h (if_pos (usable.resolve_left other)) rfl rfl
  · obtain ⟨set, record, answered⟩ :=
      limitItem_taken (d := decideClearSlew) isSlew (fun u => (u.slewLeft, u.slewRight, none)) run h rfl nofun rfl rfl
    exact ⟨set, (record .slewLeft rfl).trans (evaluateLimit_absent (by rw [set]; rfl)),
      (record .slewRight rfl).trans (evaluateLimit_absent (by rw [set]; rfl)), answered⟩

end Sys2Proof.Laws
end

section
/-! The setting items outside RUN: each is refused with STATE, and changes LINK alone (R43, R164, R177). -/

namespace Sys2Proof.Laws

open Sys2Proof.Machine Relation

-- Many short proofs at once would each hold a thread of the checking process.
set_option Elab.async false

variable {s t : State} {i : SettingItem}

/-- An outcome that refuses the item with STATE and changes LINK alone. -/
def RefusesState (s : State) (i : SettingItem) (o : Host.Outcome State Fault Refusal) : Prop :=
  ∃ t, o = .next t ∧ t = { s with link := t.link } ∧ ItemRefusedState t i

/-- The item taken and answered is a change of LINK alone. -/
theorem takeItem_respond_eq (s : State) (i : SettingItem) (r : SettingResult) (a b c : Option Int) :
    s.takeItem.respond i r a b c = { s with link := (s.takeItem.respond i r a b c).link } :=
  framed ((takeItem_touches s).trans (respond_touches s.takeItem i r a b c))

theorem takeItem_takesOffer {k : TxKind} (h : takesOffer s.cfg.node k = true) :
    takesOffer s.takeItem.cfg.node k = true := by rw [(takeItem_touches s).cfg rfl]; exact h

/-- In JOIN and STORE responses are offered, and units do not act. -/
theorem takesOffer_waiting {k : TxKind} (h : s.cfg.node = .join ∨ s.cfg.node = .store) :
    takesOffer s.cfg.node k = true := by
  rcases h with h | h <;> rw [h] <;> rfl

theorem notRun_waiting (h : s.cfg.node = .join ∨ s.cfg.node = .store) : s.inRun = false := by
  rcases h with h | h <;> (unfold State.inRun; rw [h]; rfl)

theorem respond_refusesState (h : takesOffer s.cfg.node .settingResponse = true) (a b c : Option Int) :
    RefusesState s i (.next (s.takeItem.respond i (.refused .state) a b c)) := by
  obtain ⟨f, last, kind, destination, data⟩ :=
    respond_answered (takeItem_takesOffer h) i (.refused .state) a b c
  exact ⟨_, rfl, takeItem_respond_eq s i _ a b c, f, last, kind, destination, by rw [data]; rfl⟩

/-- Outside RUN a refused item writes the held value back, which is no change. -/
theorem refused_unchanged {o : Host.Outcome State Fault Refusal} {u : State}
    (h : takesOffer s.cfg.node .settingResponse = true) (a b c : Option Int)
    (e : o = .next (u.respond i (.refused .state) a b c)) (same : u = s.takeItem) : RefusesState s i o := by
  rw [e, same]
  exact respond_refusesState h a b c

section
variable (takes : takesOffer s.cfg.node .settingResponse = true) (out : s.inRun = false)
include takes out

theorem limitItem_refusesState {n : Nat} (h : s.itemFor n = some i) (d : State → Int → LimitDecision) (p : Limit → Bool)
    (values : LimitSet → Option Int × Option Int × Option Int) : RefusesState s i (.next (s.limitItem n d p values)) := by
  unfold State.limitItem
  rw [h]
  dsimp only
  rw [takeItem_inRun, out]
  exact respond_refusesState takes _ _ _

theorem workMode_refusesState (h : s.itemFor 0x10 = some i) : RefusesState s i (execWorkMode s) := by
  unfold execWorkMode
  rw [h, out]
  exact refused_unchanged takes _ _ _ rfl (if_pos (by rw [(takeItem_touches s).eco rfl]; rfl))

theorem autoIdleEnable_refusesState (h : s.itemFor 0x11 = some i) : RefusesState s i (execAutoIdleEnable s) := by
  unfold execAutoIdleEnable
  rw [h, out]
  exact refused_unchanged takes _ _ _ rfl (if_pos (by rw [(takeItem_touches s).eco rfl]; rfl))

theorem autoIdleDelay_refusesState (h : s.itemFor 0x12 = some i) : RefusesState s i (execAutoIdleDelay s) := by
  unfold execAutoIdleDelay
  rw [h, out]
  exact refused_unchanged takes _ _ _ rfl (if_pos (by rw [(takeItem_touches s).eco rfl]; rfl))

theorem setProfile_refusesState (h : s.itemFor 0x18 = some i) : RefusesState s i (execSetProfile s) := by
  unfold execSetProfile
  rw [h, out]
  exact refused_unchanged takes _ _ _ rfl (if_pos rfl)

theorem serviceDone_refusesState (h : s.itemFor 0x20 = some i) : RefusesState s i (execServiceDone s) := by
  have refused : decideServiceDone s.takeItem i.value = .refused .state := by
    unfold decideServiceDone
    rw [takeItem_inRun, out]
    rfl
  unfold execServiceDone
  rw [h]
  dsimp only
  rw [refused, if_neg (by decide)]
  exact respond_refusesState takes _ _ _

theorem noticeInhibit_refusesState (h : s.itemFor 0x28 = some i) : RefusesState s i (execNoticeInhibit s) := by
  have held : (s.takeItem.onNtc fun n => { n with operatorInhibit := s.ntc.operatorInhibit }) = s.takeItem := by
    rw [← (takeItem_touches s).ntc rfl]
    rfl
  have same : (s.takeItem.setConditions fun n => { n with operatorInhibit := s.ntc.operatorInhibit }) = s.takeItem := by
    unfold State.setConditions
    dsimp only
    rw [held, if_pos ⟨rfl, rfl⟩]
  unfold execNoticeInhibit
  rw [h, out]
  exact refused_unchanged takes _ _ _ rfl same

theorem silence_refusesState (h : s.itemFor 0x2A = some i) : RefusesState s i (execSilence s) := by
  unfold execSilence
  rw [h, out]
  exact respond_refusesState takes _ _ _

theorem limitItems_refuseState : ∀ x ∈ limitItems, s.itemFor x.1 = some i → RefusesState s i (exec x.2 s) := by
  intro x hx h
  have item : ∃ d p v, exec x.2 s = .next (s.limitItem x.1 d p v) := by
    simp only [limitItems, List.mem_cons, List.not_mem_nil, or_false] at hx
    rcases hx with rfl | rfl | rfl | rfl | rfl | rfl | rfl | rfl | rfl | rfl | rfl | rfl | rfl <;>
      exact ⟨_, _, _, rfl⟩
  obtain ⟨d, p, v, e⟩ := item
  rw [e]
  exact limitItem_refusesState takes out h d p v

theorem answeredItems_refuseState : ∀ x ∈ answeredItems, s.itemFor x.1 = some i → RefusesState s i (exec x.2 s) := by
  unfold answeredItems
  rw [List.forall_mem_append]
  refine ⟨limitItems_refuseState takes out, ?_⟩
  intro x hx h
  simp only [List.mem_cons, List.not_mem_nil, or_false] at hx
  rcases hx with rfl | rfl | rfl | rfl | rfl | rfl | rfl
  · exact workMode_refusesState takes out h
  · exact autoIdleEnable_refusesState takes out h
  · exact autoIdleDelay_refusesState takes out h
  · exact setProfile_refusesState takes out h
  · exact serviceDone_refusesState takes out h
  · exact noticeInhibit_refusesState takes out h
  · exact silence_refusesState takes out h

end

/-- Settles O25: by item, the refusal and the one response it offers. -/
theorem settingItemsRefused : Obligations.SettingItemsRefused := by
  unfold Obligations.SettingItemsRefused
  refine ⟨fun x hx s i node h => ?_, fun s i out h => ?_, fun s i takes next unnamed => ?_⟩
  · exact answeredItems_refuseState (takesOffer_waiting node) (notRun_waiting node) x hx h
  · have notRun : s.inRun = false := by rw [← Bool.not_eq_true, inRun_iff]; exact out
    refine ⟨s.takeItem, ?_, takeItem_eq s, takeItem_urgent s⟩
    show execNoticeAck s = _
    unfold execNoticeAck
    rw [h, notRun]
    rfl
  · refine ⟨s.takeItem.respond i (.refused .range) none none none, ?_, takeItem_respond_eq s i _ _ _ _, ?_⟩
    · show execSettingItemUnknown s = _
      unfold execSettingItemUnknown
      rw [next]
      dsimp only
      rw [if_neg (by simpa using unnamed)]
    · exact respond_answered (takeItem_takesOffer takes) i (.refused .range) none none none

end Sys2Proof.Laws
end

section
/-! Functional statements of small parts: the zone key, the rule lookup and the fuel of an arrival (R64, R65, R70, R132). -/

namespace Sys2Proof.Laws

open Sys2Proof.Machine Relation

-- Many short proofs at once would each hold a thread of the checking process.
set_option Elab.async false

variable {s t : State}

/-! ## The zone key -/

/-- A number packed of fields, each a value and its base, the lowest first. -/
def packed : List (Nat × Nat) → Nat
  | [] => 0
  | f :: fs => f.1 + f.2 * packed fs

/-- The place value of a field of a packed number. -/
def place : List (Nat × Nat) → Nat → Nat
  | f :: fs, n + 1 => f.2 * place fs n
  | _, _ => 1

theorem packed_lt : ∀ fs : List (Nat × Nat), (∀ f ∈ fs, f.1 < f.2) → packed fs < place fs fs.length
  | [], _ => by decide
  | f :: fs, fits => by
    have rest := packed_lt fs fun g hg => fits g (List.mem_cons_of_mem _ hg)
    have first := fits f (List.mem_cons_self ..)
    calc f.1 + f.2 * packed fs < f.2 * (packed fs + 1) := by rw [Nat.mul_add]; omega
      _ ≤ f.2 * place fs fs.length := Nat.mul_le_mul_left _ rest

theorem packed_div_place : ∀ (fs : List (Nat × Nat)) (n : Nat), (∀ f ∈ fs, f.1 < f.2) →
    packed fs / place fs n = packed (fs.drop n)
  | fs, 0, _ => by cases fs <;> simp [place]
  | [], _ + 1, _ => by simp [place]
  | f :: fs, n + 1, fits => by
    have rest := packed_div_place fs n fun g hg => fits g (List.mem_cons_of_mem _ hg)
    have first := fits f (List.mem_cons_self ..)
    rw [List.drop_succ_cons, ← rest]
    show (f.1 + f.2 * packed fs) / (f.2 * place fs n) = _
    rw [← Nat.div_div_eq_div_mul, Nat.add_mul_div_left _ _ (by omega), Nat.div_eq_of_lt first, Nat.zero_add]

/-- A field of a packed number is read back at its place. -/
theorem packed_field {fs : List (Nat × Nat)} (fits : ∀ f ∈ fs, f.1 < f.2) (n : Nat) {v b : Nat} (h : fs[n]? = some (v, b)) :
    packed fs / place fs n % b = v := by
  obtain ⟨inside, e⟩ := List.getElem?_eq_some_iff.1 h
  rw [packed_div_place fs n fits, List.drop_eq_getElem_cons inside, e]
  show (v + b * _) % b = v
  rw [Nat.add_mul_mod_self_left, Nat.mod_eq_of_lt]
  exact fits (v, b) (e ▸ List.getElem_mem inside)

/-- The fields of the zone key in the order of their places (R65). -/
def keyFields (s : State) : List (Nat × Nat) := [
  (s.heightZone % 8, 8), (s.reachZone % 8, 8), (s.slewZone % 8, 8), (bit s.poseUsable, 2), (bit s.slewValid, 2),
  (s.eco.mode.code, 4), (bit (s.usable .hydraulicState && (s.mailbox .hydraulicState).travel), 2),
  (bit s.engineRunning, 2), (bit (s.lever 0), 2), (bit (s.lever 1), 2), (bit (s.lever 2), 2), (bit (s.lever 3), 2),
  (bit s.hold.active, 2), (bit (s.lim.near .floor), 2), (bit (s.lim.near .ceiling), 2), (bit (s.lim.near .reach), 2),
  (bit (s.lim.near .slewLeft), 2), (bit (s.lim.near .slewRight), 2), (s.rule.profile % 4, 4)]

theorem keyFields_fit (s : State) : ∀ f ∈ keyFields s, f.1 < f.2 := by
  have octal (n : Nat) : n % 8 < 8 := Nat.mod_lt _ (by decide)
  have flag (b : Bool) : bit b < 2 := by cases b <;> decide
  have mode (m : WorkMode) : m.code < 4 := by cases m <;> decide
  have profile (n : Nat) : n % 4 < 4 := Nat.mod_lt _ (by decide)
  simp only [keyFields, List.forall_mem_cons]
  exact ⟨octal _, octal _, octal _, flag _, flag _, mode _, flag _, flag _, flag _, flag _, flag _, flag _, flag _, flag _,
    flag _, flag _, flag _, flag _, profile _, nofun⟩

/-- The zone key is its fields packed. -/
theorem zoneKey_packed (s : State) : s.zoneKey.toNat = packed (keyFields s) := by
  have width : place (keyFields s) (keyFields s).length = 2 ^ 27 := by simp [keyFields, place]
  have fits : packed (keyFields s) < 2 ^ 27 := width ▸ packed_lt _ (keyFields_fit s)
  unfold State.zoneKey
  rw [BitVec.toNat_ofNat, ← Nat.mod_eq_of_lt fits]
  refine congrArg (· % 2 ^ 27) ?_
  simp only [keyFields, packed]
  ring

theorem zoneKey_field (n : Nat) {v b d : Nat} (h : (keyFields s)[n]? = some (v, b))
    (at_ : place (keyFields s) n = d := by simp [keyFields, place]) : s.zoneKey.toNat / d % b = v := by
  rw [zoneKey_packed, ← at_]
  exact packed_field (keyFields_fit s) n h

theorem getLsbD_of_quot {k : Key} {n : Nat} {b : Bool} (h : k.toNat / 2 ^ n % 2 = bit b) : k.getLsbD n = b := by
  show k.toNat.testBit n = b
  rw [Nat.testBit_eq_decide_div_mod_eq, h]
  cases b <;> rfl

/-- A flag of the zone key is read at its bit. -/
theorem zoneKey_flag (n i : Nat) {c : Bool} (h : (keyFields s)[n]? = some (bit c, 2)) 
    (at_ : place (keyFields s) n = 2 ^ i := by simp [keyFields, place]) :
    s.zoneKey.getLsbD i = c :=
  getLsbD_of_quot (zoneKey_field n h at_)

theorem zone_le (thresholds : List Int) (v : Int) : zoneOf thresholds v ≤ thresholds.length := List.length_filter_le _ _

theorem heightZone_le (s : State) : s.heightZone ≤ s.img.zones.height.length := by
  unfold State.heightZone
  split
  · exact zone_le _ _
  · exact Nat.zero_le _

theorem reachZone_le (s : State) : s.reachZone ≤ s.img.zones.reach.length := by
  unfold State.reachZone
  split
  · exact zone_le _ _
  · exact Nat.zero_le _

theorem slewZone_le (s : State) : s.slewZone ≤ s.img.zones.slew.length := by
  unfold State.slewZone
  split
  · exact zone_le _ _
  · exact Nat.zero_le _

/-- Settles O27: the key is its fields packed, and each is read back at its place. -/
theorem zoneKeyFields : Obligations.ZoneKeyFields := by
  rintro s k rfl
  have mode : s.zoneKey.toNat / 2048 % 4 = s.eco.mode.code := zoneKey_field 5 rfl
  refine ⟨fun out => ⟨if_neg (by simp [out]), if_neg (by simp [out])⟩, fun out => if_neg (by simp [out]),
    fun usable => ⟨if_pos usable, if_pos usable⟩, fun valid => if_pos valid, fun few => ?_, fun few => ?_, fun few => ?_,
    zoneKey_flag 3 9 rfl, zoneKey_flag 4 10 rfl, mode, zoneKey_flag 6 13 rfl,
    zoneKey_flag 7 14 rfl, fun n hn => ?levers, zoneKey_flag 12 19 rfl, fun l => ?limits, fun small => ?profile⟩
  · have field : s.zoneKey.toNat / 1 % 8 = s.heightZone % 8 := zoneKey_field 0 rfl
    have zone := heightZone_le s
    omega
  · have field : s.zoneKey.toNat / 8 % 8 = s.reachZone % 8 := zoneKey_field 1 rfl
    have zone := reachZone_le s
    omega
  · have field : s.zoneKey.toNat / 64 % 8 = s.slewZone % 8 := zoneKey_field 2 rfl
    have zone := slewZone_le s
    omega
  case levers =>
    match n, hn with
    | 0, _ => exact zoneKey_flag 8 15 rfl
    | 1, _ => exact zoneKey_flag 9 16 rfl
    | 2, _ => exact zoneKey_flag 10 17 rfl
    | 3, _ => exact zoneKey_flag 11 18 rfl
  case limits =>
    cases l with
    | floor => exact zoneKey_flag 13 20 rfl
    | ceiling => exact zoneKey_flag 14 21 rfl
    | reach => exact zoneKey_flag 15 22 rfl
    | slewLeft => exact zoneKey_flag 16 23 rfl
    | slewRight => exact zoneKey_flag 17 24 rfl
  case profile =>
    have last : s.zoneKey.toNat / 33554432 % 4 = s.rule.profile % 4 := zoneKey_field 18 rfl
    have bounded := s.zoneKey.isLt
    omega

/-! ## The lookup -/

/-- A slot matches where the key agrees with it in every bit under its care mask. -/
theorem slotMatches_iff (k : Key) (r : RuleSlot) :
    slotMatches k r = true ↔ ∀ n, r.care.getLsbD n = true → k.getLsbD n = r.key.getLsbD n := by
  unfold slotMatches
  rw [beq_iff_eq]
  constructor
  · intro e n care
    have bitwise := congrArg (fun x : Key => x.getLsbD n) e
    simpa [care] using bitwise
  · intro h
    refine BitVec.eq_of_getLsbD_eq fun n _ => ?_
    rw [BitVec.getLsbD_and, BitVec.getLsbD_and]
    cases care : r.care.getLsbD n with
    | false => rw [Bool.and_false, Bool.and_false]
    | true => rw [h n care]

/-- In ascending order the newest match is the highest. -/
theorem getLast_of_highest {rs : List RuleSlot} (sorted : rs.Pairwise fun a b => a.index < b.index) {r : RuleSlot}
    (mem : r ∈ rs) (highest : ∀ r' ∈ rs, r'.index ≤ r.index) : rs.getLast? = some r := by
  obtain ⟨before, rest, rfl⟩ := List.append_of_mem mem
  cases rest with
  | nil => simp
  | cons x xs =>
    have above : r.index < x.index :=
      List.rel_of_pairwise_cons (List.pairwise_append.1 sorted).2.1 (List.mem_cons_self ..)
    have below := highest x (by simp)
    omega

/-- Settles O28. -/
theorem lookupTakesHighest : Obligations.LookupTakesHighest := by
  refine ⟨slotMatches_iff, fun slots k sorted => ⟨fun none => ?_, fun r mem hit highest => ?_⟩⟩
  · unfold lookup
    rw [List.filter_eq_nil_iff.2 fun r hr => by simp [none r hr]]
    rfl
  · unfold lookup
    rw [getLast_of_highest (sorted.filter _) (List.mem_filter.2 ⟨mem, hit⟩)
      fun r' hr' => highest r' (List.mem_filter.1 hr').1 (List.mem_filter.1 hr').2]
    rfl

/-! ## The fuel of an arrival -/

/-- Settles O38: by the mark, and by the interval since it. -/
theorem fuelOfArrival : Obligations.FuelOfArrival := by
  rintro s t e rfl
  refine ⟨fun noMark => ?_, fun m dt mark rest => ⟨fun near => ?_, fun gap => ?_⟩, rfl, framed (fuelArrival_touches s e)⟩ 
  · unfold State.fuelArrival
    rw [noMark]
    exact ⟨rfl, rfl, rfl, rfl⟩
  · unfold State.fuelArrival
    rw [mark]
    dsimp only
    rw [← rest, if_pos near]
    exact ⟨rfl, rfl, rfl, rfl⟩
  · unfold State.fuelArrival
    rw [mark]
    dsimp only
    rw [← rest, if_neg (Nat.not_le.2 gap)]
    exact ⟨rfl, rfl, rfl, rfl⟩

end Sys2Proof.Laws
end

section
/-! The periods of the valve channels, the decision of a hold request, and the countdown of the holds (R84 to R93, R100 to R106). -/

namespace Sys2Proof.Laws

open Sys2Proof.Machine Relation

-- Many short proofs at once would each hold a thread of the checking process.
set_option Elab.async false

variable {s t : State}

/-! ## The periods -/

/-- The target is an upper bound of the demands. -/
theorem targetCut_ge {r : ChannelRecord} {n : Nat}
    (h : r.limit = some n ∨ r.rule = some n ∨ r.hold = some n ∨ r.fail = some n) : n ≤ targetCut r := by
  unfold targetCut
  rcases h with h | h | h | h <;> rw [h, Option.getD_some] <;> omega

theorem getD_zero_cases (o : Option Nat) : o.getD 0 = 0 ∨ o = some (o.getD 0) := by cases o <;> simp

/-- The target is one of the demands, or 0. -/
theorem targetCut_mem (r : ChannelRecord) : targetCut r = 0
    ∨ r.limit = some (targetCut r) ∨ r.rule = some (targetCut r) ∨ r.hold = some (targetCut r) ∨ r.fail = some (targetCut r) := by
  have choice : targetCut r = r.limit.getD 0 ∨ targetCut r = r.rule.getD 0 ∨ targetCut r = r.hold.getD 0
      ∨ targetCut r = r.fail.getD 0 := by
    unfold targetCut
    omega
  rcases choice with e | e | e | e <;> rw [e]
  · exact (getD_zero_cases r.limit).imp_right .inl
  · exact (getD_zero_cases r.rule).imp_right fun h => .inr (.inl h)
  · exact (getD_zero_cases r.hold).imp_right fun h => .inr (.inr (.inl h))
  · exact (getD_zero_cases r.fail).imp_right fun h => .inr (.inr (.inr h))

theorem channelStateOf_full {m d dt : Nat} (on : d ≠ 0) (full : d = m) : channelStateOf m d dt = .full := by
  unfold channelStateOf
  rw [if_neg on, if_pos full]

theorem channelStateOf_cutting {m d dt : Nat} (on : d ≠ 0) (part : d ≠ m) (there : d = dt) :
    channelStateOf m d dt = .cutting := by
  unfold channelStateOf
  rw [if_neg on, if_neg part, if_pos there]

theorem channelStateOf_releasing {m d dt : Nat} (on : d ≠ 0) (part : d ≠ m) (above : dt < d) :
    channelStateOf m d dt = .releasing := by
  unfold channelStateOf
  rw [if_neg on, if_neg part, if_neg (Nat.ne_of_gt above)]

theorem beginPeriod_eq (s : State) (c : Channel) : s.beginPeriod c = { s with vch := (s.beginPeriod c).vch } :=
  framed (beginPeriod_touches s c)

/-- A period start changes the channels, and LINK where the channel's state changes. -/
theorem periodStart_eq (s : State) (c : Channel) : s.periodStart c = if ((s.beginPeriod c).vch.get c).state = (s.vch.get c).state
    then s.beginPeriod c else (s.beginPeriod c).offerStatusChange := rfl

theorem periodStart_vch (s : State) (c : Channel) : (s.periodStart c).vch = (s.beginPeriod c).vch := by
  rw [periodStart_eq]
  split
  · rfl
  · exact (offerStatusChange_touches _).vch rfl

theorem offerStatusChange_data (s : State) :
    limitStatusData s.offerStatusChange true = limitStatusData s true :=
  limitStatusData_congr (by rw [(offerStatusChange_touches s).lim rfl]) ((offerStatusChange_touches s).vch rfl) _

/-- Settles O34: the channel's record is the started period's, and the rest follows from it. -/
theorem channelPeriods : Obligations.ChannelPeriods := by
  refine ⟨?_, fun s c run used pin low high => ?_, fun s c out => ?_⟩
  · rintro s c r g run rfl rfl used
    have inRun := (inRun_iff s).2 run
    have record : ((s.periodStart c).vch.get c) = startPeriod (s.img.channels.get c) (s.vch.get c) := by
      rw [periodStart_vch, beginPeriod_get, if_pos ⟨inRun, used, rfl⟩]
    refine ⟨s.periodStart c, targetCut (s.vch.get c), rfl, fun n => targetCut_ge, targetCut_mem _, ?_⟩
    rw [record]
    refine ⟨rfl, rfl, rfl, rfl, rfl, fun off => if_pos off, channelStateOf_full, channelStateOf_cutting,
      channelStateOf_releasing, ⟨rfl, rfl, rfl, rfl⟩, fun c' other => ?_, fun same => ?_, fun changed => ?_⟩
    · rw [periodStart_vch, beginPeriod_get, if_neg fun h => other h.2.2]
    · rw [periodStart_eq, if_pos (by rw [← periodStart_vch, record]; exact same)]
      exact beginPeriod_eq s c
    · have moved := periodStart_eq s c
      rw [if_neg (by rw [← periodStart_vch, record]; exact changed)] at moved
      rw [moved, offerStatusChange_data]
      refine ⟨framed (b := { vch := true, link := true }) (((beginPeriod_touches s c).mono rfl).trans
        ((offerStatusChange_touches _).mono rfl)), offerStatusChange_last (takesOffer_run ?_)⟩
      rw [(beginPeriod_touches s c).cfg rfl]
      exact run
  · have acts : (s.inRun && (s.img.channels.get c).used) = true := by rw [(inRun_iff s).2 run, used]; rfl
    refine ⟨s.onChannel c (endDuty (s.img.channels.get c)), congrArg Host.Outcome.next (if_pos acts), rfl, ?_, fun c' other => ?_⟩
    · rw [State.onChannel, onVch_vch, channel_get_set, if_pos rfl]
      exact if_pos ⟨pin, low, high⟩
    · rw [State.onChannel, onVch_vch, channel_get_set, if_neg other]
  · have still : (s.inRun && (s.img.channels.get c).used) = false := by
      rcases out with out | out
      · rw [Bool.and_eq_false_iff]
        exact .inl (by rw [← Bool.not_eq_true, inRun_iff]; exact out)
      · rw [out, Bool.and_false]
    have begun : s.beginPeriod c = s := if_neg (by rw [still]; decide)
    constructor
    · show Host.Outcome.next (s.periodStart c) = _
      rw [periodStart_eq, begun, if_pos rfl]
    · exact congrArg Host.Outcome.next (if_neg (by rw [still]; decide))

/-! ## The decision of a hold request -/

theorem entryOf_not_isSome {h : HoldTable} {a : Byte} (e : h.entryOf a = none) : ¬ (h.entryOf a).isSome = true := by
  rw [e]; decide

/-- The result of a placing: accepted where the mask and the time are granted whole. -/
theorem placeResult_eq (m m' : Mask) (n k : Nat) : (if m ≠ m' ∨ min n k < n then HoldResult.clamped else .accepted)
    = if m = m' ∧ min n k = n then HoldResult.accepted else .clamped := by
  by_cases h : m = m' ∧ min n k = n
  · rw [if_pos h, if_neg]
    rintro (k | k)
    · exact k h.1
    · omega
  · rw [if_neg h, if_pos]
    by_contra none
    exact h ⟨by tauto, by omega⟩

section
variable {cfg : HoldConfig} {now : Ms} {h : HoldTable} {r : HoldRequest}

theorem decideHold_place (levels : ¬ (r.level = 0 ∨ 1000 < r.level)) (mask : r.mask &&& cfg.mask ≠ 0) (time : r.time ≠ 0) :
    decideHold cfg now h r = decidePlace cfg now h r := by
  unfold decideHold
  rw [if_neg levels, if_neg mask, if_neg time]

theorem decideHold_release (levels : ¬ (r.level = 0 ∨ 1000 < r.level)) (mask : r.mask &&& cfg.mask ≠ 0) (time : r.time = 0) :
    decideHold cfg now h r = decideRelease now h r := by
  unfold decideHold
  rw [if_neg levels, if_neg mask, if_pos time]

theorem decidePlace_refresh (e : h.entryOf r.requester ≠ none) : decidePlace cfg now h r =
    ⟨{ h with entries := h.entries.map fun e => if e.requester = r.requester then
        { e with mask := r.mask &&& cfg.mask, level := r.level, remaining := min r.time cfg.tmax } else e },
      if r.mask &&& cfg.mask = r.mask ∧ min r.time cfg.tmax = r.time then .accepted else .clamped,
      r.mask &&& cfg.mask, min r.time cfg.tmax, 0, false⟩ := by
  unfold decidePlace
  dsimp only
  rw [if_pos (Option.isSome_iff_ne_none.2 e), placeResult_eq]

theorem decidePlace_new (e : h.entryOf r.requester = none) (room : h.entries.length < 8) : decidePlace cfg now h r =
    ⟨{ h with entries := h.entries ++ [⟨r.requester, r.mask &&& cfg.mask, r.level, min r.time cfg.tmax, now⟩] },
      if r.mask &&& cfg.mask = r.mask ∧ min r.time cfg.tmax = r.time then .accepted else .clamped,
      r.mask &&& cfg.mask, min r.time cfg.tmax, 0, true⟩ := by
  unfold decidePlace
  dsimp only
  rw [if_neg (entryOf_not_isSome e), if_pos room, placeResult_eq]

theorem decidePlace_merge (e : h.entryOf r.requester = none) (full : 8 ≤ h.entries.length) : decidePlace cfg now h r =
    ⟨{ h with overflow := some (mergeOverflow h.overflow (r.mask &&& cfg.mask) r.level (min r.time cfg.tmax)) }, .merged,
      r.mask &&& cfg.mask, min r.time cfg.tmax, 0, true⟩ := by
  unfold decidePlace
  dsimp only
  rw [if_neg (entryOf_not_isSome e), if_neg (Nat.not_lt.2 full)]

end

/-- Settles O31, case by case of the request. -/
theorem holdDecision : Obligations.HoldDecision := by
  rintro cfg now h r m granted rfl rfl
  refine ⟨fun wrong => if_pos wrong, fun low high none => ?_, fun low high mask => ?_⟩
  · unfold decideHold
    rw [if_neg (by omega), if_pos none]
  · have levels : ¬ (r.level = 0 ∨ 1000 < r.level) := by omega
    refine ⟨fun time => ?_, fun time => ?_⟩
    · rw [decideHold_release levels mask time]
      unfold decideRelease
      refine ⟨fun e => ?_, fun x e => ?_⟩ <;> rw [e]
    · rw [decideHold_place levels mask time]
      refine ⟨decidePlace_refresh, decidePlace_new, fun e full => ?_⟩
      rw [decidePlace_merge e full]
      refine ⟨rfl, rfl, rfl, rfl, rfl, rfl, rfl, fun o => ?_, fun o ho => ?_⟩
      · rw [o]; rfl
      · rw [ho]; rfl

end Sys2Proof.Laws
end

section
/-! SET_PROFILE, and the countdown of the holds with what a change of their table tells (R66, R75, R91 to R93). -/

namespace Sys2Proof.Laws

open Sys2Proof.Machine Relation

-- Many short proofs at once would each hold a thread of the checking process.
set_option Elab.async false

variable {s t : State}

/-! ## SET_PROFILE -/

theorem rebuild_agrees (s : State) : AgreeOutsideLimits s s.rebuild := acts_agree (rebuild_acts s)

theorem clearNotice_agrees (s : State) (id : Nat) : AgreeOutsideLimits s (s.clearNotice id) := acts_agree (clearNotice_acts s id)

/-- A rebuild keeps the profile and the work mode. -/
theorem agree_profile (h : AgreeOutsideLimits s t) : t.rule.profile = s.rule.profile := by
  obtain ⟨-, -, rule, -⟩ := h
  rw [rule]

theorem agree_mode (h : AgreeOutsideLimits s t) : t.eco.mode = s.eco.mode := by
  obtain ⟨-, -, -, -, eco, -⟩ := h
  rw [eco]

theorem agree_holdDemand (h : AgreeOutsideLimits s t) (c : Channel) : (t.vch.get c).hold = (s.vch.get c).hold := by
  obtain ⟨-, -, -, vch, -⟩ := h
  rw [vch]

theorem agree_hold (h : AgreeOutsideLimits s t) : t.hold = s.hold := by
  obtain ⟨all, -⟩ := h
  rw [all]

/-- The item taken, with a profile. -/
def profiled (s : State) (n : Nat) : State := { s.takeItem with rule := { s.rule with profile := n } }

theorem profiled_same (s : State) : profiled s s.rule.profile = s.takeItem := by
  unfold profiled
  rw [← (takeItem_touches s).rule rfl]

section
variable {i : SettingItem} (run : s.cfg.node = .run) (h : s.itemFor 0x18 = some i)
include run h

theorem setProfile_kept (d : SettingResult) (e : decideProfile true s.rule.profile i.value = (d, s.rule.profile)) :
    execSetProfile s = .next (s.takeItem.respond i d (some s.rule.profile) none none) := by
  unfold execSetProfile
  rw [h, (inRun_iff s).2 run]
  dsimp only
  rw [e, if_pos rfl]
  exact congrArg (fun u => Host.Outcome.next (State.respond u i d (some (s.rule.profile : Int)) none none)) (profiled_same s)

theorem setProfile_changed (low : 0 ≤ i.value) (high : i.value ≤ 3) (other : i.value ≠ s.rule.profile) :
    execSetProfile s
      = .next ((profiled s i.value.toNat).rebuild.respond i .accepted (some i.value) none none) := by
  have value : ((i.value.toNat : Nat) : Int) = i.value := Int.toNat_of_nonneg low
  have decided : decideProfile true s.rule.profile i.value = (.accepted, i.value.toNat) := by
    unfold decideProfile
    rw [if_neg (by decide), if_neg (by omega)]
  unfold execSetProfile
  rw [h, (inRun_iff s).2 run]
  dsimp only
  rw [decided, if_neg (by dsimp only; omega), value]
  rfl

end

/-- An item answered from the state as it was changes LINK alone. -/
theorem takeItem_respond_still (s : State) (i : SettingItem) (r : SettingResult) (a b c : Option Int)
    (h : t = s.takeItem.respond i r a b c) : t.rule = s.rule ∧ t.vch = s.vch ∧ t.eco = s.eco ∧ t = { s with
      rule := t.rule, vch := t.vch, eco := t.eco, ntc := t.ntc, snd := t.snd, link := t.link } := by
  rw [h, takeItem_respond_eq]
  exact ⟨rfl, rfl, rfl, rfl⟩

theorem takeItem_respond_answered (run : s.cfg.node = .run) (i : SettingItem) (r : SettingResult) (a b c : Option Int) :
    ItemAnswered (s.takeItem.respond i r a b c) i r a b c :=
  respond_answered (takeItem_takesOffer (takesOffer_run run)) i r a b c

/-- Settles O30: by the value, out of range, the one held, or another. -/
theorem setProfileItem : Obligations.SetProfileItem := by
  intro s i run h
  by_cases range : i.value < 0 ∨ 3 < i.value
  · refine ⟨_, setProfile_kept run h (.refused .range) (if_pos range), fun _ => ?_, fun _ _ => by omega, fun _ _ => by omega,
      fun _ _ => by omega, ?_⟩
    · obtain ⟨rule, vch, -⟩ := takeItem_respond_still s i (.refused .range) (some s.rule.profile) none none rfl
      exact ⟨rule, vch, takeItem_respond_answered run i _ _ _ _⟩
    · obtain ⟨-, -, eco, frame⟩ := takeItem_respond_still s i (.refused .range) (some s.rule.profile) none none rfl
      exact ⟨by rw [eco], frame⟩
  by_cases held : i.value = s.rule.profile
  · have decided : decideProfile true s.rule.profile i.value = (.accepted, s.rule.profile) := by
      unfold decideProfile
      rw [if_neg (by decide), if_neg range, held, Int.toNat_natCast]
    obtain ⟨rule, vch, eco, frame⟩ := takeItem_respond_still s i .accepted (some s.rule.profile) none none rfl
    refine ⟨_, setProfile_kept run h .accepted decided, fun out => absurd out range, fun _ _ => ⟨?_, ?_⟩,
      fun _ _ => ⟨rule, vch, eco⟩, fun _ _ other => absurd held other, by rw [eco], frame⟩
    · rw [rule, held]
    · rw [held]
      exact takeItem_respond_answered run i _ _ _ _
  · have low : 0 ≤ i.value := by omega
    have high : i.value ≤ 3 := by omega
    have agrees := rebuild_agrees (profiled s i.value.toNat)
    have touched : Touches ruleBlocks s (profiled s i.value.toNat).rebuild :=
      (((takeItem_touches s).mono rfl).trans ((onRule_touches s.takeItem fun _ => { s.rule with profile := i.value.toNat }).mono rfl)).trans
        (rebuild_touches _)
    have answered := touched.trans ((respond_touches _ i .accepted (some i.value) none none).mono rfl)
    have rule := (respond_touches (profiled s i.value.toNat).rebuild i .accepted (some i.value) none none).rule rfl
    have eco := (respond_touches (profiled s i.value.toNat).rebuild i .accepted (some i.value) none none).eco rfl
    refine ⟨_, setProfile_changed run h low high held, fun out => absurd out range, fun _ _ => ⟨?_, ?_⟩,
      fun same => absurd same held, fun _ _ _ => rfl, ?_, framed answered⟩
    · rw [rule, agree_profile agrees]
      exact Int.toNat_of_nonneg low
    · refine respond_answered (takesOffer_run ?_) i _ _ _ _
      rw [touched.cfg rfl]
      exact run
    · rw [eco, agree_mode agrees]
      exact congrArg Eco.mode ((takeItem_touches s).eco rfl)

/-! ## A change of the hold table -/

/-- The table changed and the HOLD demands after it. -/
def tableSet (s : State) (f : HoldTable → HoldTable) : State :=
  (s.onHold f).writeDemands fun c r => { r with hold := (f s.hold).demand c }

theorem tableSet_touches (s : State) (f : HoldTable → HoldTable) :
    Touches { hold := true, vch := true } s (tableSet s f) :=
  ((onHold_touches s f).mono rfl).trans ((writeDemands_touches _ _).mono rfl)

theorem tableSet_hold (s : State) (f : HoldTable → HoldTable) : (tableSet s f).hold = f s.hold :=
  (writeDemands_touches _ _).hold rfl

theorem tableSet_eq (s : State) (f : HoldTable → HoldTable) :
    tableSet s f = { s with hold := f s.hold, vch := (tableSet s f).vch } := by
  rw [← tableSet_hold s f]
  exact framed (tableSet_touches s f)

theorem tableSet_get (run : s.cfg.node = .run) (f : HoldTable → HoldTable) (c : Channel) :
    (tableSet s f).vch.get c = { s.vch.get c with hold := (f s.hold).demand c } := by
  have inRun : (s.onHold f).inRun = true := (inRun_iff _).2 run
  unfold tableSet
  rw [writeDemands_get]
  exact if_pos inRun

/-- The key is rebuilt between the demands and the clear of 0x38, where the table's activity changes. -/
theorem changeHold_eq (s : State) (f : HoldTable → HoldTable) : s.changeHold f =
    if s.hold.active = true ∧ (f s.hold).active = false then (tableSet s f).rebuild.clearNotice 0x38
    else if (f s.hold).active = s.hold.active then tableSet s f else (tableSet s f).rebuild := by
  have rebuilt : (tableSet s f).rebuild.hold = f s.hold := (agree_hold (rebuild_agrees _)).trans (tableSet_hold s f)
  have changed : s.changeHold f =
      let w := if (tableSet s f).hold.active = s.hold.active then tableSet s f else (tableSet s f).rebuild
      if s.hold.active && !w.hold.active then w.clearNotice 0x38 else w := rfl
  rw [changed, tableSet_hold]
  cases before : s.hold.active <;> cases now : (f s.hold).active
  · simp
  · simp
  · simp [rebuilt, now]
  · simp [tableSet_hold, now]

theorem changeHold_cases {P : State → Prop} {f : HoldTable → HoldTable} (set : P (tableSet s f))
    (keep : ∀ u, AgreeOutsideLimits (tableSet s f) u → P u) : P (s.changeHold f) := by
  rw [changeHold_eq]
  split
  · exact keep _ (agree_trans (rebuild_agrees _) (clearNotice_agrees _ _))
  · split
    · exact set
    · exact keep _ (rebuild_agrees _)

theorem changeHold_hold (s : State) (f : HoldTable → HoldTable) : (s.changeHold f).hold = f s.hold :=
  changeHold_cases (P := fun u => u.hold = f s.hold) (tableSet_hold s f) fun _ agrees => (agree_hold agrees).trans (tableSet_hold s f)

/-- In RUN the demands follow the table (R92). -/
theorem changeHold_demand (run : s.cfg.node = .run) (f : HoldTable → HoldTable) (c : Channel) :
    ((s.changeHold f).vch.get c).hold = (s.changeHold f).hold.demand c := by
  rw [changeHold_hold]
  refine changeHold_cases (P := fun u => (u.vch.get c).hold = (f s.hold).demand c) ?_ fun _ agrees => ?_
  · rw [tableSet_get run]
  · rw [agree_holdDemand agrees, tableSet_get run]

/-- A change that places nothing tells what `HoldsTold` says. -/
theorem changeHold_told (run : s.cfg.node = .run) (f : HoldTable → HoldTable)
    (shrinks : (f s.hold).active = true → s.hold.active = true) : HoldsTold s (s.changeHold f) := by
  refine ⟨tableSet s f, ?_, ?_, ?_⟩
  · rw [changeHold_hold]
    exact tableSet_eq s f
  · rw [changeHold_hold]
    exact tableSet_get run f
  · rw [changeHold_hold, changeHold_eq]
    split
    · rfl
    · rename_i kept
      have same : (f s.hold).active = s.hold.active := by
        cases before : s.hold.active <;> cases now : (f s.hold).active
        · rfl
        · exact absurd (shrinks now) (by rw [before]; decide)
        · exact absurd ⟨before, now⟩ kept
        · rfl
      rw [if_pos same]

/-! ## The countdown -/

theorem active_iff (h : HoldTable) : h.active = true ↔ h.entries ≠ [] ∨ h.overflow ≠ none := by
  simp [HoldTable.active, Option.isSome_iff_ne_none]

/-- A table whose entries and overflow come from another's is active only where that one is. -/
theorem active_of_sub {h k : HoldTable} (entries : h.entries = [] → k.entries = []) (overflow : h.overflow = none → k.overflow = none)
    (active : k.active = true) : h.active = true := by
  rw [active_iff] at active ⊢
  exact active.imp (fun ne e => ne (entries e)) fun ne e => ne (overflow e)

theorem countDown_entries (h : HoldTable) : (countDown h).entries =
    (h.entries.filter fun e => 1 < e.remaining).map fun e => { e with remaining := e.remaining - 1 } := by
  show List.filter _ (List.map _ h.entries) = _
  rw [List.filter_map]
  refine congrArg (List.map _) (List.filter_congr fun e _ => ?_)
  show decide (0 < e.remaining - 1) = decide (1 < e.remaining)
  exact decide_eq_decide.2 (by omega)

theorem countDown_overflow (h : HoldTable) (o : Overflow) (e : h.overflow = some o) : (countDown h).overflow =
    if 1 < o.remaining then some { o with remaining := o.remaining - 1 } else none := by
  show Option.filter _ (Option.map _ h.overflow) = _
  rw [e]
  by_cases last : 1 < o.remaining
  · rw [if_pos last]
    exact Option.filter_some_pos (by simpa using last)
  · rw [if_neg last]
    exact Option.filter_some_neg (by simpa using last)

theorem largest_none : ∀ {ns : List Nat}, largest ns = none ↔ ns = []
  | [] => ⟨fun _ => rfl, fun _ => rfl⟩
  | _ :: _ => ⟨nofun, nofun⟩

/-- The largest of some levels is one of them, and none exceeds it. -/
theorem largest_some : ∀ {ns : List Nat} {n : Nat}, largest ns = some n → n ∈ ns ∧ ∀ m ∈ ns, m ≤ n
  | x :: xs, n, h => by
    unfold largest at h
    cases rest : largest xs with
    | none =>
      rw [rest] at h
      cases h
      rw [largest_none.1 rest]
      simp
    | some y =>
      rw [rest] at h
      cases h
      obtain ⟨mem, above⟩ := largest_some rest
      simp only [Option.elim_some, List.mem_cons]
      refine ⟨?_, ?_⟩
      · rcases Nat.le_total x y with le | le
        · exact .inr (by rw [Nat.max_eq_right le]; exact mem)
        · exact .inl (Nat.max_eq_left le)
      · rintro m (rfl | hm)
        · exact Nat.le_max_left _ _
        · exact (above m hm).trans (Nat.le_max_right _ _)

theorem demand_none (h : HoldTable) (c : Channel) : h.demand c = none ↔ ∀ l ∈ h.leases, l.1.getLsbD c.num = false := by
  unfold HoldTable.demand
  rw [largest_none, List.map_eq_nil_iff, List.filter_eq_nil_iff]
  simp

theorem demand_some {h : HoldTable} {c : Channel} {n : Nat} (e : h.demand c = some n) :
    (∃ l ∈ h.leases, l.1.getLsbD c.num = true ∧ l.2 = n) ∧ ∀ l ∈ h.leases, l.1.getLsbD c.num = true → l.2 ≤ n := by
  obtain ⟨mem, above⟩ := largest_some e
  obtain ⟨l, hl, value⟩ := List.mem_map.1 mem
  obtain ⟨lease, covers⟩ := List.mem_filter.1 hl
  exact ⟨⟨l, lease, covers, value⟩,
    fun l' lease' covers' => above l'.2 (List.mem_map.2 ⟨l', List.mem_filter.2 ⟨lease', covers'⟩, rfl⟩)⟩

theorem removeEntry_active (who : Option Byte) (h : HoldTable) : (removeEntry who h).active = true → h.active = true := by
  cases who with
  | some a => exact active_of_sub (fun e => by show List.filter _ h.entries = []; rw [e]; rfl) id
  | none => exact active_of_sub id fun _ => rfl

/-- An expiring entry is removed at the instant of the quantum timer. -/
theorem holdEntryExpiry_eq {d : Ms} {who : Option Byte} (timer : s.hold.quantumTimer = some d)
    (expiring : s.hold.expiring who = true) :
    execHoldEntryExpiry who s = .next ((s.arriveAt d).changeHold (removeEntry who)) := by
  unfold execHoldEntryExpiry
  rw [timer]
  exact congrArg Host.Outcome.next (if_pos expiring)

theorem arriveAt_run {d : Ms} (run : s.cfg.node = .run) : (s.arriveAt d).cfg.node = .run := by rw [arriveAt_cfg]; exact run

/-- The table after an entry is removed, and what it tells in RUN. -/
theorem removed_told (d : Ms) (who : Option Byte) :
    ((s.arriveAt d).changeHold (removeEntry who)).hold = removeEntry who s.hold
      ∧ (s.cfg.node = .run → (∀ c : Channel, (((s.arriveAt d).changeHold (removeEntry who)).vch.get c).hold
          = ((s.arriveAt d).changeHold (removeEntry who)).hold.demand c)
        ∧ HoldsTold (s.arriveAt d) ((s.arriveAt d).changeHold (removeEntry who))) :=
  ⟨by rw [changeHold_hold, arriveAt_hold], fun run => ⟨changeHold_demand (arriveAt_run run) _,
    changeHold_told (arriveAt_run run) _ (removeEntry_active who _)⟩⟩

/-- Settles O33: the table by the countdown, the rest by the change of the table. -/
theorem holdsCountDown : Obligations.HoldsCountDown := by
  refine ⟨fun s d timer => ?_, fun s d a e timer entry last => ?_, fun s d o timer overflow last => ?_,
    fun h c => ⟨demand_none h c, fun n => demand_some⟩⟩
  · have table := changeHold_hold (s.arriveAt d) fun h => { countDown h with quantumTimer := some (after d 10) }
    rw [arriveAt_hold] at table
    have shrinks : ∀ h : HoldTable, HoldTable.active { countDown h with quantumTimer := some (after d 10) } = true →
        h.active = true := fun h =>
      active_of_sub (fun e => by show (countDown h).entries = []; rw [countDown_entries, e]; rfl)
        (fun e => by show Option.filter _ (Option.map _ h.overflow) = none; rw [e]; rfl)
    refine ⟨(s.arriveAt d).changeHold fun h => { countDown h with quantumTimer := some (after d 10) }, ?_, ?_⟩
    · show execQuantumTimerExpiry s = _
      unfold execQuantumTimerExpiry
      rw [timer]
    refine ⟨by rw [table], by rw [table]; exact countDown_entries _, fun o ho => by rw [table]; exact countDown_overflow _ o ho,
      fun none => ?_, fun run => changeHold_demand (arriveAt_run run) _, framed (changeHold_touches _ _),
      fun run => changeHold_told (arriveAt_run run) _ (shrinks _)⟩
    rw [table]
    show Option.filter _ (Option.map _ s.hold.overflow) = _
    rw [none]
    rfl
  · have expiring : s.hold.expiring (some a) = true := by
      show (s.hold.entryOf a).any _ = true
      rw [entry]
      simp [last]
    exact ⟨_, holdEntryExpiry_eq timer expiring, removed_told d (some a)⟩
  · have expiring : s.hold.expiring none = true := by
      show s.hold.overflow.any _ = true
      rw [overflow]
      simp [last]
    exact ⟨_, holdEntryExpiry_eq timer expiring, removed_told d none⟩

end Sys2Proof.Laws
end

section
/-! The presentation of notices: what an offer to the queue does case by case, and that a pass moves records between the queue and
the pending set, loses none, and leaves none pending that the queue would take (R161, R162). -/

namespace Sys2Proof.Laws

open Sys2Proof.Machine Relation

-- Many short proofs at once would each hold a thread of the checking process.
set_option Elab.async false

variable {s t : State} {r : NoticeRecord}

/-! ## The collections -/

theorem insertById_self (r : NoticeRecord) : ∀ rs : List NoticeRecord, r ∈ insertById r rs
  | [] => by simp [insertById]
  | y :: ys => by
    unfold insertById
    split
    · exact List.mem_cons_of_mem _ (insertById_self r ys)
    split <;> exact List.mem_cons_self ..

theorem insertById_perm {r : NoticeRecord} : ∀ {rs : List NoticeRecord}, (∀ x ∈ rs, x.id ≠ r.id) →
    (insertById r rs).Perm (r :: rs)
  | [], _ => .refl _
  | y :: ys, absent => by
    unfold insertById
    split
    · exact ((insertById_perm fun x hx => absent x (List.mem_cons_of_mem _ hx)).cons y).trans (.swap r y ys)
    split
    · rename_i same
      exact absurd same (absent y (List.mem_cons_self ..))
    · exact .refl _

theorem withoutId_of_absent {id : Nat} {rs : List NoticeRecord} (absent : ∀ x ∈ rs, x.id ≠ id) : withoutId id rs = rs :=
  List.filter_eq_self.2 fun x hx => by simpa using absent x hx

/-- A collection is a record of it and the others. -/
theorem withoutId_perm {rs : List NoticeRecord} (once : (rs.map (·.id)).Nodup) (mem : r ∈ rs) :
    rs.Perm (r :: withoutId r.id rs) := by
  obtain ⟨a, b, rfl⟩ := List.append_of_mem mem
  rw [List.map_append, List.map_cons, List.nodup_middle, List.nodup_cons, ← List.map_append] at once
  have others : ∀ x ∈ a ++ b, x.id ≠ r.id := fun x hx e => once.1 (List.mem_map.2 ⟨x, hx, e⟩)
  have rest : withoutId r.id (a ++ r :: b) = a ++ b := by
    unfold withoutId
    rw [List.filter_append, List.filter_cons_of_neg (by simp)]
    exact congrArg₂ (· ++ ·) (withoutId_of_absent fun x hx => others x (by simp [hx]))
      (withoutId_of_absent fun x hx => others x (by simp [hx]))
  rw [rest]
  exact List.perm_middle

/-- The last record of a queue in its order is of the lowest severity (R161). -/
theorem lowest_last {rs : List NoticeRecord} (order : InQueueOrder rs) {last : NoticeRecord} (h : rs.getLast? = some last) :
    ∀ x ∈ rs, last.severity.rank ≤ x.severity.rank := by
  have split : rs = rs.dropLast ++ [last] := (List.dropLast_append_getLast? last h).symm
  intro x hx
  rw [split] at order hx
  rcases List.mem_append.1 hx with before | same
  · have first := (List.pairwise_append.1 order).2.2 x before last (List.mem_singleton.2 rfl)
    rw [queueBefore_iff] at first
    omega
  · rw [List.mem_singleton.1 same]

/-! ## What a record is beside its place -/

/-- A record without what its place decides: its sound and its escalation timer. -/
def core (r : NoticeRecord) : NoticeRecord := { r with sound := none, escalationStart := none }

/-- Two records with one core agree in all but sound and escalation timer. -/
theorem core_eq {x y : NoticeRecord} (h : core y = core x) :
    y.id = x.id ∧ y.severity = x.severity ∧ y.route = x.route ∧ y.detail = x.detail ∧ y.raised = x.raised
      ∧ y.escalated = x.escalated := by
  simpa [core] using h

/-- The records that are queued or pending, without what their place decides. -/
def shown (n : Ntc) : List NoticeRecord := (n.queue ++ n.pending).map core

theorem mem_shown {n : Ntc} {c : NoticeRecord} : c ∈ shown n ↔ ∃ x, (x ∈ n.queue ∨ x ∈ n.pending) ∧ core x = c := by
  simp [shown, or_and_right, exists_or]

/-- The record as it stands in the queue (R161). -/
def asQueued (n : Ntc) (r : NoticeRecord) : NoticeRecord := { r with escalationStart := none, sound := (n.method r).2 }

/-- The record as it waits in the pending set (R161). -/
def asWaiting (now : Ms) (r : NoticeRecord) : NoticeRecord := { asPending now r with sound := none }

theorem core_asQueued (n : Ntc) (r : NoticeRecord) : core (asQueued n r) = core r := rfl

theorem core_asWaiting (now : Ms) (r : NoticeRecord) : core (asWaiting now r) = core r := rfl

/-! ## An offer to the queue -/

theorem offerQueue_room (room : s.ntc.queue.length < 8) : s.offerQueue r = s.joinQueue r := if_pos room

section
variable {last : NoticeRecord} (full : ¬ s.ntc.queue.length < 8) (found : s.ntc.queue.getLast? = some last)
include full found

/-- A record that does not outrank the last of a full queue waits (R161). -/
theorem offerQueue_waits (low : ¬ last.severity.rank < r.severity.rank) : s.offerQueue r = s.pend (asWaiting s.now r) := by
  unfold State.offerQueue
  rw [if_neg full, found]
  exact if_neg low

/-- A state after the displacement of the last queued record, before the new one joins (R161). -/
def displaced (s : State) (last : NoticeRecord) : State :=
  (((s.onNtc fun n => { n with queue := n.queue.dropLast }).withdrawSound last).offerCleared last.id 1).pend
    (asWaiting s.now last)

omit full found in
theorem displaced_ntc (s : State) (last : NoticeRecord) : (displaced s last).ntc = { s.ntc with
    queue := s.ntc.queue.dropLast, pending := insertById (asWaiting s.now last) s.ntc.pending } := by
  have ntc : (((s.onNtc fun n => { n with queue := n.queue.dropLast }).withdrawSound last).offerCleared last.id 1).ntc
      = { s.ntc with queue := s.ntc.queue.dropLast } := withdrawSound_ntc _ _
  unfold displaced State.pend
  rw [onNtc_ntc, ntc]

theorem offerQueue_displaces (high : last.severity.rank < r.severity.rank) :
    s.offerQueue r = (displaced s last).joinQueue r := by
  have now : (((s.onNtc fun n => { n with queue := n.queue.dropLast }).withdrawSound last).offerCleared last.id 1).now
      = s.now := by
    rw [(offerCleared_touches _ _ _).now rfl, (withdrawSound_touches _ _).now rfl]
    rfl
  unfold State.offerQueue displaced asWaiting
  rw [if_neg full, found]
  dsimp only
  rw [if_pos high, now]

end

/-- The queue takes a record where it has room, or where its last is outranked. -/
theorem takes_iff {n : Ntc} (ne : n.queue ≠ []) : n.takes r = true ↔
    n.queue.length < 8 ∨ ∃ last, n.queue.getLast? = some last ∧ last.severity.rank < r.severity.rank := by
  unfold Ntc.takes
  cases found : n.queue.getLast? with
  | none => exact absurd (List.getLast?_eq_none_iff.1 found) ne
  | some last => simp

theorem full_last {n : Ntc} (full : ¬ n.queue.length < 8) : ∃ last, n.queue.getLast? = some last :=
  ⟨n.queue.getLast (by rintro e; rw [e] at full; exact full (by decide)), List.getLast?_eq_some_getLast _⟩

/-- An offer to the queue changes the queue and the pending set alone. -/
theorem offerQueue_frame (s : State) (r : NoticeRecord) :
    (s.offerQueue r).ntc = { s.ntc with queue := (s.offerQueue r).ntc.queue, pending := (s.offerQueue r).ntc.pending } := by
  by_cases room : s.ntc.queue.length < 8
  · rw [offerQueue_room room, joinQueue_ntc]
  · obtain ⟨last, found⟩ := full_last room
    by_cases high : last.severity.rank < r.severity.rank
    · rw [offerQueue_displaces room found high, joinQueue_ntc, displaced_ntc]
    · rw [offerQueue_waits room found high]
      rfl

theorem shown_queue {n : Ntc} {q : List NoticeRecord} (h : (q.map core).Perm (core r :: n.queue.map core)) :
    (shown { n with queue := q }).Perm (core r :: shown n) := by
  unfold shown
  rw [List.map_append, List.map_append]
  exact h.append_right _

theorem shown_pending {n : Ntc} {p : List NoticeRecord} (h : (p.map core).Perm (core r :: n.pending.map core)) :
    (shown { n with pending := p }).Perm (core r :: shown n) := by
  unfold shown
  rw [List.map_append, List.map_append]
  exact (h.append_left _).trans List.perm_middle

theorem core_insertQueue (r : NoticeRecord) (rs : List NoticeRecord) (x : NoticeRecord) (h : core x = core r) :
    ((insertQueue x rs).map core).Perm (core r :: rs.map core) := h ▸ (insertQueue_perm x rs).map core

theorem core_insertById {rs : List NoticeRecord} (x : NoticeRecord) (h : core x = core r) (absent : ∀ y ∈ rs, y.id ≠ r.id) :
    ((insertById x rs).map core).Perm (core r :: rs.map core) := by
  rw [← h]
  exact (insertById_perm fun y hy => (core_eq h).1 ▸ absent y hy).map core

/-- An offer to the queue adds the record and loses none (R161). -/
theorem offerQueue_shown (h : Ordered s.ntc) (absent : Absent s.ntc r.id) :
    (shown (s.offerQueue r).ntc).Perm (core r :: shown s.ntc) := by
  by_cases room : s.ntc.queue.length < 8
  · rw [offerQueue_room room, joinQueue_ntc]
    exact shown_queue (core_insertQueue r _ (asQueued s.ntc r) rfl)
  obtain ⟨last, found⟩ := full_last room
  by_cases high : last.severity.rank < r.severity.rank
  · have split : s.ntc.queue = s.ntc.queue.dropLast ++ [last] := (List.dropLast_append_getLast? last found).symm
    have mem : last ∈ s.ntc.queue := List.mem_of_getLast? found
    have joined := shown_queue (n := (displaced s last).ntc)
      (core_insertQueue r _ (asQueued (displaced s last).ntc r) rfl)
    rw [offerQueue_displaces room found high, joinQueue_ntc]
    refine joined.trans (.cons _ ?_)
    rw [displaced_ntc]
    have waiting := core_insertById (r := last) (asWaiting s.now last) rfl
      fun y hy => (h.queuePending last mem y hy).symm
    refine (shown_pending (n := { s.ntc with queue := s.ntc.queue.dropLast }) waiting).trans ?_
    unfold shown
    conv_rhs => rw [split]
    simpa using List.perm_middle.symm
  · rw [offerQueue_waits room found high]
    exact shown_pending (core_insertById (asWaiting s.now r) rfl absent.pending)

/-! ## The pass -/

/-- A record taken out of the pending set and offered to the queue: a turn of a pass (R162). -/
def passTurn (s : State) (r : NoticeRecord) : State :=
  (s.onNtc fun n => { n with pending := withoutId r.id n.pending }).offerQueue r

theorem presentationPass_turn {fuel : Nat} (next : s.ntc.passNext = some r) (takes : s.ntc.takes r = true) :
    presentationPass (fuel + 1) s = presentationPass fuel (passTurn s r) := by
  rw [presentationPass, next]
  exact if_pos takes

theorem presentationPass_refused {fuel : Nat} (next : s.ntc.passNext = some r) (refused : s.ntc.takes r = false) :
    presentationPass (fuel + 1) s = s := by
  rw [presentationPass, next]
  exact if_neg (by rw [refused]; decide)

theorem presentationPass_done {fuel : Nat} (next : s.ntc.passNext = none) : presentationPass (fuel + 1) s = s := by
  rw [presentationPass, next]

theorem passTurn_frame (s : State) (r : NoticeRecord) :
    (passTurn s r).ntc = { s.ntc with queue := (passTurn s r).ntc.queue, pending := (passTurn s r).ntc.pending } :=
  offerQueue_frame _ r

theorem withoutPending_shown {n : Ntc} (h : Ordered n) (mem : r ∈ n.pending) :
    (shown n).Perm (core r :: shown { n with pending := withoutId r.id n.pending }) := by
  have split := (withoutId_perm (nodup_of_inIdOrder h.pending) mem).map core
  unfold shown
  rw [List.map_append, List.map_append]
  exact (split.append_left _).trans List.perm_middle

theorem passTurn_ordered (h : Ordered s.ntc) (mem : r ∈ s.ntc.pending) : Ordered (passTurn s r).ntc :=
  offerQueue_ordered (s := s.onNtc fun n => { n with pending := withoutId r.id n.pending })
    (h.sub (.refl _) (withoutId_sublist _ _) (.refl _)) (h.absent_withoutPending mem)

theorem passTurn_shown (h : Ordered s.ntc) (mem : r ∈ s.ntc.pending) : (shown (passTurn s r).ntc).Perm (shown s.ntc) :=
  (offerQueue_shown (s := s.onNtc fun n => { n with pending := withoutId r.id n.pending })
    (h.sub (.refl _) (withoutId_sublist _ _) (.refl _)) (h.absent_withoutPending mem)).trans (withoutPending_shown h mem).symm

/-- What every turn of a pass keeps, the pass keeps. -/
theorem pass_keeps {P : State → Prop} (turn : ∀ u r, P u → r ∈ u.ntc.pending → P (passTurn u r)) (h : P s) : P s.pass := by
  have keeps : ∀ (fuel : Nat) (u : State), P u → P (presentationPass fuel u) := by
    intro fuel
    induction fuel with
    | zero => exact fun u hu => hu
    | succ fuel ih =>
      intro u hu
      cases next : u.ntc.passNext with
      | none => rw [presentationPass_done next]; exact hu
      | some r =>
        cases takes : u.ntc.takes r with
        | false => rw [presentationPass_refused next takes]; exact hu
        | true =>
          rw [presentationPass_turn next takes]
          exact ih _ (turn u r hu (passNext_mem next).1)
  exact keeps _ s h

/-- A pass changes the queue and the pending set alone. -/
theorem pass_frame (s : State) : s.pass.ntc = { s.ntc with queue := s.pass.ntc.queue, pending := s.pass.ntc.pending } :=
  pass_keeps (P := fun u => u.ntc = { s.ntc with queue := u.ntc.queue, pending := u.ntc.pending })
    (fun u r hu _ => by
      have turned := passTurn_frame u r
      rw [hu] at turned
      exact turned) rfl

/-- A pass loses no record and makes none (R162). -/
theorem pass_shown (h : Ordered s.ntc) : (shown s.pass.ntc).Perm (shown s.ntc) :=
  (pass_keeps (P := fun u => Ordered u.ntc ∧ (shown u.ntc).Perm (shown s.ntc))
    (fun _ _ hu mem => ⟨passTurn_ordered hu.1 mem, (passTurn_shown hu.1 mem).trans hu.2⟩) ⟨h, .refl _⟩).2

/-- A pass with no presentable record pending does nothing. -/
theorem passNext_none {n : Ntc} (h : ∀ x ∈ n.pending, n.presentable x = false) : n.passNext = none := by
  unfold Ntc.passNext
  rw [List.filter_eq_nil_iff.2 fun x hx => by simp [h x hx]]
  rfl

theorem pass_idle (h : ∀ x ∈ s.ntc.pending, s.ntc.presentable x = false) : s.pass = s :=
  presentationPass_done (passNext_none h)

/-! ## What a pass leaves -/

/-- The choice of a pass between the best record so far and the next (R162). -/
def passPick (best : Option NoticeRecord) (r : NoticeRecord) : Option NoticeRecord :=
  match best with
  | none => some r
  | some b => if passBefore r b then some r else some b

theorem passNext_eq (n : Ntc) : n.passNext = (n.pending.filter n.presentable).foldl passPick none := rfl

/-- A choice is made, and it is of the higher severity of the two. -/
theorem passPick_higher (best : Option NoticeRecord) (r : NoticeRecord) : ∃ p, passPick best r = some p
    ∧ r.severity.rank ≤ p.severity.rank ∧ ∀ b, best = some b → b.severity.rank ≤ p.severity.rank := by
  cases best with
  | none => exact ⟨r, rfl, Nat.le_refl _, fun _ h => absurd h (by simp)⟩
  | some b =>
    by_cases before : passBefore r b = true
    · refine ⟨r, if_pos before, Nat.le_refl _, fun x hx => ?_⟩
      injection hx with e
      simp only [passBefore, Bool.or_eq_true, Bool.and_eq_true, decide_eq_true_eq, beq_iff_eq] at before
      rw [← e]
      omega
    · refine ⟨b, if_neg before, ?_, fun x hx => ?_⟩
      · simp only [passBefore, Bool.or_eq_true, Bool.and_eq_true, decide_eq_true_eq, beq_iff_eq] at before
        omega
      · injection hx with e
        rw [← e]

/-- The record that a pass takes next is of the highest severity (R162). -/
theorem passPick_highest (rs : List NoticeRecord) (best : Option NoticeRecord) :
    (rs.foldl passPick best = none → best = none ∧ rs = [])
    ∧ ∀ r, rs.foldl passPick best = some r →
      (∀ b, best = some b → b.severity.rank ≤ r.severity.rank) ∧ ∀ x ∈ rs, x.severity.rank ≤ r.severity.rank := by
  induction rs generalizing best with
  | nil =>
    refine ⟨fun h => ⟨h, rfl⟩, fun r h => ⟨fun b hb => ?_, fun _ h => absurd h (List.not_mem_nil)⟩⟩
    obtain rfl : r = b := Option.some.inj (h.symm.trans hb)
    exact Nat.le_refl _
  | cons y ys ih =>
    obtain ⟨p, picked, first, others⟩ := passPick_higher best y
    obtain ⟨ihNone, ihSome⟩ := ih (passPick best y)
    rw [picked] at ihNone ihSome
    rw [List.foldl_cons, picked]
    refine ⟨fun h => ?_, fun r h => ?_⟩
    · have := (ihNone h).1
      cases this
    · obtain ⟨top, rest⟩ := ihSome r h
      have best := top p rfl
      exact ⟨fun b hb => (others b hb).trans best, List.forall_mem_cons.2 ⟨first.trans best, rest⟩⟩

theorem passNext_highest {n : Ntc} (h : n.passNext = some r) {x : NoticeRecord} (mem : x ∈ n.pending)
    (presentable : n.presentable x = true) : x.severity.rank ≤ r.severity.rank :=
  ((passPick_highest _ none).2 r h).2 x (List.mem_filter.2 ⟨mem, presentable⟩)

/-- What the queue takes it takes of a higher severity too. -/
theorem takes_mono {n : Ntc} {x : NoticeRecord} (rank : x.severity.rank ≤ r.severity.rank) (h : n.takes x = true) :
    n.takes r = true := by
  unfold Ntc.takes at h ⊢
  cases found : n.queue.getLast? with
  | none => exact Bool.or_true _
  | some last =>
    rw [found] at h
    simp only [Bool.or_eq_true, decide_eq_true_eq] at h ⊢
    omega

/-- The pending records that the queue would take if they were offered now. -/
def candidates (n : Ntc) : List NoticeRecord := n.pending.filter n.takes

theorem candidates_length_le (n : Ntc) : (candidates n).length ≤ n.pending.length := List.length_filter_le _ _

/-- Each turn of a pass leaves fewer records that the queue would take: a displaced record is not one of them. -/
theorem passTurn_fewer (h : Ordered s.ntc) (mem : r ∈ s.ntc.pending) (takes : s.ntc.takes r = true) :
    (candidates (passTurn s r).ntc).length < (candidates s.ntc).length := by
  have removed : ∀ p : NoticeRecord → Bool, p r = true →
      ((withoutId r.id s.ntc.pending).filter p).length < (s.ntc.pending.filter p).length := fun p hp => by
    have split := (withoutId_perm (nodup_of_inIdOrder h.pending) mem).filter p
    rw [split.length_eq, List.filter_cons_of_pos hp]
    exact Nat.lt_succ_self _
  by_cases room : s.ntc.queue.length < 8
  · have all : candidates s.ntc = s.ntc.pending := List.filter_eq_self.2 fun x _ => by simp [Ntc.takes, room]
    have pending : (passTurn s r).ntc.pending = withoutId r.id s.ntc.pending := by
      unfold passTurn
      rw [offerQueue_room (by exact room), joinQueue_ntc]
      rfl
    have fewer := removed (fun _ => true) rfl
    rw [List.filter_true, List.filter_true] at fewer
    have few := candidates_length_le (passTurn s r).ntc
    rw [pending] at few
    rw [all]
    exact few.trans_lt fewer
  obtain ⟨last, found⟩ := full_last room
  have high : last.severity.rank < r.severity.rank := by
    simpa [Ntc.takes, room, found] using takes
  have mem' : last ∈ s.ntc.queue := List.mem_of_getLast? found
  obtain ⟨u, hu⟩ : ∃ u, u = s.onNtc fun n => { n with pending := withoutId r.id n.pending } := ⟨_, rfl⟩
  have turned : (passTurn s r).ntc = { s.ntc with
      queue := insertQueue (asQueued (displaced u last).ntc r) s.ntc.queue.dropLast
      pending := insertById (asWaiting s.now last) (withoutId r.id s.ntc.pending) } := by
    unfold passTurn
    rw [← hu, offerQueue_displaces (by rw [hu]; exact room) (by rw [hu]; exact found) high, joinQueue_ntc, displaced_ntc, hu]
    rfl
  have floor : ∀ x ∈ (passTurn s r).ntc.queue, last.severity.rank ≤ x.severity.rank := by
    rw [turned]
    intro x hx
    obtain rfl | old := mem_insertQueue.1 hx
    · exact Nat.le_of_lt high
    · exact lowest_last h.queue found x (List.dropLast_subset _ old)
  have full : (passTurn s r).ntc.queue.length = s.ntc.queue.length := by
    have pos := List.length_pos_of_mem mem'
    rw [turned]
    show (insertQueue _ _).length = _
    rw [(insertQueue_perm _ _).length_eq, List.length_cons, List.length_dropLast]
    omega
  have above : ∀ x, (passTurn s r).ntc.takes x = true → last.severity.rank < x.severity.rank := by
    intro x hx
    obtain ⟨newLast, found'⟩ := full_last (n := (passTurn s r).ntc) (by rw [full]; exact room)
    have lowest := floor newLast (List.mem_of_getLast? found')
    have taken : newLast.severity.rank < x.severity.rank := by
      simpa [Ntc.takes, full, room, found'] using hx
    omega
  have before : ∀ x, last.severity.rank < x.severity.rank → s.ntc.takes x = true := fun x hx => by
    simp [Ntc.takes, room, found, hx]
  have shrinks : (candidates (passTurn s r).ntc).length
      ≤ ((withoutId r.id s.ntc.pending).filter s.ntc.takes).length := by
    have waits : (passTurn s r).ntc.takes (asWaiting s.now last) = false := by
      rw [← Bool.not_eq_true]
      exact fun k => Nat.lt_irrefl _ (above _ k)
    have absent : ∀ x ∈ withoutId r.id s.ntc.pending, x.id ≠ (asWaiting s.now last).id :=
      fun x hx => (h.queuePending last mem' x (mem_withoutId.1 hx).1).symm
    have pending : (passTurn s r).ntc.pending = insertById (asWaiting s.now last) (withoutId r.id s.ntc.pending) := by
      rw [turned]
    unfold candidates
    rw [pending, ((insertById_perm absent).filter _).length_eq, List.filter_cons_of_neg (by rw [waits]; decide)]
    exact (List.monotone_filter_right _ fun x hx => before x (above x hx)).length_le
  exact shrinks.trans_lt (removed s.ntc.takes takes)

/-- A pass leaves no presentable record pending that the queue would take (R162). -/
theorem presentationPass_settles : ∀ (fuel : Nat) {s : State}, Ordered s.ntc → (candidates s.ntc).length < fuel →
    ∀ x ∈ (presentationPass fuel s).ntc.pending, (presentationPass fuel s).ntc.presentable x = true →
      (presentationPass fuel s).ntc.takes x = false
  | 0, _, _, few => absurd few (Nat.not_lt_zero _)
  | fuel + 1, s, h, few => by
    cases next : s.ntc.passNext with
    | none =>
      rw [presentationPass_done next]
      intro x hx presentable
      have empty := ((passPick_highest _ none).1 next).2
      exact absurd presentable (by simpa using List.filter_eq_nil_iff.1 empty x hx)
    | some r =>
      cases takes : s.ntc.takes r with
      | false =>
        rw [presentationPass_refused next takes]
        intro x hx presentable
        rw [← Bool.not_eq_true]
        intro taken
        rw [takes_mono (passNext_highest next hx presentable) taken] at takes
        cases takes
      | true =>
        have mem := (passNext_mem next).1
        rw [presentationPass_turn next takes]
        exact presentationPass_settles fuel (passTurn_ordered h mem)
          (by have := passTurn_fewer h mem takes; omega)

theorem pass_settles (h : Ordered s.ntc) : ∀ x ∈ s.pass.ntc.pending, s.pass.ntc.presentable x = true →
    s.pass.ntc.takes x = false :=
  presentationPass_settles _ h (Nat.lt_succ_of_le (candidates_length_le _))

end Sys2Proof.Laws
end

section
/-! Raises and clears of notices: what each does case by case, and the records that NTC holds after it (R160, R165). -/

namespace Sys2Proof.Laws

open Sys2Proof.Machine Relation

-- Many short proofs at once would each hold a thread of the checking process.
set_option Elab.async false

variable {s t : State} {r : NoticeRecord} {id : Nat} {v : Severity} {d : Detail}

/-! ## The cases of a raise and of a clear -/

section
variable {sv : Option Severity} {c : Severity} {route : Route} (run : s.cfg.node = .run)
  (listed : s.catalogue id = some (c, route))
include run listed

theorem raiseNotice_queued (q : findId id s.ntc.queue = some r) :
    s.raiseNotice id sv d = s.raiseQueued r (sv.getD c) d := by
  unfold State.raiseNotice
  rw [(inRun_iff s).2 run, listed]
  dsimp only
  rw [q]
  rfl

theorem raiseNotice_pending (q : findId id s.ntc.queue = none) (p : findId id s.ntc.pending = some r) :
    s.raiseNotice id sv d = s.raisePending r (sv.getD c) d := by
  unfold State.raiseNotice
  rw [(inRun_iff s).2 run, listed]
  dsimp only
  rw [q, p]
  rfl

theorem raiseNotice_local (q : findId id s.ntc.queue = none) (p : findId id s.ntc.pending = none)
    (l : findId id s.ntc.locals = some r) : s.raiseNotice id sv d = s.raiseLocal r (sv.getD c) d := by
  unfold State.raiseNotice
  rw [(inRun_iff s).2 run, listed]
  dsimp only
  rw [q, p, l]
  rfl

theorem raiseNotice_new (q : findId id s.ntc.queue = none) (p : findId id s.ntc.pending = none)
    (l : findId id s.ntc.locals = none) :
    s.raiseNotice id sv d = s.raiseNew ⟨id, sv.getD c, route, d, s.now, false, none, none⟩ := by
  unfold State.raiseNotice
  rw [(inRun_iff s).2 run, listed]
  dsimp only
  rw [q, p, l]
  rfl

end

theorem raiseNotice_unlisted (h : s.catalogue id = none) (sv : Option Severity) (d : Detail) : s.raiseNotice id sv d = s := by
  unfold State.raiseNotice
  rw [h]
  split <;> rfl

section
variable (run : s.cfg.node = .run)
include run

theorem clearNotice_queued (q : findId id s.ntc.queue = some r) : s.clearNotice id =
    (((s.onNtc fun n => { n with queue := withoutId id n.queue }).withdrawSound r).offerCleared id 0).pass := by
  unfold State.clearNotice
  rw [(inRun_iff s).2 run, q]
  rfl

theorem clearNotice_pending (q : findId id s.ntc.queue = none) (p : findId id s.ntc.pending = some r) : s.clearNotice id =
    (s.onNtc fun n => { n with pending := withoutId id n.pending }).withdrawSound r := by
  unfold State.clearNotice
  rw [(inRun_iff s).2 run, q, p]
  rfl

theorem clearNotice_local (q : findId id s.ntc.queue = none) (p : findId id s.ntc.pending = none)
    (l : findId id s.ntc.locals = some r) : s.clearNotice id =
    (s.onNtc fun n => { n with locals := withoutId id n.locals }).withdrawSound r := by
  unfold State.clearNotice
  rw [(inRun_iff s).2 run, q, p, l]
  rfl

end

theorem clearNotice_absent (q : findId id s.ntc.queue = none) (p : findId id s.ntc.pending = none)
    (l : findId id s.ntc.locals = none) : s.clearNotice id = s := by
  unfold State.clearNotice
  rw [q, p, l]
  split <;> rfl

/-! ## The cases of a raise of a held id -/

/-- A raised record that keeps its severity. -/
def detailed (r : NoticeRecord) (d : Detail) : NoticeRecord := { r with detail := d }

/-- A raised record of a higher severity. -/
def heightened (r : NoticeRecord) (v : Severity) (d : Detail) : NoticeRecord := { r with detail := d, severity := v }

theorem raiseQueued_low (low : v.rank ≤ r.severity.rank) : s.raiseQueued r v d =
    (s.onNtc fun n => { n with queue := n.queue.map fun x => if x.id = r.id then detailed r d else x }).offerNotice
      (detailed r d) := if_pos low

/-- The queued record of a rise, with the sound of its method. -/
def requeued (n : Ntc) (r : NoticeRecord) (v : Severity) (d : Detail) : NoticeRecord :=
  { heightened r v d with sound :=
      if (if (n.method (heightened r v d)).1 then (n.method (heightened r v d)).2 else none).isSome then
        (if (n.method (heightened r v d)).1 then (n.method (heightened r v d)).2 else none)
      else r.sound }

theorem raiseQueued_high (high : ¬ v.rank ≤ r.severity.rank) : ∃ p, s.raiseQueued r v d =
    (((s.onNtc fun n => { n with queue := insertQueue (requeued s.ntc r v d) (withoutId r.id n.queue) }).offerNotice
      (requeued s.ntc r v d)).placeSound r.id p) := ⟨_, if_neg high⟩

theorem raisePending_low (low : v.rank ≤ r.severity.rank) : s.raisePending r v d = s.pend (detailed r d) := if_pos low

theorem raisePending_high (high : ¬ v.rank ≤ r.severity.rank) : s.raisePending r v d =
    ((s.pend (asPending s.now (heightened r v d))).reapply (asPending s.now (heightened r v d))).pass := if_neg high

theorem raiseLocal_low (low : v.rank ≤ r.severity.rank) : s.raiseLocal r v d =
    s.onNtc fun n => { n with locals := insertById (detailed r d) n.locals } := if_pos low

theorem raiseLocal_high (high : ¬ v.rank ≤ r.severity.rank) : ∃ p, s.raiseLocal r v d =
    ((s.withdrawSound r).placeSound r.id p).onNtc fun n =>
      { n with locals := insertById { heightened r v d with sound := p } n.locals } := ⟨_, if_neg high⟩

theorem reapply_ntc (s : State) (r : NoticeRecord) : (s.reapply r).ntc = { s.ntc with
    pending := if s.ntc.pendingSound r = r.sound then s.ntc.pending
      else s.ntc.pending.map fun x => if x.id = r.id then { x with sound := s.ntc.pendingSound r } else x } := by
  unfold State.reapply
  dsimp only
  split
  · rfl
  · rw [onNtc_ntc, placeSound_ntc, withdrawSound_ntc]

/-- The method re-applied to a pending record changes no core. -/
theorem reapply_shown (s : State) (r : NoticeRecord) : shown (s.reapply r).ntc = shown s.ntc := by
  rw [reapply_ntc]
  split
  · rfl
  · unfold shown
    rw [List.map_append, List.map_append, List.map_map]
    refine congrArg _ (List.map_congr_left fun x _ => ?_)
    dsimp only [Function.comp]
    split <;> rfl

/-! ## The records that NTC holds -/

/-- The notices that NTC holds, without what their place decides. -/
def cores (n : Ntc) : List NoticeRecord := n.held.map core

theorem cores_eq (n : Ntc) : cores n = shown n ++ n.locals.map core := by simp [cores, Ntc.held, shown]

theorem mem_cores {n : Ntc} {c : NoticeRecord} : c ∈ cores n ↔ ∃ x ∈ n.held, core x = c := List.mem_map

/-- NTC without an id. -/
def without (id : Nat) (n : Ntc) : Ntc :=
  { n with queue := withoutId id n.queue, pending := withoutId id n.pending, locals := withoutId id n.locals }

theorem mem_cores_without {n : Ntc} {c : NoticeRecord} : c ∈ cores (without id n) ↔ c ∈ cores n ∧ c.id ≠ id := by
  have held : (without id n).held = withoutId id n.held := by simp [without, Ntc.held, withoutId]
  rw [mem_cores, mem_cores, held]
  constructor
  · rintro ⟨x, hx, rfl⟩
    obtain ⟨mem, ne⟩ := mem_withoutId.1 hx
    exact ⟨⟨x, mem, rfl⟩, ne⟩
  · rintro ⟨⟨x, hx, rfl⟩, ne⟩
    exact ⟨x, mem_withoutId.2 ⟨hx, ne⟩, rfl⟩

theorem mem_held {n : Ntc} {x : NoticeRecord} : x ∈ n.held ↔ x ∈ n.queue ∨ x ∈ n.pending ∨ x ∈ n.locals := by
  simp [Ntc.held]

theorem absent_iff {n : Ntc} : (∀ x ∈ n.held, x.id ≠ id) ↔ Absent n id := by
  constructor
  · exact fun h => ⟨fun r hr => h r (mem_held.2 (.inl hr)), fun r hr => h r (mem_held.2 (.inr (.inl hr))),
      fun r hr => h r (mem_held.2 (.inr (.inr hr)))⟩
  · rintro ⟨q, p, l⟩ x hx
    rcases mem_held.1 hx with h | h | h
    · exact q x h
    · exact p x h
    · exact l x h

theorem without_absent {n : Ntc} (h : Absent n id) : without id n = n := by
  unfold without
  rw [withoutId_of_absent h.queue, withoutId_of_absent h.pending, withoutId_of_absent h.locals]

theorem findId_absent {rs : List NoticeRecord} (h : ∀ x ∈ rs, x.id ≠ id) : findId id rs = none :=
  List.find?_eq_none.2 fun x hx => by simpa using h x hx

theorem Ordered.withoutQueued {n : Ntc} (h : Ordered n) (mem : r ∈ n.queue) :
    without r.id n = { n with queue := withoutId r.id n.queue } := by
  unfold without
  rw [withoutId_of_absent fun x hx => (h.queuePending r mem x hx).symm,
    withoutId_of_absent fun x hx => (h.queueLocal r mem x hx).symm]

theorem Ordered.withoutPending {n : Ntc} (h : Ordered n) (mem : r ∈ n.pending) :
    without r.id n = { n with pending := withoutId r.id n.pending } := by
  unfold without
  rw [withoutId_of_absent fun x hx => h.queuePending x hx r mem,
    withoutId_of_absent fun x hx => (h.pendingLocal r mem x hx).symm]

theorem Ordered.withoutLocal {n : Ntc} (h : Ordered n) (mem : r ∈ n.locals) :
    without r.id n = { n with locals := withoutId r.id n.locals } := by
  unfold without
  rw [withoutId_of_absent fun x hx => h.queueLocal x hx r mem, withoutId_of_absent fun x hx => h.pendingLocal x hx r mem]

/-- An unordered set with a record put in is the record and the others. -/
theorem insertById_perm_without {r : NoticeRecord} : ∀ {rs : List NoticeRecord}, InIdOrder rs →
    (insertById r rs).Perm (r :: withoutId r.id rs)
  | [], _ => .refl _
  | y :: ys, order => by
    obtain ⟨first, rest⟩ := List.pairwise_cons.1 order
    have above : ¬ y.id < r.id → withoutId r.id ys = ys := fun k =>
      withoutId_of_absent fun x hx => by have := first x hx; omega
    unfold insertById
    split
    · rename_i low
      have kept : withoutId r.id (y :: ys) = y :: withoutId r.id ys := List.filter_cons_of_pos (by simp; omega)
      rw [kept]
      exact ((insertById_perm_without rest).cons y).trans (.swap r y _)
    split
    · rename_i low same
      have gone : withoutId r.id (y :: ys) = withoutId r.id ys := List.filter_cons_of_neg (by simp [same])
      rw [gone, above low]
    · rename_i low other
      have kept : withoutId r.id (y :: ys) = y :: withoutId r.id ys := List.filter_cons_of_pos (by simpa using other)
      rw [kept, above low]

/-- A queued record replaced in its place. -/
theorem replaceQueued_perm {rs : List NoticeRecord} (once : (rs.map (·.id)).Nodup) (mem : r ∈ rs) (x : NoticeRecord) :
    (rs.map fun y => if y.id = r.id then x else y).Perm (x :: withoutId r.id rs) := by
  refine ((withoutId_perm once mem).map _).trans ?_
  rw [List.map_cons, if_pos rfl]
  refine .of_eq (congrArg (x :: ·) ((List.map_congr_left fun y hy => ?_).trans (List.map_id _)))
  exact if_neg (mem_withoutId.1 hy).2

section
variable {n : Ntc} {c : NoticeRecord}

theorem cores_queue {q : List NoticeRecord} (h : (q.map core).Perm (c :: n.queue.map core)) :
    (cores { n with queue := q }).Perm (c :: cores n) := by
  simp only [cores, Ntc.held, List.map_append]
  exact (h.append_right _).append_right _

theorem cores_pending {p : List NoticeRecord} (h : (p.map core).Perm (c :: n.pending.map core)) :
    (cores { n with pending := p }).Perm (c :: cores n) := by
  simp only [cores, Ntc.held, List.map_append]
  exact ((h.append_left _).trans List.perm_middle).append_right _

theorem cores_locals {l : List NoticeRecord} {k : Nat} (h : (l.map core).Perm (c :: n.locals.map core)) :
    (cores { n with locals := l, logCount := k }).Perm (c :: cores n) := by
  simp only [cores, Ntc.held, List.map_append]
  exact (h.append_left _).trans List.perm_middle

theorem cores_shown {m : Ntc} (h : (shown m).Perm (c :: shown n)) (l : m.locals = n.locals) :
    (cores m).Perm (c :: cores n) := by
  rw [cores_eq, cores_eq, l]
  exact h.append_right _

end

theorem pass_locals (s : State) : s.pass.ntc.locals = s.ntc.locals := by rw [pass_frame]

theorem offerQueue_locals (s : State) (r : NoticeRecord) : (s.offerQueue r).ntc.locals = s.ntc.locals := by
  rw [offerQueue_frame]

/-- A pass changes no core of what NTC holds. -/
theorem pass_cores (h : Ordered s.ntc) : (cores s.pass.ntc).Perm (cores s.ntc) := by
  rw [cores_eq, cores_eq, pass_locals]
  exact (pass_shown h).append_right _

/-- A raise of an id that is not held adds its record. -/
theorem raiseNew_cores (h : Ordered s.ntc) (absent : Absent s.ntc r.id) :
    (cores (s.raiseNew r).ntc).Perm (core r :: cores s.ntc) := by
  unfold State.raiseNew
  dsimp only
  split
  · rw [placeSound_ntc]
    exact cores_locals (core_insertById (r := r) { r with sound := _ } rfl absent.locals)
  · split
    · exact cores_shown (offerQueue_shown h absent) (offerQueue_locals _ _)
    · rw [placeSound_ntc]
      exact cores_pending (core_insertById (r := r) { asPending s.now r with sound := _ } rfl absent.pending)

/-- The record of a raise of a held id: its detail is the new one, its severity the higher of the two (R160; log 18). -/
def raisedRecord (r : NoticeRecord) (v : Severity) (d : Detail) : NoticeRecord :=
  if v.rank ≤ r.severity.rank then core (detailed r d) else core (heightened r v d)

theorem raiseQueued_cores (h : Ordered s.ntc) (mem : r ∈ s.ntc.queue) :
    (cores (s.raiseQueued r v d).ntc).Perm (raisedRecord r v d :: cores (without r.id s.ntc)) := by
  rw [h.withoutQueued mem]
  unfold raisedRecord
  split
  · rename_i low
    rw [raiseQueued_low low]
    exact cores_queue (n := { s.ntc with queue := withoutId r.id s.ntc.queue })
      ((replaceQueued_perm h.once mem (detailed r d)).map core)
  · rename_i high
    obtain ⟨p, e⟩ := raiseQueued_high (s := s) (d := d) high
    rw [e, placeSound_ntc]
    exact cores_queue (n := { s.ntc with queue := withoutId r.id s.ntc.queue })
      (core_insertQueue (heightened r v d) _ (requeued s.ntc r v d) rfl)

theorem pend_cores {x : NoticeRecord} (h : Ordered s.ntc) (mem : r ∈ s.ntc.pending) (same : x.id = r.id) :
    (cores (s.pend x).ntc).Perm (core x :: cores (without r.id s.ntc)) := by
  rw [h.withoutPending mem, ← same]
  exact cores_pending (n := { s.ntc with pending := withoutId x.id s.ntc.pending })
    ((insertById_perm_without h.pending).map core)

theorem pend_ordered {x : NoticeRecord} (h : Ordered s.ntc) (mem : r ∈ s.ntc.pending) (same : x.id = r.id) :
    Ordered (s.pend x).ntc :=
  h.pend (fun a ha => same ▸ h.queuePending a ha r mem) fun a ha => same ▸ (h.pendingLocal r mem a ha).symm

theorem reapply_cores (s : State) (r : NoticeRecord) : cores (s.reapply r).ntc = cores s.ntc := by
  rw [cores_eq, cores_eq, reapply_shown, reapply_ntc]

theorem raisePending_cores (h : Ordered s.ntc) (mem : r ∈ s.ntc.pending) :
    (cores (s.raisePending r v d).ntc).Perm (raisedRecord r v d :: cores (without r.id s.ntc)) := by
  unfold raisedRecord
  split
  · rename_i low
    rw [raisePending_low low]
    exact pend_cores h mem rfl
  · rename_i high
    rw [raisePending_high high]
    have pended := pend_ordered (x := asPending s.now (heightened r v d)) h mem rfl
    refine (pass_cores (reapply_ordered _ pended)).trans ?_
    rw [reapply_cores]
    exact pend_cores h mem rfl

theorem raiseLocal_cores (h : Ordered s.ntc) (mem : r ∈ s.ntc.locals) :
    (cores (s.raiseLocal r v d).ntc).Perm (raisedRecord r v d :: cores (without r.id s.ntc)) := by
  have put : ∀ x : NoticeRecord, x.id = r.id → (cores { s.ntc with locals := insertById x s.ntc.locals }).Perm
      (core x :: cores (without r.id s.ntc)) := fun x same => by
    rw [h.withoutLocal mem, ← same]
    exact cores_locals (n := { s.ntc with locals := withoutId x.id s.ntc.locals })
      ((insertById_perm_without h.locals).map core)
  unfold raisedRecord
  split
  · rename_i low
    rw [raiseLocal_low low]
    exact put (detailed r d) rfl
  · rename_i high
    obtain ⟨p, e⟩ := raiseLocal_high (s := s) (d := d) high
    rw [e, onNtc_ntc, placeSound_ntc, withdrawSound_ntc]
    exact put { heightened r v d with sound := p } rfl

theorem raisedRecord_facts (r : NoticeRecord) (v : Severity) (d : Detail) : (raisedRecord r v d).id = r.id
    ∧ (raisedRecord r v d).detail = d ∧ (raisedRecord r v d).raised = r.raised
    ∧ (raisedRecord r v d).severity = (if v.rank ≤ r.severity.rank then r.severity else v)
    ∧ v.rank ≤ (raisedRecord r v d).severity.rank := by
  unfold raisedRecord
  split
  · rename_i low
    exact ⟨rfl, rfl, rfl, rfl, low⟩
  · exact ⟨rfl, rfl, rfl, rfl, Nat.le_refl _⟩

/-! ## What a raise and a clear leave -/

/-- A raise that is taken leaves a record of its id with its detail and at least its severity, and of the others each as it was
(R160). -/
theorem raiseNotice_cores {sv : Option Severity} {c : Severity} {route : Route} (run : s.cfg.node = .run)
    (listed : s.catalogue id = some (c, route)) (h : Ordered s.ntc) : ∃ x : NoticeRecord, x.id = id ∧ x.detail = d
      ∧ (sv.getD c).rank ≤ x.severity.rank ∧ (Absent s.ntc id → x.severity = sv.getD c)
      ∧ (cores (s.raiseNotice id sv d).ntc).Perm (x :: cores (without id s.ntc)) := by
  have held : ∀ r, r ∈ s.ntc.held → r.id = id →
      (cores (s.raiseNotice id sv d).ntc).Perm (raisedRecord r (sv.getD c) d :: cores (without r.id s.ntc)) →
      ∃ x : NoticeRecord, x.id = id ∧ x.detail = d ∧ (sv.getD c).rank ≤ x.severity.rank
        ∧ (Absent s.ntc id → x.severity = sv.getD c)
        ∧ (cores (s.raiseNotice id sv d).ntc).Perm (x :: cores (without id s.ntc)) := by
    intro r mem same perm
    obtain ⟨sameId, detail, -, -, rank⟩ := raisedRecord_facts r (sv.getD c) d
    exact ⟨_, sameId.trans same, detail, rank, fun absent => absurd same (absent_iff.2 absent r mem), same ▸ perm⟩
  cases q : findId id s.ntc.queue with
  | some r =>
    obtain ⟨mem, same⟩ := findId_mem q
    refine held r (mem_held.2 (.inl mem)) same ?_
    rw [raiseNotice_queued run listed q]
    exact raiseQueued_cores h mem
  | none =>
    cases p : findId id s.ntc.pending with
    | some r =>
      obtain ⟨mem, same⟩ := findId_mem p
      refine held r (mem_held.2 (.inr (.inl mem))) same ?_
      rw [raiseNotice_pending run listed q p]
      exact raisePending_cores h mem
    | none =>
      cases l : findId id s.ntc.locals with
      | some r =>
        obtain ⟨mem, same⟩ := findId_mem l
        refine held r (mem_held.2 (.inr (.inr mem))) same ?_
        rw [raiseNotice_local run listed q p l]
        exact raiseLocal_cores h mem
      | none =>
        have absent : Absent s.ntc id := ⟨findId_none q, findId_none p, findId_none l⟩
        refine ⟨⟨id, sv.getD c, route, d, s.now, false, none, none⟩, rfl, rfl, Nat.le_refl _, fun _ => rfl, ?_⟩
        rw [raiseNotice_new run listed q p l, without_absent absent]
        exact raiseNew_cores h absent

theorem raiseNotice_holds {sv : Option Severity} {c : Severity} {route : Route} (run : s.cfg.node = .run)
    (listed : s.catalogue id = some (c, route)) (h : Ordered s.ntc) : ∃ r ∈ (s.raiseNotice id sv d).ntc.held, r.id = id
      ∧ r.detail = d ∧ (sv.getD c).rank ≤ r.severity.rank
      ∧ ((∀ x ∈ s.ntc.held, x.id ≠ id) → r.severity = sv.getD c) := by
  obtain ⟨x, sameId, detail, rank, new, perm⟩ := raiseNotice_cores (sv := sv) (d := d) run listed h
  obtain ⟨r, mem, e⟩ := mem_cores.1 (perm.mem_iff.2 (List.mem_cons_self ..))
  rw [← e] at sameId detail rank new
  exact ⟨r, mem, sameId, detail, rank, fun absent => new (absent_iff.1 absent)⟩

/-- A raise leaves every other id as it was (R160). -/
theorem raiseNotice_others (h : Ordered s.ntc) (sv : Option Severity) {x : NoticeRecord} (other : x.id ≠ id) :
    x ∈ cores (s.raiseNotice id sv d).ntc ↔ x ∈ cores s.ntc := by
  by_cases run : s.cfg.node = .run
  · cases listed : s.catalogue id with
    | none => rw [raiseNotice_unlisted listed]
    | some e =>
      obtain ⟨y, sameId, -, -, -, perm⟩ := raiseNotice_cores (sv := sv) (d := d) run listed h
      rw [perm.mem_iff, List.mem_cons, mem_cores_without]
      refine ⟨fun k => ?_, fun k => .inr ⟨k, other⟩⟩
      obtain rfl | ⟨mem, -⟩ := k
      · exact absurd sameId other
      · exact mem
  · rw [raiseNotice_out (by rw [← Bool.not_eq_true, inRun_iff]; exact run)]

theorem withdrawSound_cores (s : State) (r : NoticeRecord) : cores (s.withdrawSound r).ntc = cores s.ntc := by
  rw [withdrawSound_ntc]

/-- A clear leaves no record of its id, and of the others each as it was (R165). -/
theorem clearNotice_cores (run : s.cfg.node = .run) (h : Ordered s.ntc) :
    (cores (s.clearNotice id).ntc).Perm (cores (without id s.ntc)) := by
  cases q : findId id s.ntc.queue with
  | some r =>
    obtain ⟨mem, rfl⟩ := findId_mem q
    have cleared : ((((s.onNtc fun n => { n with queue := withoutId r.id n.queue }).withdrawSound r).offerCleared r.id 0)).ntc
        = { s.ntc with queue := withoutId r.id s.ntc.queue } := withdrawSound_ntc _ _
    have ordered : Ordered ((((s.onNtc fun n => { n with queue := withoutId r.id n.queue }).withdrawSound r).offerCleared r.id 0)).ntc := by
      rw [cleared]
      exact h.sub (withoutId_sublist _ _) (.refl _) (.refl _)
    rw [clearNotice_queued run q, h.withoutQueued mem, ← cleared]
    exact pass_cores ordered
  | none =>
    cases p : findId id s.ntc.pending with
    | some r =>
      obtain ⟨mem, rfl⟩ := findId_mem p
      rw [clearNotice_pending run q p, h.withoutPending mem, withdrawSound_cores]
      exact .refl _
    | none =>
      cases l : findId id s.ntc.locals with
      | some r =>
        obtain ⟨mem, rfl⟩ := findId_mem l
        rw [clearNotice_local run q p l, h.withoutLocal mem, withdrawSound_cores]
        exact .refl _
      | none => rw [clearNotice_absent q p l, without_absent ⟨findId_none q, findId_none p, findId_none l⟩]

theorem clearNotice_gone (run : s.cfg.node = .run) (h : Ordered s.ntc) : ∀ x ∈ (s.clearNotice id).ntc.held, x.id ≠ id := by
  intro x hx
  have mem := (clearNotice_cores run h).mem_iff.1 (mem_cores.2 ⟨x, hx, rfl⟩)
  exact (mem_cores_without.1 mem).2

/-- A clear leaves every other id as it was (R165). -/
theorem clearNotice_others (h : Ordered s.ntc) {x : NoticeRecord} (other : x.id ≠ id) :
    x ∈ cores (s.clearNotice id).ntc ↔ x ∈ cores s.ntc := by
  by_cases run : s.cfg.node = .run
  · rw [(clearNotice_cores run h).mem_iff, mem_cores_without]
    exact and_iff_left other
  · rw [clearNotice_out (by rw [← Bool.not_eq_true, inRun_iff]; exact run)]

end Sys2Proof.Laws
end

section
/-! A new notice, a raise of a held one, a clear, a displacement and a pass, each with what it leaves (R159 to R165). -/

namespace Sys2Proof.Laws

open Sys2Proof.Machine Relation

-- Many short proofs at once would each hold a thread of the checking process.
set_option Elab.async false

variable {s t : State} {r : NoticeRecord} {id : Nat} {v : Severity} {d : Detail}

/-! ## A new notice -/

theorem raiseNew_local (h : r.route = .locally) : (s.raiseNew r).ntc = { s.ntc with
    locals := insertById { r with sound := (s.ntc.method r).2 } s.ntc.locals
    logCount := if r.severity = .info then sat16 s.ntc.logCount else s.ntc.logCount } := by
  unfold State.raiseNew
  rw [h]
  dsimp only
  rw [placeSound_ntc]
  rfl

theorem raiseNew_waits (h : r.route = .display) (hidden : (s.ntc.method r).1 = false) : (s.raiseNew r).ntc = { s.ntc with
    pending := insertById { asPending s.now r with sound := (s.ntc.method r).2 } s.ntc.pending } := by
  unfold State.raiseNew
  rw [h]
  dsimp only
  rw [hidden, if_neg (by decide), placeSound_ntc]
  rfl

theorem raiseNew_joins (h : r.route = .display) (presented : (s.ntc.method r).1 = true) : s.raiseNew r = s.offerQueue r := by
  unfold State.raiseNew
  rw [h]
  exact if_pos presented

theorem escalates_new {i : Nat} {route : Route} {now : Ms} :
    (asPending s.now ⟨i, v, route, d, now, false, none, none⟩).escalationStart = if v = .caution then some s.now else none := by
  unfold asPending escalates
  cases v <;> rfl

/-! ## A raise of a held notice -/

/-- The NOTICE frame of a record is queued once it is offered (R160). -/
theorem offerNotice_queued (run : s.cfg.node = .run) (r : NoticeRecord) : Queued (s.offerNotice r).link .normal .notice 0xFF
    ([byteOf r.id, byteOf (severityCode r.severity)] ++ be6 (Config.detailBytes r.detail)) :=
  offer_queued (takesOffer_run run) (by decide) _ _

theorem placeSound_link (s : State) (id : Nat) (p : Option Pattern) : (s.placeSound id p).link = s.link := by
  cases p
  · rfl
  · exact (sound_touches s _).link rfl

theorem withdrawSound_link (s : State) (r : NoticeRecord) : (s.withdrawSound r).link = s.link := by
  unfold State.withdrawSound
  split
  · rfl
  · exact (sound_touches s _).link rfl

theorem severity_max (v w : Severity) : max v.rank w.rank = if v.rank ≤ w.rank then w.rank else v.rank :=
  Nat.max_def

/-- A queued id raised: its NOTICE is offered again (R160). -/
theorem raiseQueued_offers (run : s.cfg.node = .run) : Queued (s.raiseQueued r v d).link .normal .notice 0xFF
    ([byteOf r.id, byteOf (max v.rank r.severity.rank : Nat)] ++ be6 (Config.detailBytes d)) := by
  rw [severity_max]
  split
  · rename_i low
    rw [raiseQueued_low low]
    exact offerNotice_queued (by exact run) (detailed r d)
  · rename_i high
    obtain ⟨p, e⟩ := raiseQueued_high (s := s) (d := d) high
    rw [e, placeSound_link]
    exact offerNotice_queued (by exact run) (requeued s.ntc r v d)

theorem raiseQueued_low_ntc (low : v.rank ≤ r.severity.rank) : (s.raiseQueued r v d).snd = s.snd
    ∧ (s.raiseQueued r v d).ntc = { s.ntc with
        queue := s.ntc.queue.map fun x => if x.id = r.id then { r with detail := d } else x } := by
  rw [raiseQueued_low low]
  exact ⟨rfl, rfl⟩

theorem raiseQueued_high_ntc (high : r.severity.rank < v.rank) : (s.raiseQueued r v d).ntc = { s.ntc with
    queue := insertQueue (requeued s.ntc r v d) (withoutId r.id s.ntc.queue) } := by
  obtain ⟨p, e⟩ := raiseQueued_high (s := s) (d := d) (Nat.not_le.2 high)
  rw [e, placeSound_ntc]
  rfl

/-- A pending id raised stays queued or pending (R160). -/
theorem raisePending_high_held (h : Ordered s.ntc) (mem : r ∈ s.ntc.pending) (high : r.severity.rank < v.rank) :
    ∃ x ∈ (s.raisePending r v d).ntc.queue ++ (s.raisePending r v d).ntc.pending,
      x.id = r.id ∧ x.severity = v ∧ x.detail = d ∧ x.raised = r.raised := by
  have pended := pend_ordered (x := asPending s.now (heightened r v d)) h mem rfl
  have shows : core (heightened r v d) ∈ shown ((s.pend (asPending s.now (heightened r v d))).reapply
      (asPending s.now (heightened r v d))).ntc := by
    rw [reapply_shown]
    exact mem_shown.2 ⟨_, .inr (insertById_self _ _), rfl⟩
  have kept := (pass_shown (reapply_ordered (asPending s.now (heightened r v d)) pended)).mem_iff.2 shows
  rw [raisePending_high (Nat.not_le.2 high)]
  obtain ⟨x, place, e⟩ := mem_shown.1 kept
  obtain ⟨sameId, severity, -, detail, raised, -⟩ := core_eq (x := heightened r v d) e
  exact ⟨x, List.mem_append.2 place, sameId, severity, detail, raised⟩

theorem raiseLocal_link (s : State) (r : NoticeRecord) (v : Severity) (d : Detail) : (s.raiseLocal r v d).link = s.link := by
  by_cases low : v.rank ≤ r.severity.rank
  · rw [raiseLocal_low low]
    rfl
  · obtain ⟨p, e⟩ := raiseLocal_high (s := s) (d := d) low
    rw [e]
    exact (placeSound_link _ _ _).trans (withdrawSound_link _ _)

theorem raiseLocal_held (s : State) (r : NoticeRecord) (v : Severity) (d : Detail) : ∃ x ∈ (s.raiseLocal r v d).ntc.locals,
    x.id = r.id ∧ x.detail = d ∧ x.raised = r.raised ∧ x.severity = if v.rank ≤ r.severity.rank then r.severity else v := by
  by_cases low : v.rank ≤ r.severity.rank
  · rw [raiseLocal_low low]
    exact ⟨_, insertById_self _ _, rfl, rfl, rfl, (if_pos low).symm⟩
  · obtain ⟨p, e⟩ := raiseLocal_high (s := s) (d := d) low
    rw [e]
    exact ⟨_, insertById_self _ _, rfl, rfl, rfl, (if_neg low).symm⟩

/-! ## A clear -/

/-- A record of another id keeps its severity and raise time through a clear (R165). -/
theorem clearNotice_keeps (h : Ordered s.ntc) {x : NoticeRecord} (mem : x ∈ s.ntc.held) (other : x.id ≠ id) :
    ∃ y ∈ (s.clearNotice id).ntc.held, y.id = x.id ∧ y.severity = x.severity ∧ y.raised = x.raised := by
  have kept := (clearNotice_others (id := id) h (x := core x) other).2 (mem_cores.2 ⟨x, mem, rfl⟩)
  obtain ⟨y, hy, e⟩ := mem_cores.1 kept
  obtain ⟨sameId, severity, -, -, raised, -⟩ := core_eq e
  exact ⟨y, hy, sameId, severity, raised⟩

theorem clearNotice_unqueued_link (out : findId id s.ntc.queue = none) : (s.clearNotice id).link = s.link := by
  by_cases run : s.cfg.node = .run
  · cases p : findId id s.ntc.pending with
    | some r => rw [clearNotice_pending run out p, withdrawSound_link]; rfl
    | none =>
      cases l : findId id s.ntc.locals with
      | some r => rw [clearNotice_local run out p l, withdrawSound_link]; rfl
      | none => rw [clearNotice_absent out p l]
  · rw [clearNotice_out (by rw [← Bool.not_eq_true, inRun_iff]; exact run)]

theorem offerCleared_queued (run : s.cfg.node = .run) (id cause : Nat) :
    Queued (s.offerCleared id cause).link .normal .noticeCleared 0xFF [byteOf id, byteOf cause] :=
  offer_queued (takesOffer_run run) (by decide) _ _

/-- With nothing pending a queued id that is cleared leaves its NOTICE CLEARED in the class (R165). -/
theorem clearNotice_offers (run : s.cfg.node = .run) (queued : findId id s.ntc.queue ≠ none) (none : s.ntc.pending = []) :
    Queued (s.clearNotice id).link .normal .noticeCleared 0xFF [byteOf id, 0] := by
  obtain ⟨r, q⟩ := Option.ne_none_iff_exists'.1 queued
  obtain ⟨u, hu⟩ : ∃ u, u = (s.onNtc fun n => { n with queue := withoutId id n.queue }).withdrawSound r := ⟨_, rfl⟩
  have pending : (u.offerCleared id 0).ntc.pending = [] := by
    show u.ntc.pending = []
    rw [hu, withdrawSound_ntc]
    exact none
  have node : u.cfg.node = .run := by
    rw [hu, (withdrawSound_touches _ _).cfg rfl]
    exact run
  rw [clearNotice_queued run q, ← hu, pass_idle (by rw [pending]; exact fun _ h => absurd h List.not_mem_nil)]
  exact offerCleared_queued node id 0

/-! ## A displacement -/

/-- A frame in NORMAL stays there while another joins the class with room. -/
theorem offerNotice_keeps {f : TxFrame} (run : s.cfg.node = .run) (room : s.link.normal.length < 8) (mem : f ∈ s.link.normal) :
    f ∈ (s.offerNotice r).link.normal := by
  obtain ⟨g, hg⟩ : ∃ g, g = s.frame .notice 0xFF
    ([byteOf r.id, byteOf (severityCode r.severity)] ++ be6 (Config.detailBytes r.detail)) := ⟨_, rfl⟩
  have joined : (s.offerNotice r).link = (offerFrame s.cfg.node .normal g s.link).1 := by rw [hg]; rfl
  have kind : g.kind = .notice := by rw [hg]; rfl
  rw [joined, offerFrame_joins (by rw [kind]; exact takesOffer_run run)
    (.inr (oddSequence_plain (by rw [kind]; decide))) (.inl (by rw [kind]; rfl)), joinClass_room (by exact room)]
  show f ∈ classOf (setClass s.link .normal (s.link.normal ++ [g])) .normal
  rw [classOf_setClass]
  exact List.mem_append_left _ mem

/-- With room for two frames the NOTICE CLEARED of a displacement stands in NORMAL after it (R161). -/
theorem displaced_offers {last : NoticeRecord} (run : s.cfg.node = .run) (room : s.link.normal.length ≤ 6) :
    Queued ((displaced s last).joinQueue r).link .normal .noticeCleared 0xFF [byteOf last.id, 1] := by
  obtain ⟨u, hu⟩ : ∃ u, u = (s.onNtc fun n => { n with queue := n.queue.dropLast }).withdrawSound last := ⟨_, rfl⟩
  have node : u.cfg.node = .run := by
    rw [hu, (withdrawSound_touches _ _).cfg rfl]
    exact run
  have link : u.link = s.link := by rw [hu, withdrawSound_link]; rfl
  obtain ⟨f, hf⟩ : ∃ f, f = u.frame .noticeCleared 0xFF [byteOf last.id, byteOf 1] := ⟨_, rfl⟩
  have offered : (u.offerCleared last.id 1).link.normal = s.link.normal ++ [f] := by
    have joined : (u.offerCleared last.id 1).link = (offerFrame u.cfg.node .normal f u.link).1 := by rw [hf]; rfl
    have kind : f.kind = .noticeCleared := by rw [hf]; rfl
    rw [joined, offerFrame_joins (by rw [kind]; exact takesOffer_run node)
      (.inr (oddSequence_plain (by rw [kind]; decide))) (.inl (by rw [kind]; rfl)),
      joinClass_room (by rw [link]; exact Nat.lt_of_le_of_lt room (by decide)), link]
    exact classOf_setClass s.link .normal (s.link.normal ++ [f])
  have cleared : (displaced s last).link.normal = s.link.normal ++ [f] := by
    unfold displaced
    rw [← hu]
    exact offered
  have displacedRun : (displaced s last).cfg.node = .run := by
    unfold displaced
    rw [← hu, (pend_touches _ _).cfg rfl, (offerCleared_touches _ _ _).cfg rfl]
    exact node
  refine ⟨f, .inl ?_, by rw [hf]; rfl, by rw [hf]; rfl, by rw [hf]; rfl⟩
  unfold State.joinQueue
  dsimp only
  rw [placeSound_link]
  refine offerNotice_keeps (s := (displaced s last).onNtc _) (by exact displacedRun) ?_ ?_
  · show (displaced s last).link.normal.length < 8
    rw [cleared, List.length_append, List.length_singleton]
    omega
  · show f ∈ (displaced s last).link.normal
    rw [cleared]
    exact List.mem_append_right _ (List.mem_singleton.2 rfl)

/-- The displaced record waits with a fresh escalation timer (R161, R163). -/
theorem asWaiting_facts (now : Ms) (r : NoticeRecord) : (asWaiting now r).id = r.id ∧ (asWaiting now r).severity = r.severity
    ∧ (asWaiting now r).sound = none ∧ (asWaiting now r).escalationStart =
        if r.severity = .caution ∧ r.escalated = false then some now else none := by
  refine ⟨rfl, rfl, rfl, ?_⟩
  show (if escalates r = true then some now else none) = _
  exact if_congr (by simp [escalates]) rfl rfl

/-! ## The statement -/

theorem newNotice_placed (sv : Option Severity) (c : Severity) (route : Route) (run : s.cfg.node = .run)
    (listed : s.catalogue id = some (c, route)) (value : v = sv.getD c) (q : findId id s.ntc.queue = none)
    (p : findId id s.ntc.pending = none) (l : findId id s.ntc.locals = none) :
    (route = .locally → ∃ r, r ∈ (s.raiseNotice id sv d).ntc.locals ∧ r.id = id ∧ r.severity = v ∧ r.detail = d
        ∧ r.raised = s.now ∧ (s.raiseNotice id sv d).ntc.queue = s.ntc.queue
        ∧ (s.raiseNotice id sv d).ntc.logCount =
            if v = .info then min 65535 (s.ntc.logCount + 1) else s.ntc.logCount)
    ∧ (route = .display → (methodFor .display s.ntc.displayAvailable s.ntc.inhibited false v).1 = false →
        ∃ r, r ∈ (s.raiseNotice id sv d).ntc.pending ∧ r.id = id ∧ r.severity = v ∧ r.detail = d ∧ r.raised = s.now
          ∧ r.escalationStart = (if v = .caution then some s.now else none)
          ∧ (s.raiseNotice id sv d).ntc.queue = s.ntc.queue)
    ∧ (route = .display → (methodFor .display s.ntc.displayAvailable s.ntc.inhibited false v).1 = true →
        s.ntc.queue.length < 8 →
        ∃ r, r ∈ (s.raiseNotice id sv d).ntc.queue ∧ r.id = id ∧ r.severity = v ∧ r.detail = d ∧ r.raised = s.now
          ∧ (s.raiseNotice id sv d).ntc.queue.length = s.ntc.queue.length + 1
          ∧ (s.raiseNotice id sv d).ntc.pending = s.ntc.pending) := by
  rw [raiseNotice_new run listed q p l, ← value]
  refine ⟨fun place => ?_, fun place hidden => ?_, fun place presented room => ?_⟩ <;> subst place
  · rw [raiseNew_local rfl]
    exact ⟨_, insertById_self _ _, rfl, rfl, rfl, rfl, rfl, rfl⟩
  · rw [raiseNew_waits (s := s) (r := ⟨id, v, .display, d, s.now, false, none, none⟩) rfl hidden]
    exact ⟨_, insertById_self _ _, rfl, rfl, rfl, rfl, escalates_new, rfl⟩
  · rw [raiseNew_joins (s := s) (r := ⟨id, v, .display, d, s.now, false, none, none⟩) rfl presented,
      offerQueue_room room, joinQueue_ntc]
    exact ⟨_, mem_insertQueue.2 (.inl rfl), rfl, rfl, rfl, rfl, (insertQueue_perm _ _).length_eq, rfl⟩

theorem requeued_length (h : Ordered s.ntc) (mem : r ∈ s.ntc.queue) (x : NoticeRecord) :
    (insertQueue x (withoutId r.id s.ntc.queue)).length = s.ntc.queue.length := by
  rw [(insertQueue_perm _ _).length_eq, (withoutId_perm h.once mem).length_eq, List.length_cons, List.length_cons]

/-- Settles O45: each operation by its case of the collections. -/
theorem newNoticePlaced : Obligations.NewNoticePlaced := by
  refine ⟨fun s id sv v c route d run listed value q p l => ?_, fun s u id sv v c route d run listed value ordered hu => ?_,
    fun s u id run ordered hu => ?_, fun s u r last run full found hu => ?_, fun s u run ordered hu => ?_,
    fun avail inh esc => ⟨rfl, rfl, rfl⟩, fun s id sv d => ⟨fun out => ?_, fun out => ?_⟩⟩
  · obtain ⟨onLocal, waits, joins⟩ := newNotice_placed (d := d) sv c route run listed value q p l
    exact ⟨onLocal, waits, joins, _, rfl, framed (raiseNotice_touches s id sv d)⟩
  · have h := (noticesOrdered_iff s).1 ordered
    rw [hu]
    refine ⟨fun r q => ?_, fun r p => ?_, fun r l => ?_⟩
    · obtain ⟨mem, rfl⟩ := findId_mem q
      rw [raiseNotice_queued run listed q, ← value]
      refine ⟨raiseQueued_low_ntc, fun high => ?_, raiseQueued_offers run⟩
      rw [raiseQueued_high_ntc high]
      exact ⟨requeued_length h mem _, rfl, _, mem_insertQueue.2 (.inl rfl), rfl, rfl, rfl, rfl⟩
    · obtain ⟨mem, rfl⟩ := findId_mem p
      have q := findId_absent fun x hx => h.queuePending x hx r mem
      rw [raiseNotice_pending run listed q p, ← value]
      refine ⟨fun low => ?_, raisePending_high_held h mem⟩
      rw [raisePending_low low]
      exact ⟨rfl, rfl, rfl, insertById_self (detailed r d) _⟩
    · obtain ⟨mem, rfl⟩ := findId_mem l
      have q := findId_absent fun x hx => h.queueLocal x hx r mem
      have p := findId_absent fun x hx => h.pendingLocal x hx r mem
      rw [raiseNotice_local run listed q p l, ← value]
      exact ⟨raiseLocal_link s r v d, raiseLocal_held s r v d⟩
  · have h := (noticesOrdered_iff s).1 ordered
    rw [hu]
    refine ⟨clearNotice_gone run h, fun none => ?_, fun x mem other => clearNotice_keeps h mem other,
      clearNotice_unqueued_link, fun queued none => clearNotice_offers run queued none⟩
    obtain ⟨q, p, l⟩ := absent_iff.1 none
    exact clearNotice_absent (findId_absent q) (findId_absent p) (findId_absent l)
  · have notRoom : ¬ s.ntc.queue.length < 8 := by omega
    rw [hu]
    refine ⟨fun high => ?_, fun low => ?_⟩
    · rw [offerQueue_displaces notRoom found high]
      obtain ⟨sameId, severity, sound, start⟩ := asWaiting_facts s.now last
      refine ⟨?_, ?_, ?_, displaced_offers run⟩ <;> rw [joinQueue_ntc, displaced_ntc]
      · show (insertQueue _ _).length = 8
        rw [(insertQueue_perm _ _).length_eq, List.length_cons, List.length_dropLast, full]
      · exact ⟨_, mem_insertQueue.2 (.inl rfl), rfl, rfl, rfl⟩
      · exact ⟨_, insertById_self _ _, sameId, severity, sound, start⟩
    · rw [offerQueue_waits notRoom found (Nat.not_lt.2 low)]
      exact ⟨rfl, rfl, rfl, _, insertById_self _ _, rfl, rfl, rfl⟩
  · have h := (noticesOrdered_iff s).1 ordered
    rw [hu]
    refine ⟨pass_settles h, pass_idle, fun x hx => ?_, pass_locals s, framed (pass_touches s)⟩
    have shows := (pass_shown h).mem_iff.2 (mem_shown.2 ⟨x, List.mem_append.1 hx, rfl⟩)
    obtain ⟨y, place, e⟩ := mem_shown.1 shows
    obtain ⟨sameId, severity, -, detail, raised, -⟩ := core_eq e
    exact ⟨y, List.mem_append.2 place, sameId, severity, detail, raised⟩
  · rcases out with out | unlisted
    · exact raiseNotice_out (by rw [← Bool.not_eq_true, inRun_iff]; exact out) id sv d
    · exact raiseNotice_unlisted unlisted sv d
  · exact clearNotice_out (by rw [← Bool.not_eq_true, inRun_iff]; exact out) id

end Sys2Proof.Laws
end

section
/-! NOTICE_INHIBIT, NOTICE_ACK and SILENCE in RUN (R157, R164, R172). -/

namespace Sys2Proof.Laws

open Sys2Proof.Machine Relation

-- Many short proofs at once would each hold a thread of the checking process.
set_option Elab.async false

variable {s t : State} {r : NoticeRecord} {id : Nat}

/-! ## Notices leave class URGENT alone -/

theorem offerFrame_class_ne (node : NodeState) {cls c : TxClass} (f : TxFrame) (l : LinkUnit) (h : c ≠ cls) :
    classOf (offerFrame node cls f l).1 c = classOf l c := by
  obtain ⟨n, e⟩ | ⟨g, -, -, -, -, e⟩ | ⟨-, e⟩ | ⟨-, e⟩ := offerFrame_cases node cls f l
  · rw [e]; cases c <;> rfl
  · rw [e]; cases c <;> rfl
  · rw [e, classOf_setClass_ne _ _ h]
  · rw [e]
    obtain ⟨-, e⟩ | ⟨-, n, e⟩ := joinClass_cases cls f l
    · rw [e, classOf_setClass_ne _ _ h]
    · rw [e, classOf_setClass_ne _ _ h, classOf_setClass_ne _ _ h]
      cases c <;> rfl

theorem offerNotice_urgent (s : State) (r : NoticeRecord) : (s.offerNotice r).link.urgent = s.link.urgent :=
  offerFrame_class_ne (cls := .normal) (c := .urgent) _ _ _ (by decide)

theorem offerCleared_urgent (s : State) (id cause : Nat) : (s.offerCleared id cause).link.urgent = s.link.urgent :=
  offerFrame_class_ne (cls := .normal) (c := .urgent) _ _ _ (by decide)

theorem joinQueue_urgent (s : State) (r : NoticeRecord) : (s.joinQueue r).link.urgent = s.link.urgent := by
  unfold State.joinQueue
  dsimp only
  rw [placeSound_link, offerNotice_urgent]
  rfl

theorem displaced_urgent (s : State) (last : NoticeRecord) : (displaced s last).link.urgent = s.link.urgent := by
  unfold displaced
  show ((State.withdrawSound _ _).offerCleared _ _).link.urgent = _
  rw [offerCleared_urgent, withdrawSound_link]
  rfl

theorem offerQueue_urgent (s : State) (r : NoticeRecord) : (s.offerQueue r).link.urgent = s.link.urgent := by
  by_cases room : s.ntc.queue.length < 8
  · rw [offerQueue_room room, joinQueue_urgent]
  · obtain ⟨last, found⟩ := full_last room
    by_cases high : last.severity.rank < r.severity.rank
    · rw [offerQueue_displaces room found high, joinQueue_urgent, displaced_urgent]
    · rw [offerQueue_waits room found high]
      rfl

theorem pass_urgent (s : State) : s.pass.link.urgent = s.link.urgent :=
  pass_keeps (P := fun u => u.link.urgent = s.link.urgent)
    (fun u r hu _ => (offerQueue_urgent (u.onNtc fun n => { n with pending := withoutId r.id n.pending }) r).trans hu) rfl

/-! ## A change of conditions -/

/-- The method re-applied to every pending record changes the pending set alone. -/
theorem reapplyAll_frame (rs : List NoticeRecord) (s : State) : (rs.foldl State.reapply s).ntc
    = { s.ntc with pending := (rs.foldl State.reapply s).ntc.pending } := by
  induction rs generalizing s with
  | nil => rfl
  | cons r rs ih =>
    have first : (s.reapply r).ntc = { s.ntc with pending := (s.reapply r).ntc.pending } := by rw [reapply_ntc]
    have rest := ih (s.reapply r)
    rw [first] at rest
    exact rest

theorem conditionsChanged_frame (s : State) : s.conditionsChanged.ntc
    = { s.ntc with queue := s.conditionsChanged.ntc.queue, pending := s.conditionsChanged.ntc.pending } := by
  have passed := pass_frame (s.ntc.pending.foldl State.reapply s)
  rw [reapplyAll_frame] at passed
  exact passed

/-- A change of conditions that is none to the method changes the conditions alone. -/
theorem setConditions_same {f : Ntc → Ntc} (inhibited : (f s.ntc).inhibited = s.ntc.inhibited)
    (available : (f s.ntc).displayAvailable = s.ntc.displayAvailable) : s.setConditions f = s.onNtc f :=
  if_pos ⟨inhibited, available⟩

theorem setConditions_changed {f : Ntc → Ntc} (h : (f s.ntc).inhibited ≠ s.ntc.inhibited
    ∨ (f s.ntc).displayAvailable ≠ s.ntc.displayAvailable) : s.setConditions f = (s.onNtc f).conditionsChanged :=
  if_neg fun k => h.elim (fun ne => ne k.1) fun ne => ne k.2

/-- Beside the conditions a change of them moves records between the queue and the pending set (R162). -/
theorem setConditions_frame (s : State) (f : Ntc → Ntc) : (s.setConditions f).ntc
    = { f s.ntc with queue := (s.setConditions f).ntc.queue, pending := (s.setConditions f).ntc.pending } := by
  by_cases same : (f s.ntc).inhibited = s.ntc.inhibited ∧ (f s.ntc).displayAvailable = s.ntc.displayAvailable
  · rw [setConditions_same same.1 same.2]
    rfl
  · rw [setConditions_changed (by tauto)]
    exact conditionsChanged_frame (s.onNtc f)

/-! ## NOTICE_INHIBIT -/

section
variable {i : SettingItem} (run : s.cfg.node = .run) (h : s.itemFor 0x28 = some i)
include run h

theorem noticeInhibit_eq {x : SettingResult} {on : Bool} (decided : decideInhibit true s.ntc.operatorInhibit i.value = (x, on)) :
    execNoticeInhibit s
      = .next ((s.takeItem.setConditions fun n => { n with operatorInhibit := on }).respond i x (some (bit on)) none none) := by
  unfold execNoticeInhibit
  rw [h, (inRun_iff s).2 run]
  dsimp only
  rw [decided]

end

/-- The operator inhibit set, and the item answered. -/
theorem inhibitSet_facts {i : SettingItem} (run : s.cfg.node = .run) (on : Bool) (x : SettingResult) (a : Option Int)
    (ht : t = (s.takeItem.setConditions fun n => { n with operatorInhibit := on }).respond i x a none none) :
    t.ntc.operatorInhibit = on ∧ ItemAnswered t i x a none none ∧ t.ntc.busyInhibit = s.ntc.busyInhibit
      ∧ t.ntc.locals = s.ntc.locals ∧ t = { s with ntc := t.ntc, snd := t.snd, link := t.link } := by
  obtain ⟨u, hu⟩ : ∃ u, u = s.takeItem.setConditions fun n => { n with operatorInhibit := on } := ⟨_, rfl⟩
  have touched : Touches noticeBlocks s u := hu ▸ ((takeItem_touches s).mono rfl).trans (setConditions_touches _ _)
  have conditions : u.ntc = { s.ntc with operatorInhibit := on, queue := u.ntc.queue, pending := u.ntc.pending } := by
    have frame := setConditions_frame s.takeItem fun n => { n with operatorInhibit := on }
    rw [← hu, (takeItem_touches s).ntc rfl] at frame
    exact frame
  rw [← hu] at ht
  have ntc : t.ntc = u.ntc := by rw [ht, (respond_touches _ _ _ _ _ _).ntc rfl]
  rw [ntc, conditions]
  refine ⟨rfl, ?_, rfl, rfl, ?_⟩
  · rw [ht]
    refine respond_answered (takesOffer_run ?_) i _ _ _ _
    rw [touched.cfg rfl]
    exact run
  · rw [← conditions, ← ntc, ht]
    exact framed (touched.trans ((respond_touches u i x a none none).mono rfl))

/-- The held inhibit set again is the item taken. -/
theorem inhibitHeld (s : State) : (s.takeItem.setConditions fun n => { n with operatorInhibit := s.ntc.operatorInhibit }) = s.takeItem := by
  rw [setConditions_same (by rw [(takeItem_touches s).ntc rfl]) rfl]
  unfold State.onNtc
  rw [(takeItem_touches s).ntc rfl, ← (takeItem_touches s).ntc rfl]

/-! ## NOTICE_ACK -/

/-- The queue left by an acknowledged record, its sound withdrawn (R164). -/
def acked (s : State) (r : NoticeRecord) : State :=
  (s.onNtc fun n => { n with queue := withoutId r.id n.queue }).withdrawSound r

theorem acked_ntc (s : State) (r : NoticeRecord) : (acked s r).ntc = { s.ntc with queue := withoutId r.id s.ntc.queue } :=
  withdrawSound_ntc _ _

theorem acked_touches (s : State) (r : NoticeRecord) : Touches noticeBlocks s (acked s r) :=
  (ntc_touches s _).trans (withdrawSound_touches _ _)

theorem acked_link (s : State) (r : NoticeRecord) : (acked s r).link = s.link := withdrawSound_link _ _

theorem acknowledge_queued {n : Int} (h : s.ntc.queued n = some r) : s.acknowledge n =
    (if 0x01 ≤ r.id ∧ r.id ≤ 0x10 then (acked s r).ackItem r.id else acked s r).pass := by
  unfold State.acknowledge
  rw [h]
  rfl

theorem acknowledge_ignored {n : Int} (h : s.ntc.queued n = none) :
    s.acknowledge n = s.onNtc fun n => { n with ignoredAcks := sat16 n.ignoredAcks } := by
  unfold State.acknowledge
  rw [h]

/-- Before its pass an acknowledgement leaves NTC without the record, and SVC with the item's re-remind time (R146, R164). -/
theorem acknowledge_before (s : State) (r : NoticeRecord) {u : State}
    (hu : u = if 0x01 ≤ r.id ∧ r.id ≤ 0x10 then (acked s r).ackItem r.id else acked s r) :
    u.ntc = { s.ntc with queue := withoutId r.id s.ntc.queue } ∧ u.link = s.link
      ∧ Touches { svc := true, ntc := true, snd := true, link := true } s u
      ∧ (1 ≤ r.id → r.id ≤ 16 → u.svc = { s.svc with items := s.svc.items.map fun x =>
          if x.config.number = r.id ∧ (x.state = .due ∨ x.state = .overdue) then
            { x with remind := some s.img.service.remind.toNat } else x })
      ∧ ((r.id < 1 ∨ 16 < r.id) → u.svc = s.svc) := by
  have svc := (acked_touches s r).svc rfl
  have image := (acked_touches s r).image rfl
  split at hu
  · rename_i service
    rw [hu]
    refine ⟨acked_ntc s r, acked_link s r, ((acked_touches s r).mono rfl).trans ((onSvc_touches _ _).mono rfl), fun _ _ => ?_,
      fun out => by omega⟩
    have e : ((acked s r).ackItem r.id).svc = { (acked s r).svc with items := (acked s r).svc.items.map fun x =>
        if x.config.number = r.id ∧ (x.state = .due ∨ x.state = .overdue) then
          { x with remind := some (acked s r).img.service.remind.toNat } else x } := rfl
    rw [e, svc]
    unfold State.img
    rw [image]
  · rename_i other
    rw [hu]
    exact ⟨acked_ntc s r, acked_link s r, (acked_touches s r).mono rfl, fun low high => absurd ⟨low, high⟩ other, fun _ => svc⟩

theorem noticeAck_eq {i : SettingItem} (run : s.cfg.node = .run) (h : s.itemFor 0x29 = some i) :
    execNoticeAck s = .next (s.takeItem.acknowledge i.value) := by
  unfold execNoticeAck
  rw [h, (inRun_iff s).2 run]
  rfl

/-! ## SILENCE -/

theorem sndPlayTop_waiting (now : Ms) (d : Snd) : (sndPlayTop now d).waiting = d.waiting := by
  unfold sndPlayTop
  split <;> rfl

/-- After a turn nothing waits (R170). -/
theorem sndTurn_waiting (now : Ms) (d : Snd) : (sndTurn now d).waiting = none := by
  unfold sndTurn
  split
  · rename_i none
    rw [sndPlayTop_waiting, none]
  · dsimp only
    split
    · rw [sndPlayTop_waiting]; rfl
    · rfl

theorem sndSettle_waiting (now : Ms) (d : Snd) {o : OneShot} (h : (sndSettle now d).waiting = some o) :
    d.waiting = some o := by
  unfold sndSettle at h
  split at h
  · rw [sndTurn_waiting] at h; cases h
  · split at h
    · rw [sndTurn_waiting] at h; cases h
    · exact h
  · split at h
    · rw [sndTurn_waiting] at h; cases h
    · split at h
      · exact h
      split at h
      · exact h
      · rw [sndTurn_waiting] at h; cases h

/-- The sounder with the silence timer started and a muted waiting one-shot dropped (R172). -/
def hushed (now : Ms) (d : Snd) : Snd :=
  match d.waiting with
  | some o => if 3 ≤ o.cls then sndDrop { d with silence := some (after now 30000), waiting := none }
    else { d with silence := some (after now 30000) }
  | none => { d with silence := some (after now 30000) }

/-- What plays ends where it is a muted one-shot, and else the sounder settles (R172). -/
def unmutedTurn (now : Ms) (d : Snd) : Snd :=
  match d.playing with
  | .oneShot o _ => if 3 ≤ o.cls then sndTurn now { d with playing := .nothing } else d
  | _ => sndSettle now d

theorem sndSilence_eq (now : Ms) (d : Snd) : sndSilence now d = unmutedTurn now (hushed now d) := by
  unfold sndSilence unmutedTurn hushed
  cases d.waiting <;> rfl

/-- After SILENCE what plays has its turn, or the sounder settles. -/
theorem sndSilence_cases (now : Ms) (d : Snd) : sndSilence now d = sndTurn now { hushed now d with playing := .nothing }
    ∨ sndSilence now d = hushed now d ∨ sndSilence now d = sndSettle now (hushed now d) := by
  rw [sndSilence_eq]
  unfold unmutedTurn
  split
  · split
    · exact .inl rfl
    · exact .inr (.inl rfl)
  · exact .inr (.inr rfl)

theorem hushed_facts (now : Ms) (d : Snd) : (hushed now d).silence = some (after now 30000)
    ∧ (∀ o, (hushed now d).waiting = some o → o.cls ≤ 2) ∧ (hushed now d).class1 = d.class1
    ∧ (hushed now d).class2 = d.class2 ∧ (hushed now d).class3 = d.class3 ∧ (hushed now d).class4 = d.class4 := by
  unfold hushed
  split
  · rename_i o waits
    split
    · exact ⟨rfl, fun o h => (by cases h), rfl, rfl, rfl, rfl⟩
    · rename_i low
      refine ⟨rfl, fun o' h => ?_, rfl, rfl, rfl, rfl⟩
      obtain rfl : o = o' := Option.some.inj (waits.symm.trans h)
      omega
  · rename_i none
    exact ⟨rfl, fun o h => (by cases none.symm.trans h), rfl, rfl, rfl, rfl⟩

theorem sndSilence_facts (now : Ms) (d : Snd) : (sndSilence now d).silence = some (after now 30000)
    ∧ (∀ o, (sndSilence now d).waiting = some o → o.cls ≤ 2) ∧ (sndSilence now d).class1 = d.class1
    ∧ (sndSilence now d).class2 = d.class2 ∧ (sndSilence now d).class3 = d.class3 ∧ (sndSilence now d).class4 = d.class4 := by
  obtain ⟨silence, waits, class1, class2, class3, class4⟩ := hushed_facts now d
  obtain e | e | e := sndSilence_cases now d <;> rw [e]
  · have slots := sndTurn_slots now { hushed now d with playing := .nothing }
    refine ⟨slots.silence.trans silence, fun o h => ?_, slots.class1.trans class1, slots.class2.trans class2,
      slots.class3.trans class3, slots.class4.trans class4⟩
    rw [sndTurn_waiting] at h
    cases h
  · exact ⟨silence, waits, class1, class2, class3, class4⟩
  · have slots := sndSettle_slots now (hushed now d)
    exact ⟨slots.silence.trans silence, fun o h => waits o (sndSettle_waiting now _ h), slots.class1.trans class1,
      slots.class2.trans class2, slots.class3.trans class3, slots.class4.trans class4⟩

theorem sound_run (run : s.cfg.node = .run) (f : Ms → Snd → Snd) : s.sound f = s.onSnd (f s.now) :=
  if_pos ((inRun_iff s).2 run)

/-! ## The statement -/

/-- Settles O44: item by item. -/
theorem noticeItems : Obligations.NoticeItems := by
  refine ⟨fun s i run h => ?_, fun s i run h ordered => ?_, fun s i run h => ?_⟩
  · by_cases known : i.value = 0 ∨ i.value = 1
    · have decided : decideInhibit true s.ntc.operatorInhibit i.value = (.accepted, decide (i.value = 1)) := by
        rcases known with e | e <;> rw [e] <;> rfl
      have value : ((bit (decide (i.value = 1)) : Nat) : Int) = i.value := by rcases known with e | e <;> rw [e] <;> rfl
      have done := noticeInhibit_eq run h decided
      rw [value] at done
      obtain ⟨inhibit, answered, busy, locals, frame⟩ := inhibitSet_facts (i := i) run _ .accepted (some i.value) rfl
      refine ⟨_, done, fun e => ?_, fun e => ?_, fun _ => rfl, fun ne ne' => absurd known (by tauto), busy, locals, frame⟩
      · exact ⟨inhibit.trans (by rw [e]; rfl), e ▸ answered⟩
      · exact ⟨inhibit.trans (by rw [e]; rfl), e ▸ answered⟩
    · have decided : decideInhibit true s.ntc.operatorInhibit i.value = (.refused .range, s.ntc.operatorInhibit) := by
        unfold decideInhibit
        rw [if_neg (by decide), if_neg (by tauto), if_neg (by tauto)]
      have done := noticeInhibit_eq run h decided
      obtain ⟨-, answered, busy, locals, frame⟩ :=
        inhibitSet_facts (i := i) run s.ntc.operatorInhibit (.refused .range) (some (bit s.ntc.operatorInhibit)) rfl
      refine ⟨_, done, fun e => absurd (.inl e) known, fun e => absurd (.inr e) known, fun k => absurd k known,
        fun _ _ => ⟨?_, ?_, ?_⟩, busy, locals, frame⟩
      · rw [inhibitHeld, (respond_touches _ _ _ _ _ _).ntc rfl, (takeItem_touches s).ntc rfl]
      · rw [inhibitHeld, (respond_touches _ _ _ _ _ _).snd rfl, (takeItem_touches s).snd rfl]
      · have value : ((bit s.ntc.operatorInhibit : Nat) : Int) = if s.ntc.operatorInhibit then 1 else 0 := by
          cases s.ntc.operatorInhibit <;> rfl
        rw [← value]
        exact answered
  · have taken := takeItem_touches s
    have ordered' : Ordered s.takeItem.ntc := by
      rw [taken.ntc rfl]
      exact (noticesOrdered_iff s).1 ordered
    have frame : Touches { svc := true, ntc := true, snd := true, link := true } s s.takeItem := taken.mono rfl
    cases found : s.ntc.queued i.value with
    | some r =>
      have found' : s.takeItem.ntc.queued i.value = some r := by rw [taken.ntc rfl]; exact found
      have mem : r ∈ s.takeItem.ntc.queue := List.mem_of_find?_eq_some found'
      obtain ⟨u, hu⟩ : ∃ u, u = if 0x01 ≤ r.id ∧ r.id ≤ 0x10 then (acked s.takeItem r).ackItem r.id else acked s.takeItem r :=
        ⟨_, rfl⟩
      obtain ⟨ntc, link, touched, service, other⟩ := acknowledge_before s.takeItem r hu
      have svc : u.pass.svc = u.svc := (pass_touches u).svc rfl
      rw [taken.svc rfl] at service other
      unfold State.img at service
      rw [taken.image rfl] at service
      refine ⟨u.pass, ?_, ?_, fun r' hr' => ?_, fun none => absurd none (by simp), ?_,
        framed ((frame.trans touched).trans ((pass_touches u).mono rfl))⟩
      · show execNoticeAck s = _
        rw [noticeAck_eq run h, acknowledge_queued found', hu]
      · rw [pass_urgent, link]
        rfl
      · obtain rfl : r = r' := Option.some.inj hr'
        have uOrdered : Ordered u.ntc := by
          rw [ntc]
          exact ordered'.sub (withoutId_sublist _ _) (.refl _) (.refl _)
        refine ⟨fun x hx same => ?_, ?_, fun low high => svc.trans (service low high), fun out => svc.trans (other out)⟩
        · have core_mem := (pass_cores uOrdered).mem_iff.1 (mem_cores.2 ⟨x, hx, rfl⟩)
          rw [ntc, ← ordered'.withoutQueued mem, mem_cores_without] at core_mem
          exact core_mem.2 same
        · rw [pass_frame, ntc, taken.ntc rfl]
      · rw [svc]
        by_cases range : 1 ≤ r.id ∧ r.id ≤ 16
        · rw [service range.1 range.2]
        · rw [other (by omega)]
    | none =>
      have found' : s.takeItem.ntc.queued i.value = none := by rw [taken.ntc rfl]; exact found
      refine ⟨s.takeItem.onNtc fun n => { n with ignoredAcks := sat16 n.ignoredAcks }, ?_, rfl, fun _ some => absurd some (by simp), fun _ => ⟨?_, rfl, rfl⟩, rfl,
        framed (frame.trans ((onNtc_touches _ _).mono rfl))⟩
      · show execNoticeAck s = _
        rw [noticeAck_eq run h, acknowledge_ignored found']
      · rw [onNtc_ntc, taken.ntc rfl]
        rfl
  · have node : s.takeItem.cfg.node = .run := by rw [(takeItem_touches s).cfg rfl]; exact run
    have now : s.takeItem.now = s.now := (takeItem_touches s).now rfl
    have snd : (s.takeItem.sound sndSilence).snd = sndSilence s.now s.snd := by
      rw [sound_run node, onSnd_snd, now, (takeItem_touches s).snd rfl]
    have responded : ((s.takeItem.sound sndSilence).respond i .accepted none none none).snd = sndSilence s.now s.snd :=
      ((respond_touches _ _ _ _ _ _).snd rfl).trans snd
    obtain ⟨silence, waits, class1, class2, class3, class4⟩ := sndSilence_facts s.now s.snd
    refine ⟨(s.takeItem.sound sndSilence).respond i .accepted none none none, ?_, ?_⟩
    · show execSilence s = _
      unfold execSilence
      rw [h, (inRun_iff s).2 run]
      rfl
    rw [responded]
    refine ⟨silence, waits, ?_, ?_, class1, class2, class3, class4⟩
    · refine respond_answered (takesOffer_run ?_) i _ _ _ _
      rw [(sound_touches _ _).cfg rfl]
      exact node
    · rw [← responded]
      exact framed (b := { snd := true, link := true }) ((((takeItem_touches s).mono rfl).trans
        ((sound_touches _ _).mono rfl)).trans ((respond_touches _ _ _ _ _ _).mono rfl))

end Sys2Proof.Laws
end

section
/-! The conditions of NTC, the method re-applied, and the timers of NTC and of the sounder (R158, R162, R163, R168 to R172). -/

namespace Sys2Proof.Laws

open Sys2Proof.Machine Relation

-- Many short proofs at once would each hold a thread of the checking process.
set_option Elab.async false

variable {s t : State} {r : NoticeRecord} {id : Nat}

/-! ## Conditions -/

/-- What a change of conditions leaves (R162). -/
theorem setConditions_facts {u : State} {f : Ntc → Ntc} (hu : u = s.setConditions f) :
    u.ntc.settleTimer = (f s.ntc).settleTimer ∧ u.ntc.busyInhibit = (f s.ntc).busyInhibit
      ∧ u.ntc.operatorInhibit = (f s.ntc).operatorInhibit ∧ u.ntc.displayAvailable = (f s.ntc).displayAvailable
      ∧ u.ntc.locals = (f s.ntc).locals ∧ u = { s with ntc := u.ntc, snd := u.snd, link := u.link } := by
  have frame := setConditions_frame s f
  rw [← hu] at frame
  have touched := setConditions_touches s f
  rw [← hu] at touched
  refine ⟨?_, ?_, ?_, ?_, ?_, framed touched⟩ <;> rw [frame]

theorem takeTimestamp_plain (h : s.img.notices.busyFlag = false) : s.takeTimestamp = s := by
  unfold State.takeTimestamp
  rw [h]
  rfl

section
variable (busy : s.img.notices.busyFlag = true)
include busy

theorem takeTimestamp_working (h : s.eco.neutralSince = none) :
    s.takeTimestamp = s.setConditions fun n => { n with settleTimer := none, busyInhibit := true } := by
  unfold State.takeTimestamp
  rw [busy, h]
  rfl

theorem takeTimestamp_settled {m : Ms} (h : s.eco.neutralSince = some m) (past : reached s.now (after m 2000) = true) :
    s.takeTimestamp = s.setConditions fun n => { n with settleTimer := none, busyInhibit := false } := by
  unfold State.takeTimestamp
  rw [busy, h]
  exact if_pos past

theorem takeTimestamp_settling {m : Ms} (h : s.eco.neutralSince = some m) (ahead : reached s.now (after m 2000) = false) :
    s.takeTimestamp = s.setConditions fun n => { n with settleTimer := some (after m 2000), busyInhibit := true } := by
  unfold State.takeTimestamp
  rw [busy, h]
  have not : ¬ reached s.now (after m 2000) = true := by rw [ahead]; decide
  exact if_neg not

end

/-- The lever-neutral timestamp formed at a time (R119). -/
def neutralAt (s : State) (d : Ms) : Option Ms :=
  if s.neutral then (if s.eco.neutralSince.isSome then s.eco.neutralSince else some d) else none

theorem formNeutral_eq (s : State) (d : Ms) : s.formNeutral d = if neutralAt s d = s.eco.neutralSince
    then s.onEco fun e => { e with neutralSince := neutralAt s d }
    else (s.onEco fun e => { e with neutralSince := neutralAt s d }).takeTimestamp := by
  unfold State.formNeutral neutralAt
  cases s.eco.neutralSince <;> rfl

/-- A timestamp that stays changes nothing; another is handed to NTC (R158). -/
theorem formNeutral_cases (s : State) (d : Ms) {e : Eco} (he : e = { s.eco with neutralSince := neutralAt s d }) :
    (e = s.eco → s.formNeutral d = s) ∧ (e ≠ s.eco → s.formNeutral d = State.takeTimestamp { s with eco := e }) := by
  rw [he, formNeutral_eq]
  by_cases same : neutralAt s d = s.eco.neutralSince
  · have kept : ({ s.eco with neutralSince := neutralAt s d } : Eco) = s.eco := by rw [same]
    rw [if_pos same]
    refine ⟨fun e => ?_, fun ne => absurd kept ne⟩
    show { s with eco := { s.eco with neutralSince := neutralAt s d } } = s
    rw [e]
  · rw [if_neg same]
    exact ⟨fun e => absurd (congrArg Eco.neutralSince e) same, fun _ => rfl⟩

/-! ## The method re-applied -/

/-- A pending record with the sound of the method that now applies (R162). -/
def sounded (n : Ntc) (x : NoticeRecord) : NoticeRecord := { x with sound := n.pendingSound x }

/-- The records with their sounds re-applied up to a place in the order of ids. -/
theorem reapplyAll_ntc (done rest : List NoticeRecord) (s : State)
    (h : s.ntc.pending = done.map (sounded s.ntc) ++ rest)
    (order : InIdOrder (done ++ rest)) : (rest.foldl State.reapply s).ntc
      = { s.ntc with pending := (done ++ rest).map (sounded s.ntc) } := by
  induction rest generalizing done s with
  | nil =>
    rw [List.append_nil] at h ⊢
    show s.ntc = _
    rw [← h]
  | cons r rest ih =>
    have others : ∀ x ∈ done ++ rest, x.id ≠ r.id := by
      obtain ⟨-, above, below⟩ := List.pairwise_append.1 order
      intro x hx
      rcases List.mem_append.1 hx with before | later
      · exact Nat.ne_of_lt (below x before r (List.mem_cons_self ..))
      · exact (Nat.ne_of_lt (List.rel_of_pairwise_cons above later)).symm
    have turned : (s.reapply r).ntc = { s.ntc with pending := (done ++ [r]).map (sounded s.ntc) ++ rest } := by
      have changed : s.ntc.pending.map (fun x => if x.id = r.id then { x with sound := s.ntc.pendingSound r } else x)
          = (done ++ [r]).map (sounded s.ntc) ++ rest := by
        rw [h, List.map_append, List.map_append, List.map_cons, List.map_map, List.append_assoc]
        refine congrArg₂ (· ++ ·) (List.map_congr_left fun x hx => ?_) (congrArg₂ List.cons ?_ ?_)
        · exact if_neg (others x (List.mem_append_left _ hx))
        · exact if_pos rfl
        · exact (List.map_congr_left fun x hx => if_neg (others x (List.mem_append_right _ hx))).trans (List.map_id _)
      rw [reapply_ntc, ← changed]
      split
      · rename_i held
        have kept : s.ntc.pending.map (fun x => if x.id = r.id then { x with sound := s.ntc.pendingSound r } else x)
            = s.ntc.pending := by
          rw [changed, h, List.map_append, List.append_assoc]
          refine congrArg (List.map (sounded s.ntc) done ++ ·) (congrArg (· :: rest) ?_)
          unfold sounded
          rw [held]
        rw [kept]
      · rfl
    have step := ih (done ++ [r]) (s.reapply r) (by rw [turned]; rfl) (by rw [List.append_assoc]; exact order)
    rw [List.foldl_cons, step, turned, List.append_assoc]
    rfl

theorem class4Insert_mem (id : Nat) (p : Sustained) : ∀ es : List (Nat × Sustained), (id, p) ∈ class4Insert id p es
  | [] => by simp [class4Insert]
  | e :: es => by
    unfold class4Insert
    split
    · exact List.mem_cons_of_mem _ (class4Insert_mem id p es)
    split <;> exact List.mem_cons_self ..

theorem sndNotice_sustained (now : Ms) (id : Nat) (d : Snd) :
    (id, Sustained.cadence500) ∈ (sndNotice now id .cadence500 d).class4
      ∧ (id, Sustained.continuous) ∈ (sndNotice now id .continuous d).class4 := by
  unfold sndNotice
  dsimp only
  rw [(sndSettle_slots now { d with class4 := class4Insert id .cadence500 d.class4 }).class4,
    (sndSettle_slots now { d with class4 := class4Insert id .continuous d.class4 }).class4]
  exact ⟨class4Insert_mem id _ _, class4Insert_mem id _ _⟩

/-- A withdrawn notice asks for no sustained sound (R169). -/
theorem sndNoticeWithdraw_class4 (now : Ms) (id : Nat) (d : Snd) : ∀ x ∈ (sndNoticeWithdraw now id d).class4, x.1 ≠ id := by
  obtain ⟨u, hu⟩ : ∃ u : Snd, u = { d with
    class4 := d.class4.filter fun e => e.1 != id, waiting := d.waiting.filter fun o => !ofNotice id o } := ⟨_, rfl⟩
  have filtered : ∀ x ∈ u.class4, x.1 ≠ id := by
    rw [hu]
    exact fun x hx => by simpa using (List.mem_filter.1 hx).2
  have same : (sndNoticeWithdraw now id d).class4 = u.class4 := by
    unfold sndNoticeWithdraw
    dsimp only
    rw [← hu]
    split
    · split
      · exact (sndTurn_slots now _).class4.trans (by rw [hu])
      · exact (sndSettle_slots now u).class4
    · exact (sndSettle_slots now u).class4
  rw [same]
  exact filtered

theorem placeSound_some (run : s.cfg.node = .run) (id : Nat) (p : Pattern) :
    (s.placeSound id (some p)).snd = sndNotice s.now id p s.snd := by
  show (s.sound fun now d => sndNotice now id p d).snd = _
  rw [sound_run run, onSnd_snd]

theorem withdrawSound_some (run : s.cfg.node = .run) (h : r.sound ≠ none) :
    (s.withdrawSound r).snd = sndNoticeWithdraw s.now r.id s.snd := by
  obtain ⟨p, e⟩ := Option.ne_none_iff_exists'.1 h
  unfold State.withdrawSound
  rw [e]
  show (s.sound fun now d => sndNoticeWithdraw now r.id d).snd = _
  rw [sound_run run, onSnd_snd]

theorem reapply_changed {p : Option Pattern} (hp : p = s.ntc.pendingSound r) (changed : p ≠ r.sound) : s.reapply r =
    ((s.withdrawSound r).placeSound r.id p).onNtc fun n =>
      { n with pending := n.pending.map fun x => if x.id = r.id then { x with sound := p } else x } := by
  unfold State.reapply
  dsimp only
  rw [← hp, if_neg changed]

/-- The method re-applied to a pending record (R162). -/
theorem reapply_facts {u : State} {p : Option Pattern} (run : s.cfg.node = .run) (hu : u = s.reapply r)
    (hp : p = s.ntc.pendingSound r) : (p = r.sound → u = s)
      ∧ (p ≠ r.sound → u = { s with ntc := u.ntc, snd := u.snd }
        ∧ u.ntc = { s.ntc with pending := s.ntc.pending.map fun x => if x.id = r.id then { x with sound := p } else x }
        ∧ (p = some .cadence500 → (r.id, Sustained.cadence500) ∈ u.snd.class4)
        ∧ (p = some .continuous → (r.id, Sustained.continuous) ∈ u.snd.class4)
        ∧ (p = none → ∀ x ∈ u.snd.class4, x.1 ≠ r.id)) := by
  refine ⟨fun held => ?_, fun changed => ?_⟩
  · rw [hu]
    unfold State.reapply
    exact if_pos (hp ▸ held)
  · have e := hu.trans (reapply_changed hp changed)
    have node : (s.withdrawSound r).cfg.node = .run := by rw [(withdrawSound_touches s r).cfg rfl]; exact run
    have link : u.link = s.link := by rw [e]; exact (placeSound_link _ _ _).trans (withdrawSound_link _ _)
    have snd : u.snd = ((s.withdrawSound r).placeSound r.id p).snd := by rw [e]; rfl
    refine ⟨?_, ?_, fun some => ?_, fun some => ?_, fun none => ?_⟩
    · rw [← link]
      exact framed (hu ▸ reapply_touches s r)
    · rw [e, onNtc_ntc, placeSound_ntc, withdrawSound_ntc]
    · rw [snd, some, placeSound_some node]
      exact (sndNotice_sustained _ _ _).1
    · rw [snd, some, placeSound_some node]
      exact (sndNotice_sustained _ _ _).2
    · rw [snd, none]
      show ∀ x ∈ (s.withdrawSound r).snd.class4, x.1 ≠ r.id
      rw [withdrawSound_some run fun silent => changed (none.trans silent.symm)]
      exact sndNoticeWithdraw_class4 _ _ _

end Sys2Proof.Laws
end

section
/-! The timers of NTC and of the sounder, and the one-shots of the sounder (R158, R162, R163, R168 to R172). -/

namespace Sys2Proof.Laws

open Sys2Proof.Machine Relation

-- Many short proofs at once would each hold a thread of the checking process.
set_option Elab.async false

variable {s t : State} {r : NoticeRecord} {id : Nat} {now : Ms} {d : Snd} {o : OneShot}

/-! ## One-shots -/

theorem sndMuted_iff (d : Snd) (cls : Nat) : sndMuted d cls = true ↔ d.silence ≠ none ∧ 3 ≤ cls := by
  simp [sndMuted, Option.isSome_iff_ne_none]

theorem sndOutranked_iff (d : Snd) (cls : Nat) : sndOutranked d cls = true ↔ ∃ x ∈ sndLive d, x.1 < cls := by
  simp [sndOutranked, List.any_eq_true]

theorem sndPlaceOneShot_dropped (h : sndMuted d o.cls = true ∨ sndOutranked d o.cls = true) :
    sndPlaceOneShot now o d = { d with dropped := min 65535 (d.dropped + 1) } :=
  if_pos (by simpa using h)

section
variable (heard : sndMuted d o.cls = false) (ranked : sndOutranked d o.cls = false)
include heard ranked

theorem sndPlaceOneShot_waits {p : OneShot} {e : Ms} (plays : d.playing = .oneShot p e) (free : d.waiting = none) :
    sndPlaceOneShot now o d = { d with waiting := some o } := by
  unfold sndPlaceOneShot
  rw [heard, ranked, plays, free]
  rfl

theorem sndPlaceOneShot_full {p w : OneShot} {e : Ms} (plays : d.playing = .oneShot p e) (taken : d.waiting = some w) :
    sndPlaceOneShot now o d = { d with dropped := min 65535 (d.dropped + 1) } := by
  show sndPlaceOneShot now o d = sndDrop d
  unfold sndPlaceOneShot
  rw [heard, ranked, plays, taken]
  rfl

theorem sndPlaceOneShot_plays (free : ∀ p e, d.playing ≠ .oneShot p e) :
    sndPlaceOneShot now o d = { d with playing := .oneShot o (after now (if o.long then 300 else 80)) } := by
  show sndPlaceOneShot now o d = sndPlayOneShot now o d
  unfold sndPlaceOneShot
  rw [heard, ranked]
  cases plays : d.playing with
  | oneShot p e => exact absurd plays (free p e)
  | nothing | sustained => cases d.waiting <;> rfl

end

/-! ## Turns -/

theorem sndPlayTop_none (h : (sndLive d).head? = none) : sndPlayTop now d = { d with playing := .nothing } := by
  unfold sndPlayTop
  rw [h]

theorem sndPlayTop_some {x : Nat × Sustained} (h : (sndLive d).head? = some x) : sndPlayTop now d = sndStart now x d := by
  unfold sndPlayTop
  rw [h]

theorem sndStart_plays (x : Nat × Sustained) (d : Snd) : ∃ e, (sndStart now x d).playing = .sustained x.1 x.2 true e := ⟨_, rfl⟩

theorem sndPlayTop_dropped (now : Ms) (d : Snd) : (sndPlayTop now d).dropped = d.dropped := by
  unfold sndPlayTop
  split <;> rfl

/-- A request that outranks is live, so one plays at the turn. -/
theorem head_of_outranked {cls : Nat} (h : sndOutranked d cls = true) : ∃ x, (sndLive d).head? = some x := by
  obtain ⟨x, mem, -⟩ := (sndOutranked_iff d cls).1 h
  cases live : sndLive d with
  | nil => rw [live] at mem; exact absurd mem List.not_mem_nil
  | cons y ys => exact ⟨y, rfl⟩

/-- The sounder at the end of its one-shot: what waits has its turn, and else what is live (R170, R171). -/
theorem sndOneShotEnd_eq {e : Ms} (plays : d.playing = .oneShot o e) :
    sndOneShotEnd now d = sndTurn now { d with playing := .nothing } := by
  unfold sndOneShotEnd
  rw [plays]

theorem sndTurn_idle (h : d.waiting = none) : sndTurn now d = sndPlayTop now d := by
  unfold sndTurn
  rw [h]

theorem sndTurn_plays {w : OneShot} (h : d.waiting = some w) (ranked : sndOutranked d w.cls = false) :
    sndTurn now d = sndPlayOneShot now w { d with waiting := none } := by
  have kept : sndOutranked { d with waiting := none } w.cls = false := ranked
  unfold sndTurn
  rw [h]
  exact if_neg (by rw [kept]; decide)

theorem sndTurn_drops {w : OneShot} (h : d.waiting = some w) (outranked : sndOutranked d w.cls = true) :
    sndTurn now d = sndPlayTop now (sndDrop { d with waiting := none }) := by
  have kept : sndOutranked { d with waiting := none } w.cls = true := outranked
  unfold sndTurn
  rw [h]
  exact if_pos kept

theorem oneShotEnd_facts {e : Ms} (plays : d.playing = .oneShot o e) : (sndOneShotEnd now d).waiting = none
      ∧ (∀ w, d.waiting = some w → sndOutranked d w.cls = false →
          (sndOneShotEnd now d).playing = .oneShot w (after now (if w.long then 300 else 80))
          ∧ (sndOneShotEnd now d).dropped = d.dropped)
      ∧ (∀ w, d.waiting = some w → sndOutranked d w.cls = true →
          (sndOneShotEnd now d).dropped = min 65535 (d.dropped + 1)
          ∧ ∃ x, (sndLive d).head? = some x ∧ ∃ e, (sndOneShotEnd now d).playing = .sustained x.1 x.2 true e)
      ∧ (d.waiting = none → (sndOneShotEnd now d).dropped = d.dropped
          ∧ ((sndLive d).head? = none → (sndOneShotEnd now d).playing = .nothing)
          ∧ ∀ x, (sndLive d).head? = some x → ∃ e, (sndOneShotEnd now d).playing = .sustained x.1 x.2 true e) := by
  rw [sndOneShotEnd_eq plays]
  refine ⟨sndTurn_waiting _ _, fun w waits ranked => ?_, fun w waits outranked => ?_, fun free => ?_⟩
  · rw [sndTurn_plays (d := { d with playing := .nothing }) waits ranked]
    exact ⟨rfl, rfl⟩
  · obtain ⟨x, head⟩ := head_of_outranked outranked
    rw [sndTurn_drops (d := { d with playing := .nothing }) waits outranked]
    refine ⟨sndPlayTop_dropped _ _, x, head, ?_⟩
    rw [sndPlayTop_some (d := sndDrop { d with playing := .nothing, waiting := none }) head]
    exact sndStart_plays x _
  · rw [sndTurn_idle (d := { d with playing := .nothing }) free]
    refine ⟨sndPlayTop_dropped _ _, fun none => ?_, fun x head => ?_⟩
    · rw [sndPlayTop_none (d := { d with playing := .nothing }) none]
    · rw [sndPlayTop_some (d := { d with playing := .nothing }) head]
      exact sndStart_plays x _

/-! ## The phases of a cadence -/

theorem sndPhase_on {cls : Nat} {p : Sustained} {e : Ms} (plays : d.playing = .sustained cls p true (some e)) :
    sndPhase now d = { d with playing := .sustained cls p false ((phaseLength p false).map (after now)) } := by
  unfold sndPhase
  rw [plays]
  rfl

/-- The pattern of the next on-phase: an approach cadence takes the newest period (R168). -/
def nextPattern (p : Sustained) (class3 : Option Nat) : Sustained :=
  match p, class3 with
  | .approach _, some n => .approach n
  | _, _ => p

theorem sndPhase_off {cls : Nat} {p : Sustained} {e : Ms} (plays : d.playing = .sustained cls p false (some e)) :
    sndPhase now d = sndStart now (cls, nextPattern p d.class3) d := by
  unfold sndPhase
  rw [plays]
  rfl

/-! ## The commands -/

theorem sound_frame (s : State) (e : Ms) (f : Ms → Snd → Snd) :
    (s.arriveAt e).sound f = { s.arriveAt e with snd := ((s.arriveAt e).sound f).snd } :=
  framed (sound_touches _ _)

theorem sound_arrived (run : s.cfg.node = .run) (e : Ms) (f : Ms → Snd → Snd) :
    ((s.arriveAt e).sound f).snd = f (s.arriveAt e).now s.snd := by
  rw [sound_run (arriveAt_run run), onSnd_snd, arriveAt_snd]

theorem oneShotEnd_exec {e : Ms} (plays : s.snd.playing = .oneShot o e) :
    execOneShotEnd s = .next ((s.arriveAt e).sound sndOneShotEnd) := by
  unfold execOneShotEnd
  rw [plays]

theorem cadencePhaseExpiry_exec {cls : Nat} {p : Sustained} {on : Bool} {e : Ms}
    (plays : s.snd.playing = .sustained cls p on (some e)) :
    execCadencePhaseExpiry s = .next ((s.arriveAt e).sound fun _ => sndPhase e) := by
  unfold execCadencePhaseExpiry
  rw [plays]

/-- ESCALATION_TIMER_EXPIRY marks the record, which then stays pending or joins the queue (R163). -/
theorem escalation_facts {start : Ms} (ordered : Ordered s.ntc) (found : findId id s.ntc.pending = some r)
    (timer : r.escalationStart = some start) : ∃ t, execEscalationTimerExpiry id s = .next t
      ∧ t.now = (s.arriveAt (after start s.escalationMs)).now
      ∧ (∃ x, x ∈ t.ntc.queue ++ t.ntc.pending ∧ x.id = id ∧ x.escalated = true)
      ∧ t.ntc.locals = s.ntc.locals ∧ t.ntc.operatorInhibit = s.ntc.operatorInhibit
      ∧ t = { s.arriveAt (after start s.escalationMs) with ntc := t.ntc, snd := t.snd, link := t.link } := by
  obtain ⟨mem, same⟩ := findId_mem found
  obtain ⟨u, hu⟩ : ∃ u, u = (s.arriveAt (after start s.escalationMs)).pend { r with escalated := true, escalationStart := none } :=
    ⟨_, rfl⟩
  have ntc : u.ntc = { s.ntc with
      pending := insertById { r with escalated := true, escalationStart := none } s.ntc.pending } := by
    rw [hu, State.pend, onNtc_ntc, arriveAt_ntc]
  have uOrdered : Ordered u.ntc := by
    rw [ntc]
    exact pend_ordered (s := s) (x := { r with escalated := true, escalationStart := none }) ordered mem rfl
  have touched : Touches noticeBlocks (s.arriveAt (after start s.escalationMs)) u.pass :=
    (hu ▸ pend_touches _ _ : Touches noticeBlocks _ u).trans (pass_touches u)
  have shows : core { r with escalated := true, escalationStart := none } ∈ shown u.ntc := by
    rw [ntc]
    exact mem_shown.2 ⟨_, .inr (insertById_self _ _), rfl⟩
  obtain ⟨x, place, e⟩ := mem_shown.1 ((pass_shown uOrdered).mem_iff.2 shows)
  obtain ⟨xId, -, -, -, -, escalated⟩ := core_eq e
  refine ⟨u.pass, ?_, touched.now rfl, ⟨x, List.mem_append.2 place, xId.trans same, escalated⟩, ?_, ?_, framed touched⟩
  · unfold execEscalationTimerExpiry
    rw [found]
    dsimp only
    rw [timer, hu]
  · rw [pass_locals, ntc]
  · rw [pass_frame, ntc]

/-- Settles O46: timer by timer. -/
theorem noticeAndSounderTimers : Obligations.NoticeAndSounderTimers := by
  refine ⟨fun s d timer => ?_, fun s u hu => ?_, fun s d e he => formNeutral_cases s d he, fun s e a c run role => ?_, rfl,
    fun s u f hu => ?_, fun _ => rfl, fun s ordered => ?_, fun s u r p run hu hp => reapply_facts run hu hp, ?_,
    fun now o d => ?_, fun s id r start ordered found timer => escalation_facts ((noticesOrdered_iff s).1 ordered) found timer,
    fun s o d run plays => ?_, fun s cls p d run plays => ?_, fun s cls p d run plays => ?_, fun s d run timer => ?_⟩
  · obtain ⟨settle, busy, operator, available, locals, frame⟩ :=
      setConditions_facts (s := s.arriveAt d) (f := fun n => { n with settleTimer := none, busyInhibit := false }) rfl
    rw [arriveAt_ntc] at settle busy operator available locals
    refine ⟨_, ?_, settle, busy, operator, available, locals, frame, rfl⟩
    show execSettleTimerExpiry s = _
    unfold execSettleTimerExpiry
    rw [timer]
  · rw [hu]
    exact ⟨takeTimestamp_plain, fun busy working => takeTimestamp_working busy working,
      fun busy m neutral => ⟨takeTimestamp_settled busy neutral, takeTimestamp_settling busy neutral⟩⟩
  · unfold State.streamEvent
    rw [(inRun_iff s).2 run, role]
    rfl
  · obtain ⟨settle, busy, operator, available, -, frame⟩ := setConditions_facts hu
    exact ⟨fun inhibited shown => hu.trans (setConditions_same inhibited shown), fun changed => hu.trans (setConditions_changed changed),
      settle, busy, operator, available, frame⟩
  · exact reapplyAll_ntc [] s.ntc.pending s rfl ((noticesOrdered_iff s).1 ordered).pending
  · rintro n r m rfl
    rfl
  · exact ⟨sndPlaceOneShot_dropped, fun heard ranked => ⟨fun p e => sndPlaceOneShot_waits heard ranked,
      fun p e w => sndPlaceOneShot_full heard ranked, sndPlaceOneShot_plays heard ranked⟩, sndMuted_iff d _, sndOutranked_iff d _⟩
  · obtain ⟨waiting, plays', drops, idle⟩ := oneShotEnd_facts (now := (s.arriveAt d).now) plays
    refine ⟨_, oneShotEnd_exec plays, ?_⟩
    rw [sound_arrived run]
    exact ⟨waiting, plays', drops, idle, by rw [← sound_arrived run d sndOneShotEnd]; exact sound_frame s d _⟩
  · refine ⟨_, cadencePhaseExpiry_exec plays, ?_⟩
    rw [sound_arrived run, sndPhase_on plays]
    refine ⟨rfl, rfl, ?_⟩
    rw [← sndPhase_on plays, ← sound_arrived run d fun _ => sndPhase d]
    exact sound_frame s d _
  · refine ⟨_, nextPattern p s.snd.class3, (phaseLength (nextPattern p s.snd.class3) true).map (after d),
      cadencePhaseExpiry_exec plays, ?_⟩
    rw [sound_arrived run, sndPhase_off plays]
    refine ⟨rfl, rfl, ?_, ?_, ?_⟩
    · rintro n T rfl class3
      rw [class3]
      exact ⟨rfl, rfl⟩
    · rintro rfl
      exact ⟨rfl, rfl⟩
    · rw [← sndPhase_off plays, ← sound_arrived run d fun _ => sndPhase d]
      exact sound_frame s d _
  · have slots := sndSettle_slots (s.arriveAt d).now { s.snd with silence := none }
    refine ⟨(s.arriveAt d).sound sndSilenceEnd, ?_, ?_⟩
    · show execSilenceTimerExpiry s = _
      unfold execSilenceTimerExpiry
      rw [timer]
    rw [sound_arrived run]
    refine ⟨slots.silence, slots.class3, slots.class4, ?_⟩
    rw [← sound_arrived run d sndSilenceEnd]
    exact sound_frame s d _

end Sys2Proof.Laws
end

section
/-! The winner change: the counter, the demands and caps of the new winner, its sound and its notice (R70 to R74, R169). -/

namespace Sys2Proof.Laws

open Sys2Proof.Machine Relation

-- Many short proofs at once would each hold a thread of the checking process.
set_option Elab.async false

variable {s t u : State} {d : Snd} {w : Nat} {k : Key} {a : RuleActions}

/-! ## Notices keep the requests of the other classes -/

theorem sndNotice_ranks (now : Ms) (id : Nat) (p : Pattern) (d : Snd) : (sndNotice now id p d).class1 = d.class1
    ∧ (sndNotice now id p d).class2 = d.class2 ∧ (sndNotice now id p d).class3 = d.class3 := by
  unfold sndNotice
  cases p with
  | oneShotShort =>
    have slots := sndPlaceOneShot_slots now ⟨4, false, id⟩ d
    exact ⟨slots.class1, slots.class2, slots.class3⟩
  | oneShotLong =>
    have slots := sndPlaceOneShot_slots now ⟨4, true, id⟩ d
    exact ⟨slots.class1, slots.class2, slots.class3⟩
  | cadence500 =>
    have slots := sndSettle_slots now { d with class4 := class4Insert id .cadence500 d.class4 }
    exact ⟨slots.class1, slots.class2, slots.class3⟩
  | continuous =>
    have slots := sndSettle_slots now { d with class4 := class4Insert id .continuous d.class4 }
    exact ⟨slots.class1, slots.class2, slots.class3⟩

theorem sndNoticeWithdraw_ranks (now : Ms) (id : Nat) (d : Snd) : (sndNoticeWithdraw now id d).class1 = d.class1
    ∧ (sndNoticeWithdraw now id d).class2 = d.class2 ∧ (sndNoticeWithdraw now id d).class3 = d.class3 := by
  obtain ⟨v, hv⟩ : ∃ v : Snd, v = { d with
    class4 := d.class4.filter fun e => e.1 != id, waiting := d.waiting.filter fun o => !ofNotice id o } := ⟨_, rfl⟩
  have kept : v.class1 = d.class1 ∧ v.class2 = d.class2 ∧ v.class3 = d.class3 := by rw [hv]; exact ⟨rfl, rfl, rfl⟩
  have turned := sndTurn_slots now { v with playing := .nothing }
  have settled := sndSettle_slots now v
  rw [← kept.1, ← kept.2.1, ← kept.2.2]
  unfold sndNoticeWithdraw
  dsimp only
  rw [← hv]
  split
  · split
    · rw [hv] at turned ⊢
      exact ⟨turned.class1, turned.class2, turned.class3⟩
    · exact ⟨settled.class1, settled.class2, settled.class3⟩
  · exact ⟨settled.class1, settled.class2, settled.class3⟩

/-- No notice touches a request of class 1, 2 or 3 (R169). -/
theorem noticeActs_ranks (h : NoticeActs s t) : t.snd.class1 = s.snd.class1 ∧ t.snd.class2 = s.snd.class2
    ∧ t.snd.class3 = s.snd.class3 := by
  refine noticeActs_snd (P := fun e => e.class1 = s.snd.class1 ∧ e.class2 = s.snd.class2 ∧ e.class3 = s.snd.class3)
    (fun hf now e kept => ?_) h ⟨rfl, rfl, rfl⟩
  obtain ⟨class1, class2, class3⟩ := kept
  cases hf with
  | notice id p =>
    obtain ⟨e1, e2, e3⟩ := sndNotice_ranks now id p e
    exact ⟨e1.trans class1, e2.trans class2, e3.trans class3⟩
  | withdraw id =>
    obtain ⟨e1, e2, e3⟩ := sndNoticeWithdraw_ranks now id e
    exact ⟨e1.trans class1, e2.trans class2, e3.trans class3⟩

/-! ## RULE's request of class 2 -/

/-- The sounder without RULE's request (R72). -/
def withoutRule (d : Snd) : Snd := { d with
  class2 := none
  waiting := d.waiting.filter fun o => o.cls != 2
  playing := if playsClass2 d.playing then .nothing else d.playing }

/-- The sustained request of a pattern of RULE (R72, R169). -/
def ruleSustained : Option Pattern → Option Sustained
  | some .cadence500 => some .cadence500
  | some .continuous => some .continuous
  | some .oneShotShort | some .oneShotLong | none => none

theorem sndClass2_slots (now : Ms) (p : Option Pattern) (d : Snd) : (sndClass2 now p d).class1 = d.class1
    ∧ (sndClass2 now p d).class3 = d.class3 ∧ (sndClass2 now p d).class4 = d.class4
    ∧ (sndClass2 now p d).class2 = ruleSustained p := by
  have settled : ∀ e : Snd, SameSlots { withoutRule d with class2 := e.class2 } e → (sndSettle now e).class1 = d.class1
      ∧ (sndSettle now e).class3 = d.class3 ∧ (sndSettle now e).class4 = d.class4
      ∧ (sndSettle now e).class2 = e.class2 := fun e same => by
    have slots := sndSettle_slots now e
    exact ⟨slots.class1.trans same.class1, slots.class3.trans same.class3, slots.class4.trans same.class4, slots.class2⟩
  have placed : ∀ long, SameSlots (withoutRule d) (sndPlaceOneShot now ⟨2, long, 0⟩ (withoutRule d)) := fun _ =>
    sndPlaceOneShot_slots _ _ _
  have shot : ∀ long, (sndSettle now (sndPlaceOneShot now ⟨2, long, 0⟩ (withoutRule d))).class1 = d.class1
      ∧ (sndSettle now (sndPlaceOneShot now ⟨2, long, 0⟩ (withoutRule d))).class3 = d.class3
      ∧ (sndSettle now (sndPlaceOneShot now ⟨2, long, 0⟩ (withoutRule d))).class4 = d.class4
      ∧ (sndSettle now (sndPlaceOneShot now ⟨2, long, 0⟩ (withoutRule d))).class2 = none := fun long => by
    obtain ⟨class1, class2, class3, class4, silence⟩ := placed long
    obtain ⟨e1, e3, e4, e2⟩ := settled _ ⟨class1, rfl, class3, class4, silence⟩
    exact ⟨e1, e3, e4, e2.trans class2⟩
  cases p with
  | none => exact settled (withoutRule d) (.refl _)
  | some p =>
    cases p with
    | oneShotShort => exact shot false
    | oneShotLong => exact shot true
    | cadence500 => exact settled { withoutRule d with class2 := some .cadence500 } ⟨rfl, rfl, rfl, rfl, rfl⟩
    | continuous => exact settled { withoutRule d with class2 := some .continuous } ⟨rfl, rfl, rfl, rfl, rfl⟩

/-- Only class 1 outranks class 2 (R170). -/
theorem sndOutranked_two (h : d.class1 = false) : sndOutranked d 2 = false := by
  rw [← Bool.not_eq_true, sndOutranked_iff]
  rintro ⟨x, mem, low⟩
  simp only [sndLive, h, List.mem_append, Option.mem_toList] at mem
  rcases mem with ((mem | mem) | mem) | mem
  · simp at mem
  · obtain ⟨p, -, rfl⟩ := Option.map_eq_some_iff.1 mem
    exact absurd low (by decide : ¬ 2 < 2)
  · split at mem
    · simp at mem
    · obtain ⟨p, -, rfl⟩ := Option.map_eq_some_iff.1 (Option.mem_toList.1 mem)
      exact absurd low (by decide : ¬ 3 < 2)
  · split at mem
    · simp at mem
    · obtain ⟨p, -, rfl⟩ := Option.map_eq_some_iff.1 (Option.mem_toList.1 mem)
      exact absurd low (by decide : ¬ 4 < 2)

/-- A one-shot of RULE plays at once where no class 1 request is live and no one-shot of another class plays (R169, R170; log 19). -/
theorem sndClass2_plays (now : Ms) (long : Bool) (quiet : d.class1 = false) (own : ∀ o e, d.playing = .oneShot o e → o.cls = 2) :
    (sndClass2 now (some (if long then .oneShotLong else .oneShotShort)) d).playing
      = .oneShot ⟨2, long, 0⟩ (after now (if long then 300 else 80)) := by
  have still : sndOutranked (withoutRule d) 2 = false := sndOutranked_two quiet
  have free : ∀ p e, (withoutRule d).playing ≠ .oneShot p e := by
    intro p e plays
    by_cases ours : playsClass2 d.playing = true
    · have silent : (withoutRule d).playing = .nothing := if_pos ours
      cases silent.symm.trans plays
    · have kept : (withoutRule d).playing = d.playing := if_neg ours
      have plays' := kept.symm.trans plays
      rw [plays'] at ours
      exact ours (by rw [playsClass2, own p e plays']; rfl)
  have unmuted : sndMuted (withoutRule d) 2 = false := by simp [sndMuted]
  have placed := sndPlaceOneShot_plays (now := now) (o := ⟨2, long, 0⟩) unmuted still free
  have settled : sndSettle now (sndPlaceOneShot now ⟨2, long, 0⟩ (withoutRule d))
      = sndPlaceOneShot now ⟨2, long, 0⟩ (withoutRule d) := by
    rw [placed]
    exact if_neg (by
      have kept : sndOutranked { withoutRule d with
        playing := .oneShot ⟨2, long, 0⟩ (after now (if long then 300 else 80)) } 2 = false := still
      rw [kept]
      decide)
  have same : sndClass2 now (some (if long then .oneShotLong else .oneShotShort)) d
      = sndSettle now (sndPlaceOneShot now ⟨2, long, 0⟩ (withoutRule d)) := by cases long <;> rfl
  rw [same, settled, placed]

theorem ruleSound_some (run : s.cfg.node = .run) (old new : Option Pattern) (h : old ≠ none ∨ new ≠ none) :
    (s.ruleSound old new).snd = sndClass2 s.now new s.snd := by
  unfold State.ruleSound
  rw [if_pos (by simpa [Option.isSome_iff_ne_none] using h), sound_run run, onSnd_snd]

/-! ## The caps -/

/-- ECO's three rule fields are these. -/
def CapsAre (a : RuleActions) (e : Eco) : Prop :=
  e.speedCap = a.speedCap ∧ e.pumpCap = a.pumpCap ∧ e.idleInhibit = a.idleInhibit

theorem onLink_eco (s : State) (f : LinkUnit → LinkUnit) : (s.onLink f).eco = s.eco := rfl

theorem reform_eco (s : State) : s.reform.eco = s.eco.formRecord s.img.economy s.svc.derate := by
  unfold State.reform
  dsimp only
  rw [(tellPump_touches _ _).eco rfl, (tellSpeed_touches _ _).eco rfl]
  rfl

theorem reform_caps (h : CapsAre a s.eco) : CapsAre a s.reform.eco := by rw [reform_eco]; exact h

theorem enterEco_caps (st : EcoState) (h : CapsAre a s.eco) : CapsAre a (s.enterEco st).eco := reform_caps h

theorem enterNeutralWait_caps (h : CapsAre a s.eco) : CapsAre a s.enterNeutralWait.eco := enterEco_caps .neutralWait h

theorem enterWork_caps (h : CapsAre a s.eco) : CapsAre a s.enterWork.eco := by
  unfold State.enterWork
  dsimp only
  split
  · exact enterNeutralWait_caps (enterEco_caps .work h)
  · exact enterEco_caps .work h

theorem recoveryTest_caps (h : CapsAre a s.eco) : CapsAre a s.recoveryTest.eco := by
  unfold State.recoveryTest
  split
  · exact enterWork_caps (by rw [(clearNotice_touches s _).eco rfl]; exact h)
  · exact h

theorem enterRecover_caps (h : CapsAre a s.eco) : CapsAre a s.enterRecover.eco :=
  recoveryTest_caps (s := (s.enterEco .recover).onEco _) (enterEco_caps .recover h)

theorem permitEvent_caps (h : CapsAre a s.eco) : CapsAre a s.permitEvent.eco := by
  unfold State.permitEvent
  split
  · split
    · exact enterNeutralWait_caps h
    · exact h
  · split
    · exact h
    · exact enterWork_caps h
  · split
    · exact h
    · exact enterRecover_caps h
  all_goals exact h

theorem reformTarget_caps (h : CapsAre a s.eco) : CapsAre a s.reformTarget.eco := by
  unfold State.reformTarget
  dsimp only
  split
  · exact reform_caps h
  · exact recoveryTest_caps (reform_caps h)

/-- RULE's three fields stand in ECO once they are written (R71, R121). -/
theorem writeCaps_caps (s : State) (a : RuleActions) : CapsAre a (s.writeCaps a).eco := by
  unfold State.writeCaps
  dsimp only
  split
  · exact permitEvent_caps (reformTarget_caps ⟨rfl, rfl, rfl⟩)
  · exact ⟨rfl, rfl, rfl⟩

/-! ## The winner change -/

theorem actions_congr (image : t.image = s.image) (w : Nat) : t.actions w = s.actions w := by
  unfold State.actions State.img
  rw [image]

/-- The new winner with its demands, caps and sound, before the notices (R70 to R72, R74). -/
def beforeNotices (s : State) (w : Nat) : State :=
  (((s.onRule fun u => { u with winner := some w, hits := u.hits.set w (sat16 (u.hits.getD w 0)) }).writeCuts
    (s.actions w)).writeCaps (s.actions w)).ruleSound (s.rule.winner.bind fun o => soundOf (s.actions o)) (soundOf (s.actions w))

theorem changeWinner_eq (s : State) (w : Nat) (k : Key) :
    s.changeWinner w k = ((beforeNotices s w).clearRuleNotice s.rule.winner).raiseRuleNotice w k := rfl

theorem writeCuts_touches (s : State) (a : RuleActions) : Touches { vch := true } s (s.writeCuts a) := writeDemands_touches _ _

theorem beforeNotices_touches (s : State) (w : Nat) : Touches ruleBlocks s (beforeNotices s w) :=
  ((((onRule_touches s _).mono rfl).trans ((writeCuts_touches _ _).mono rfl)).trans ((writeCaps_touches _ _).mono rfl)).trans
    ((ruleSound_touches _ _ _).mono rfl)

theorem beforeNotices_acts (s : State) (w : Nat) : Acts s (beforeNotices s w) :=
  (((rule_acts s _ fun _ => rfl).trans (writeDemands_acts _ _ fun _ _ => rfl)).trans (writeCaps_acts _ _)).trans
    (ruleSound_acts _ _ _)

theorem beforeNotices_rule (s : State) (w : Nat) : (beforeNotices s w).rule =
    { s.rule with winner := some w, hits := s.rule.hits.set w (sat16 (s.rule.hits.getD w 0)) } := by
  unfold beforeNotices
  rw [(ruleSound_touches _ _ _).rule rfl, (writeCaps_touches _ _).rule rfl, (writeCuts_touches _ _).rule rfl]
  rfl

theorem beforeNotices_vch (run : s.cfg.node = .run) (w : Nat) (c : Channel) :
    (beforeNotices s w).vch.get c = { s.vch.get c with rule := (s.actions w).cuts.get c } := by
  unfold beforeNotices
  rw [(ruleSound_touches _ _ _).vch rfl, (writeCaps_touches _ _).vch rfl]
  unfold State.writeCuts
  rw [writeDemands_get]
  exact if_pos ((inRun_iff _).2 run)

theorem beforeNotices_caps (s : State) (w : Nat) : CapsAre (s.actions w) (beforeNotices s w).eco := by
  unfold beforeNotices
  rw [(ruleSound_touches _ _ _).eco rfl]
  exact writeCaps_caps _ _

/-- The class 2 request after the winner change (R72). -/
theorem beforeNotices_class2 (run : s.cfg.node = .run) (w : Nat)
    (h : (s.rule.winner.bind fun o => soundOf (s.actions o)) ≠ none ∨ soundOf (s.actions w) ≠ none) :
    (beforeNotices s w).snd.class2 = ruleSustained (soundOf (s.actions w)) := by
  unfold beforeNotices
  have node : (((s.onRule fun u => { u with winner := some w, hits := u.hits.set w (sat16 (u.hits.getD w 0)) }).writeCuts
      (s.actions w)).writeCaps (s.actions w)).cfg.node = .run := by
    rw [(writeCaps_touches _ _).cfg rfl, (writeCuts_touches _ _).cfg rfl]
    exact run
  rw [ruleSound_some node _ _ h]
  obtain ⟨-, -, -, class2⟩ := sndClass2_slots
    (((s.onRule fun u => { u with winner := some w, hits := u.hits.set w (sat16 (u.hits.getD w 0)) }).writeCuts
      (s.actions w)).writeCaps (s.actions w)).now (soundOf (s.actions w))
    (((s.onRule fun u => { u with winner := some w, hits := u.hits.set w (sat16 (u.hits.getD w 0)) }).writeCuts
      (s.actions w)).writeCaps (s.actions w)).snd
  exact class2

/-- The two notices of a winner change touch NTC, its sounds and its frames alone (R73). -/
theorem ruleNotices_touches (s : State) (old : Option Nat) (w : Nat) (k : Key) :
    Touches noticeBlocks s ((s.clearRuleNotice old).raiseRuleNotice w k) :=
  (clearRuleNotice_touches s old).trans (raiseRuleNotice_touches _ w k)

theorem clearRuleNotice_noticeActs (s : State) (old : Option Nat) : NoticeActs s (s.clearRuleNotice old) := by
  cases old with
  | none => exact .refl
  | some w => exact reach_ite (clearNotice_noticeActs s _) .refl

theorem raiseRuleNotice_noticeActs (s : State) (w : Nat) (k : Key) : NoticeActs s (s.raiseRuleNotice w k) :=
  reach_ite (raiseNotice_noticeActs s _ _ _) .refl

theorem ruleNotices_class2 (s : State) (old : Option Nat) (w : Nat) (k : Key) :
    ((s.clearRuleNotice old).raiseRuleNotice w k).snd.class2 = s.snd.class2 :=
  (noticeActs_ranks ((clearRuleNotice_noticeActs s old).trans (raiseRuleNotice_noticeActs _ w k))).2.1

theorem clearRuleNotice_some {o : Nat} (h : (s.actions o).notice = true) :
    s.clearRuleNotice (some o) = s.clearNotice (0x40 + o) := if_pos h

theorem raiseRuleNotice_some (h : (s.actions w).notice = true) (k : Key) : s.raiseRuleNotice w k =
    s.raiseNotice (0x40 + w) none (.zones (k.toNat % 8) (k.toNat / 8 % 8) (k.toNat / 64 % 8)) := if_pos h

/-- A rule notice stands in the catalogue (R155). -/
theorem catalogue_rule (image : s.image.isSome = true) (low : w < 32) : ∃ c, s.catalogue (0x40 + w) = some c := by
  have held : s.image.isNone = false := by
    cases e : s.image with
    | none => rw [e] at image; cases image
    | some im => rfl
  unfold State.catalogue
  rw [held, if_neg (by decide), if_neg (by omega), if_neg (by omega), if_neg (by omega), if_neg (by omega), if_pos (by omega)]
  exact ⟨_, rfl⟩

section
variable (run : s.cfg.node = .run) (hw : w = lookup s.img.rules k) (other : s.rule.winner ≠ some w)
include run hw other

omit run in
theorem lookupKey_changes : s.lookupKey k = ((beforeNotices s w).clearRuleNotice s.rule.winner).raiseRuleNotice w k := by
  rw [← changeWinner_eq, hw]
  exact if_neg (hw ▸ other)

/-- The new winner's notice is held with the zones of the key (R73). -/
theorem lookupKey_raised (ordered : Ordered s.ntc) (image : s.image.isSome = true) (low : w < 32)
    (told : (s.actions w).notice = true) : ∃ r ∈ (s.lookupKey k).ntc.held, r.id = 0x40 + w
      ∧ r.detail = .zones (k.toNat % 8) (k.toNat / 8 % 8) (k.toNat / 64 % 8) := by
  obtain ⟨v, hv⟩ : ∃ v, v = (beforeNotices s w).clearRuleNotice s.rule.winner := ⟨_, rfl⟩
  have touched : Touches ruleBlocks s v :=
    hv ▸ (beforeNotices_touches s w).trans ((clearRuleNotice_touches _ _).mono rfl)
  have vOrdered : Ordered v.ntc := by
    rw [hv]
    exact acts_ordered ((beforeNotices_acts s w).trans (clearRuleNotice_acts _ _)) ordered
  obtain ⟨⟨c, route⟩, listed⟩ := catalogue_rule (s := v) (w := w) (by rw [touched.image rfl]; exact image) low
  obtain ⟨r, mem, id, detail, -⟩ := raiseNotice_holds (sv := none)
    (d := .zones (k.toNat % 8) (k.toNat / 8 % 8) (k.toNat / 64 % 8)) ((congrArg Cfg.node (touched.cfg rfl)).trans run) listed vOrdered
  refine ⟨r, ?_, id, detail⟩
  rw [lookupKey_changes hw other, ← hv, raiseRuleNotice_some (by rw [actions_congr (touched.image rfl)]; exact told)]
  exact mem

/-- The old winner's notice is no longer held (R73). -/
theorem lookupKey_cleared (ordered : Ordered s.ntc) {o : Nat} (old : s.rule.winner = some o)
    (told : (s.actions o).notice = true) : ∀ r ∈ (s.lookupKey k).ntc.held, r.id ≠ 0x40 + o := by
  have touched := beforeNotices_touches s w
  have bOrdered : Ordered (beforeNotices s w).ntc := acts_ordered (beforeNotices_acts s w) ordered
  have cleared : (beforeNotices s w).clearRuleNotice s.rule.winner = (beforeNotices s w).clearNotice (0x40 + o) := by
    rw [old]
    exact clearRuleNotice_some (by rw [actions_congr (touched.image rfl)]; exact told)
  have gone := clearNotice_gone (id := 0x40 + o) ((congrArg Cfg.node (touched.cfg rfl)).trans run) bOrdered
  have cOrdered := clearNotice_ordered (0x40 + o) bOrdered
  have differ : w ≠ o := fun e => other (e ▸ old)
  rw [lookupKey_changes hw other, cleared]
  intro r mem same
  unfold State.raiseRuleNotice at mem
  split at mem
  · have kept := (raiseNotice_others (id := 0x40 + w) cOrdered none (x := core r)
      (by show r.id ≠ _; omega)).1 (mem_cores.2 ⟨r, mem, rfl⟩)
    obtain ⟨x, hx, e⟩ := mem_cores.1 kept
    exact gone x hx ((core_eq e).1.trans same)
  · exact gone r mem same

end

/-! ## The rebuild -/

/-- The zone key reads nothing that a rebuild changes. -/
theorem zoneKey_congr (frame : t = { s with
      rule := t.rule, vch := t.vch, eco := t.eco, ntc := t.ntc, snd := t.snd, link := t.link })
    (mode : t.eco.mode = s.eco.mode) (profile : t.rule.profile = s.rule.profile) : t.zoneKey = s.zoneKey := by
  rw [frame]
  unfold State.zoneKey
  dsimp only
  rw [mode, profile]
  rfl

/-- Settles O29: the change part by part, its notices after its sound. -/
theorem winnerChangeReplaces : Obligations.WinnerChangeReplaces := by
  refine ⟨fun s k w run hw => ⟨fun same => ?_, fun other => ?_⟩, fun s u hu => ⟨fun out => ?_, fun run => ?_⟩,
    fun s u k w x run hw other hx hu => ?_, fun s u old long run quiet own hu => ?_⟩
  · exact if_pos (hw ▸ same)
  · have touched := ruleNotices_touches (beforeNotices s w) s.rule.winner w k
    obtain ⟨speed, pump, idle⟩ := beforeNotices_caps s w
    have agrees : AgreeOutsideLimits s (s.lookupKey k) := acts_agree (lookupKey_acts s k)
    have frame := framed (lookupKey_touches s k)
    have profile := agree_profile agrees
    have mode := agree_mode agrees
    rw [lookupKey_changes hw other] at frame profile mode ⊢
    refine ⟨by rw [touched.rule rfl, beforeNotices_rule], by rw [touched.rule rfl, beforeNotices_rule]; rfl,
      fun c => by rw [touched.vch rfl]; exact beforeNotices_vch run w c, by rw [touched.eco rfl]; exact speed,
      by rw [touched.eco rfl]; exact pump, by rw [touched.eco rfl]; exact idle, _, rfl, profile, mode, frame⟩
  · rw [hu]
    exact if_neg (by rw [inRun_iff]; exact out)
  · have inRun := (inRun_iff s).2 run
    have rebuilt : u = if s.rule.key = some s.zoneKey then s
        else (s.onRule fun u => { u with key := some s.zoneKey }).lookupKey s.zoneKey := by rw [hu]; exact if_pos inRun
    have agrees := rebuild_agrees s
    rw [← hu] at agrees
    have key : u.rule.key = some s.zoneKey := by
      rw [rebuilt]
      split
      · assumption
      · unfold State.lookupKey
        dsimp only
        split
        · rfl
        · rw [changeWinner_eq, (ruleNotices_touches _ _ _ _).rule rfl, beforeNotices_rule]
          rfl
    exact ⟨key, zoneKey_congr (framed (hu ▸ rebuild_touches s)) (agree_mode agrees) (agree_profile agrees),
      fun same => by rw [rebuilt, if_pos same], fun differs => by rw [rebuilt, if_neg differs]; rfl⟩
  · have request : (x ≠ none ∨ ∃ o ∈ s.rule.winner, soundOf (s.actions o) ≠ none) → u.snd.class2 = ruleSustained x := by
      intro h
      rw [hu, lookupKey_changes hw other, ruleNotices_class2, hx]
      refine beforeNotices_class2 run w ?_
      rcases h with new | ⟨o, old, sounded⟩
      · exact .inr (hx ▸ new)
      · refine .inl ?_
        rw [show s.rule.winner = some o from old]
        exact sounded
    refine ⟨fun e => ?_, fun e => ?_, fun e => ?_, fun e old => ?_, fun ordered image low told => ?_, fun ordered o old told => ?_⟩
    · rw [request (.inl (by rw [e]; simp)), e]; rfl
    · rw [request (.inl (by rw [e]; simp)), e]; rfl
    · rcases e with e | e <;> (rw [request (.inl (by rw [e]; simp)), e]; rfl)
    · rw [request (.inr old), e]; rfl
    · rw [hu]
      exact lookupKey_raised run hw other ((noticesOrdered_iff s).1 ordered) image low told
    · rw [hu]
      exact lookupKey_cleared run hw other ((noticesOrdered_iff s).1 ordered) old told
  · have played := sndClass2_plays s.now long quiet own
    obtain ⟨class1, class3, class4, -⟩ := sndClass2_slots s.now (some (if long then Pattern.oneShotLong else .oneShotShort)) s.snd
    rw [hu, ruleSound_some run _ _ (.inr (by simp))]
    exact ⟨played, class1, class3, class4⟩

end Sys2Proof.Laws
end

section
/-! What an evaluation of limits hands on: the demands, the sounder's requests, the notices and the key (R54 to R59, R66). -/

namespace Sys2Proof.Laws

open Sys2Proof.Machine Relation

-- Many short proofs at once would each hold a thread of the checking process.
set_option Elab.async false

variable {s t u : State} {p : Limit → Bool} {c : Channel}

/-! ## A rebuild keeps the limit's demands and sounds -/

/-- Of a channel a winner change writes the rule demand alone (R71). -/
theorem rebuild_vch (s : State) (c : Channel) :
    s.rebuild.vch.get c = { s.vch.get c with rule := (s.rebuild.vch.get c).rule } := by
  unfold State.rebuild
  split
  · rename_i inRun
    dsimp only
    split
    · rfl
    · unfold State.lookupKey
      dsimp only
      split
      · rfl
      · rw [changeWinner_eq, (ruleNotices_touches _ _ _ _).vch rfl, beforeNotices_vch (by exact (inRun_iff s).1 inRun)]
        rfl
  · rfl

/-- Two states with the same requests of class 1 and 3. -/
def SameRequests (s t : State) : Prop := t.snd.class1 = s.snd.class1 ∧ t.snd.class3 = s.snd.class3

theorem SameRequests.refl (s : State) : SameRequests s s := ⟨rfl, rfl⟩

theorem SameRequests.trans (h : SameRequests s t) (k : SameRequests t u) : SameRequests s u :=
  ⟨k.1.trans h.1, k.2.trans h.2⟩

theorem SameRequests.of_snd (h : t.snd = s.snd) : SameRequests s t := ⟨by rw [h], by rw [h]⟩

theorem clearNotice_requests (s : State) (id : Nat) : SameRequests s (s.clearNotice id) := by
  obtain ⟨class1, -, class3⟩ := noticeActs_ranks (clearNotice_noticeActs s id)
  exact ⟨class1, class3⟩

theorem reform_requests (s : State) : SameRequests s s.reform := .of_snd ((reform_touches s).snd rfl)

theorem enterEco_requests (s : State) (st : EcoState) : SameRequests s (s.enterEco st) := reform_requests (s.onEco _)

theorem enterWork_requests (s : State) : SameRequests s s.enterWork := by
  unfold State.enterWork
  dsimp only
  split
  · exact (enterEco_requests s .work).trans (enterEco_requests _ .neutralWait)
  · exact enterEco_requests s .work

theorem recoveryTest_requests (s : State) : SameRequests s s.recoveryTest := by
  unfold State.recoveryTest
  split
  · exact (clearNotice_requests s _).trans (enterWork_requests _)
  · exact .refl s

theorem permitEvent_requests (s : State) : SameRequests s s.permitEvent := by
  unfold State.permitEvent
  split
  · split
    · exact enterEco_requests s .neutralWait
    · exact .refl s
  · split
    · exact .refl s
    · exact enterWork_requests s
  · split
    · exact .refl s
    · exact (enterEco_requests s .recover).trans (recoveryTest_requests ((s.enterEco .recover).onEco _))
  all_goals exact .refl s

theorem reformTarget_requests (s : State) : SameRequests s s.reformTarget := by
  unfold State.reformTarget
  dsimp only
  split
  · exact reform_requests s
  · exact (reform_requests s).trans (recoveryTest_requests _)

theorem writeCaps_requests (s : State) (a : RuleActions) : SameRequests s (s.writeCaps a) := by
  unfold State.writeCaps
  dsimp only
  split
  · exact (reformTarget_requests (s.onEco _)).trans (permitEvent_requests _)
  · exact .refl s

theorem ruleSound_requests (s : State) (old new : Option Pattern) : SameRequests s (s.ruleSound old new) := by
  unfold State.ruleSound
  split
  · refine sound_snd (P := fun d => d.class1 = s.snd.class1 ∧ d.class3 = s.snd.class3) ⟨rfl, rfl⟩ ?_
    obtain ⟨class1, class3, -⟩ := sndClass2_slots s.now new s.snd
    exact ⟨class1, class3⟩
  · exact .refl s

theorem rebuild_requests (s : State) : SameRequests s s.rebuild := by
  have changed : ∀ (v : State) (w : Nat) (k : Key), SameRequests v (v.changeWinner w k) := fun v w k => by
    have notices := noticeActs_ranks ((clearRuleNotice_noticeActs (beforeNotices v w) v.rule.winner).trans
      (raiseRuleNotice_noticeActs _ w k))
    have cuts : SameRequests v ((v.onRule fun u => { u with winner := some w, hits := u.hits.set w (sat16 (u.hits.getD w 0)) }).writeCuts
        (v.actions w)) := .of_snd ((writeCuts_touches _ _).snd rfl)
    exact ((cuts.trans (writeCaps_requests _ _)).trans (ruleSound_requests _ _ _)).trans ⟨notices.1, notices.2.2⟩
  unfold State.rebuild
  split
  · dsimp only
    split
    · exact .refl s
    · unfold State.lookupKey
      dsimp only
      split
      · exact .refl s
      · exact (SameRequests.refl s).trans (changed (s.onRule _) _ _)
  · exact .refl s

/-! ## The demands -/

theorem evaluateLimits_eq (s : State) (p : Limit → Bool) : s.evaluateLimits p =
    if statesDiffer s.lim.records (s.evaluateStates p).writeLimitDemands.lim.records then
      (s.evaluateStates p).writeLimitDemands.offerStatusChange.rebuild
    else (s.evaluateStates p).writeLimitDemands := rfl

/-- What the demands give and a rebuild keeps, an evaluation gives. -/
theorem evaluateLimits_cases {P : State → Prop} (written : P (s.evaluateStates p).writeLimitDemands)
    (keep : ∀ v, P v → P v.offerStatusChange.rebuild) : P (s.evaluateLimits p) := by
  rw [evaluateLimits_eq]
  split
  · exact keep _ written
  · exact written

/-- After an evaluation in RUN the LIMIT and FAIL demands follow the records (R56, R57). -/
theorem evaluateLimits_demands (run : s.cfg.node = .run) (p : Limit → Bool) (c : Channel) :
    ((s.evaluateLimits p).vch.get c).limit = limitDemand s.img.limits (s.evaluateLimits p).lim.records c
      ∧ ((s.evaluateLimits p).vch.get c).fail
        = failDemand s.img.limits (s.evaluateLimits p).lim.records (s.img.channels.get c).fail c := by
  have touched := evaluateStates_touches s p
  have inRun : (s.evaluateStates p).inRun = true := (inRun_iff _).2 ((congrArg Cfg.node (touched.cfg rfl)).trans run)
  have image : (s.evaluateStates p).img = s.img := by unfold State.img; rw [touched.image rfl]
  rw [evaluateLimits_lim]
  refine evaluateLimits_cases (P := fun v => (v.vch.get c).limit = limitDemand s.img.limits (s.evaluateStates p).lim.records c
    ∧ (v.vch.get c).fail = failDemand s.img.limits (s.evaluateStates p).lim.records (s.img.channels.get c).fail c) ?_ ?_
  · unfold State.writeLimitDemands
    dsimp only
    rw [writeDemands_get, if_pos inRun, image]
    exact ⟨rfl, rfl⟩
  · intro v hv
    rw [rebuild_vch, (offerStatusChange_touches v).vch rfl]
    exact hv

theorem largest_ge {ns : List Nat} {n : Nat} (mem : n ∈ ns) : ∃ m, largest ns = some m ∧ n ≤ m := by
  cases e : largest ns with
  | none => rw [largest_none.1 e] at mem; exact absurd mem List.not_mem_nil
  | some m => exact ⟨m, rfl, (largest_some e).2 n mem⟩

theorem limit_mem_all (l : Limit) : l ∈ Limit.all := by cases l <;> decide

section
variable {k : LimitConfig} {r : PerLimit LimitRecord} {l : Limit}

/-- A limit in STOP cuts its channels by 1000 less the stop allowance at least (R55, R56). -/
theorem limitDemand_stop (covers : (k.masks.get l).getLsbD c.num = true) (stop : (r.get l).state = .stop) :
    ∃ n, limitDemand k r c = some n ∧ (1000 - (bandOf k l).aStop).toNat ≤ n := by
  refine largest_ge (List.mem_filterMap.2 ⟨l, limit_mem_all l, ?_⟩)
  rw [if_pos covers]
  unfold cutOf
  rw [stop]

theorem failDemand_fault (fail : Nat) (covers : (k.masks.get l).getLsbD c.num = true) (fault : (r.get l).state = .fault) :
    failDemand k r fail c = some fail := by
  refine if_pos (List.any_eq_true.2 ⟨l, limit_mem_all l, ?_⟩)
  rw [covers, fault]
  rfl

theorem failDemand_none (fail : Nat) (free : ∀ l, (k.masks.get l).getLsbD c.num = true → (r.get l).state ≠ .fault) :
    failDemand k r fail c = none := by
  refine if_neg fun some => ?_
  obtain ⟨l, -, h⟩ := List.any_eq_true.1 some
  rw [Bool.and_eq_true, beq_iff_eq] at h
  exact free l h.1 h.2

end

/-! ## The sounds -/

theorem anyStop_iff (r : PerLimit LimitRecord) : anyStop r = true ↔ ∃ l, (r.get l).state = .stop := by
  unfold anyStop
  rw [List.any_eq_true]
  exact ⟨fun ⟨l, _, h⟩ => ⟨l, by simpa using h⟩, fun ⟨l, h⟩ => ⟨l, limit_mem_all l, by simpa using h⟩⟩

theorem mem_approaching {k : LimitConfig} {r : PerLimit LimitRecord} {x : Int × Int} :
    x ∈ approaching k r ↔ ∃ l m, r.get l = ⟨.approach, some m⟩ ∧ x = (m, (bandOf k l).b) := by
  unfold approaching
  rw [List.mem_filterMap]
  constructor
  · rintro ⟨l, -, h⟩
    split at h
    · rename_i m state margin
      cases h
      exact ⟨l, m, by rw [← state, ← margin], rfl⟩
    · cases h
  · rintro ⟨l, m, e, rfl⟩
    refine ⟨l, limit_mem_all l, ?_⟩
    rw [e]

/-- One pair is at least as near as another: of a smaller margin, or of the same with no longer a period (R59). -/
def NoFarther (x y : Int × Int) : Prop := x.1 < y.1 ∨ x.1 = y.1 ∧ cadenceOf x.2 x.1 ≤ cadenceOf y.2 y.1

theorem NoFarther.trans {x y z : Int × Int} (h : NoFarther x y) (k : NoFarther y z) : NoFarther x z := by
  unfold NoFarther at *
  omega

theorem nearer_least (x y : Int × Int) : (nearer x y = x ∨ nearer x y = y) ∧ NoFarther (nearer x y) x ∧ NoFarther (nearer x y) y := by
  unfold nearer
  split
  · rename_i near
    exact ⟨.inr rfl, by unfold NoFarther; omega, .inr ⟨rfl, Nat.le_refl _⟩⟩
  · rename_i far
    exact ⟨.inl rfl, .inr ⟨rfl, Nat.le_refl _⟩, by unfold NoFarther; omega⟩

theorem nearest_fold (xs : List (Int × Int)) (x : Int × Int) :
    xs.foldl nearer x ∈ x :: xs ∧ ∀ y ∈ x :: xs, NoFarther (xs.foldl nearer x) y := by
  induction xs generalizing x with
  | nil =>
    refine ⟨List.mem_cons_self .., fun y hy => ?_⟩
    rw [List.mem_singleton.1 hy]
    exact .inr ⟨rfl, Nat.le_refl _⟩
  | cons z zs ih =>
    obtain ⟨one, first, second⟩ := nearer_least x z
    obtain ⟨mem, least⟩ := ih (nearer x z)
    have best := least (nearer x z) (List.mem_cons_self ..)
    refine ⟨?_, fun y hy => ?_⟩
    · rcases List.mem_cons.1 mem with e | later
      · rw [List.foldl_cons, e]
        rcases one with e | e <;> rw [e] <;> simp
      · exact List.mem_cons_of_mem _ (List.mem_cons_of_mem _ later)
    · rcases List.mem_cons.1 hy with rfl | later
      · exact best.trans first
      rcases List.mem_cons.1 later with rfl | later
      · exact best.trans second
      · exact least y (List.mem_cons_of_mem _ later)

theorem cadence_none {k : LimitConfig} {r : PerLimit LimitRecord} :
    cadence k r = none ↔ ∀ (l : Limit) (m : Int), r.get l ≠ ⟨.approach, some m⟩ := by
  have empty : cadence k r = none ↔ approaching k r = [] := by
    unfold cadence
    split
    · exact ⟨fun _ => ‹_›, fun _ => rfl⟩
    · rename_i e
      rw [e]
      simp
  rw [empty, List.eq_nil_iff_forall_not_mem]
  constructor
  · exact fun none l m e => none _ (mem_approaching.2 ⟨l, m, e, rfl⟩)
  · intro none x hx
    obtain ⟨l, m, e, -⟩ := mem_approaching.1 hx
    exact none l m e

/-- The period is that of the smallest margin in APPROACH (R59). -/
theorem cadence_some {k : LimitConfig} {r : PerLimit LimitRecord} {n : Nat} (h : cadence k r = some n) :
    ∃ (l : Limit) (m : Int), r.get l = ⟨.approach, some m⟩ ∧ n = cadenceOf (bandOf k l).b m
      ∧ ∀ (l' : Limit) (m' : Int), r.get l' = ⟨.approach, some m'⟩ →
          m < m' ∨ m = m' ∧ n ≤ cadenceOf (bandOf k l').b m' := by
  unfold cadence at h
  split at h
  · cases h
  · rename_i x xs e
    dsimp only at h
    obtain ⟨mem, least⟩ := nearest_fold xs x
    rw [← e] at mem least
    obtain ⟨l, m, record, pair⟩ := mem_approaching.1 mem
    rw [pair] at h
    obtain rfl : cadenceOf (bandOf k l).b m = n := Option.some.inj h
    refine ⟨l, m, record, rfl, fun l' m' record' => ?_⟩
    have near := least _ (mem_approaching.2 ⟨l', m', record', rfl⟩)
    rw [pair] at near
    exact near

theorem evaluateStates_before_sounds (s : State) (p : Limit → Bool) : ∃ v : State, s.evaluateStates p = v.limitSounds
    ∧ v.lim = (s.evaluateStates p).lim ∧ v.cfg = s.cfg ∧ v.image = s.image := by
  obtain ⟨v, hv⟩ : ∃ v, v = Limit.all.foldl (fun t l => State.stopNotice t s.lim.records l)
    (s.onLim fun u => { u with records := PerLimit.tabulate fun l => if p l then s.evaluateLimit l else s.lim.records.get l }) := ⟨_, rfl⟩
  have same : s.evaluateStates p = v.limitSounds := by rw [hv]; rfl
  have touched : Touches noticeBlocks (s.onLim fun u => { u with
      records := PerLimit.tabulate fun l => if p l then s.evaluateLimit l else s.lim.records.get l }) v :=
    hv ▸ Touches.foldl (fun t l => stopNotice_touches t s.lim.records l) Limit.all _
  exact ⟨v, same, by rw [same, (limitSounds_touches v).lim rfl], touched.cfg rfl, touched.image rfl⟩

/-- In RUN the requests of class 1 and 3 follow the records (R58, R59). -/
theorem limitSounds_requests (run : s.cfg.node = .run) : s.limitSounds.snd.class1 = anyStop s.lim.records
    ∧ s.limitSounds.snd.class3 = cadence s.img.limits s.lim.records := by
  obtain ⟨v, hv⟩ : ∃ v, v = if s.snd.class1 = anyStop s.lim.records then s
    else s.sound fun now d => sndClass1 now (anyStop s.lim.records) d := ⟨_, rfl⟩
  have first : v.snd.class1 = anyStop s.lim.records ∧ v.cfg.node = .run := by
    rw [hv]
    split
    · exact ⟨‹_›, run⟩
    · rw [sound_run run, onSnd_snd]
      exact ⟨(sndSettle_slots s.now { s.snd with class1 := anyStop s.lim.records }).class1, run⟩
  have second : s.limitSounds = if v.snd.class3 = cadence s.img.limits s.lim.records then v
      else v.sound fun now d => sndClass3 now (cadence s.img.limits s.lim.records) d := by rw [hv]; rfl
  rw [second]
  split
  · exact ⟨first.1, ‹_›⟩
  · have slots := sndSettle_slots v.now { v.snd with class3 := cadence s.img.limits s.lim.records }
    rw [sound_run first.2, onSnd_snd]
    exact ⟨slots.class1.trans first.1, slots.class3⟩

theorem evaluateLimits_requests (run : s.cfg.node = .run) (p : Limit → Bool) :
    (s.evaluateLimits p).snd.class1 = anyStop (s.evaluateLimits p).lim.records
      ∧ (s.evaluateLimits p).snd.class3 = cadence s.img.limits (s.evaluateLimits p).lim.records := by
  obtain ⟨v, same, lim, cfg, image⟩ := evaluateStates_before_sounds s p
  have sounds := limitSounds_requests (s := v) (by rw [cfg]; exact run)
  have img : v.img = s.img := by unfold State.img; rw [image]
  rw [← same, lim, img] at sounds
  rw [evaluateLimits_lim]
  refine evaluateLimits_cases (P := fun w => w.snd.class1 = anyStop (s.evaluateStates p).lim.records
    ∧ w.snd.class3 = cadence s.img.limits (s.evaluateStates p).lim.records) ?_ fun w hw => ?_
  · rw [(writeLimitDemands_touches _).snd rfl]
    exact sounds
  · obtain ⟨class1, class3⟩ := rebuild_requests w.offerStatusChange
    rw [(offerStatusChange_touches w).snd rfl] at class1 class3
    exact ⟨class1.trans hw.1, class3.trans hw.2⟩

/-- The period of an approach cadence lies between 100 and 799 ms (R59). -/
theorem cadence_range {b m : Int} (low : 0 < m) (high : m < b) : 100 ≤ 100 + (700 * m) / b ∧ 100 + (700 * m) / b ≤ 799 := by
  have nonneg : 0 ≤ (700 * m) / b := Int.ediv_nonneg (by omega) (by omega)
  have less : (700 * m) / b < 700 := Int.ediv_lt_of_lt_mul (by omega) (by omega)
  omega

end Sys2Proof.Laws
end

section
/-! The notices of an evaluation of limits and the events of the slew angle (R34, R54, R58, R66). -/

namespace Sys2Proof.Laws

open Sys2Proof.Machine Relation

-- Many short proofs at once would each hold a thread of the checking process.
set_option Elab.async false

variable {s t u : State} {p : Limit → Bool} {l : Limit}

/-! ## The notices of the limits -/

theorem evaluateStates_ntc (s : State) (p : Limit → Bool) : (s.evaluateStates p).ntc =
    (Limit.all.foldl (fun (t : State) l => t.stopNotice s.lim.records l)
      { s with lim := { s.lim with records := (s.evaluateStates p).lim.records } }).ntc := by
  have records : { s with lim := { s.lim with records := (s.evaluateStates p).lim.records } }
      = s.onLim fun u => { u with
        records := PerLimit.tabulate fun l => if p l then s.evaluateLimit l else s.lim.records.get l } := by
    rw [evaluateStates_lim]
    rfl
  rw [records]
  unfold State.evaluateStates
  exact (limitSounds_touches _).ntc rfl

/-- A limit's notice stands in the catalogue (R155). -/
theorem catalogue_limit (image : s.image.isSome = true) (l : Limit) : s.catalogue (0x30 + l.num) = some (.caution, .display) := by
  have held : s.image.isNone = false := by rw [Option.isNone_eq_false_iff]; exact image
  unfold State.catalogue
  rw [held]
  cases l <;> rfl

section
variable {old : PerLimit LimitRecord}

theorem stopNotice_raises (now : (s.lim.records.get l).state = .stop) (was : (old.get l).state ≠ .stop) {m : Int}
    (margin : (s.lim.records.get l).margin = some m) : s.stopNotice old l = s.raiseNotice (0x30 + l.num) none (.margin m) := by
  unfold State.stopNotice
  dsimp only
  rw [if_pos ⟨now, was⟩, margin]
  rfl

theorem stopNotice_clears (now : (s.lim.records.get l).state ≠ .stop) (was : (old.get l).state = .stop) :
    s.stopNotice old l = s.clearNotice (0x30 + l.num) := by
  unfold State.stopNotice
  dsimp only
  rw [if_neg fun h => now h.1, if_pos ⟨now, was⟩]

theorem stopNotice_still (same : (s.lim.records.get l).state = .stop ↔ (old.get l).state = .stop) : s.stopNotice old l = s := by
  unfold State.stopNotice
  dsimp only
  rw [if_neg fun h => h.2 (same.1 h.1), if_neg fun h => h.1 (same.2 h.2)]

end

/-! ## The slew events -/

/-- A state that differs from another in records of limits, in what a rebuild changes, and in the notices alone. -/
def LimitsMoved (s t : State) : Prop := t = { s with
  freeCount := t.freeCount, lim := { s.lim with records := t.lim.records }, rule := t.rule, vch := t.vch, eco := t.eco
  ntc := t.ntc, snd := t.snd, link := t.link }

theorem LimitsMoved.refl (s : State) : LimitsMoved s s := rfl

theorem LimitsMoved.trans (h : LimitsMoved s t) (k : LimitsMoved t u) : LimitsMoved s u := by
  unfold LimitsMoved at *
  rw [h] at k
  exact k

theorem rebuild_moved (s : State) : LimitsMoved s s.rebuild := by
  have frame := framed (rebuild_touches s)
  have lim : s.rebuild.lim = s.lim := (rebuild_touches s).lim rfl
  have free : s.rebuild.freeCount = s.freeCount := (rebuild_touches s).freeCount rfl
  unfold LimitsMoved
  rw [lim, free]
  exact frame

theorem evaluateLimits_moved (s : State) (p : Limit → Bool) : LimitsMoved s (s.evaluateLimits p) := by
  have frame := framed (evaluateLimits_touches s p)
  have lim : (s.evaluateLimits p).lim = { s.lim with records := (s.evaluateLimits p).lim.records } := by
    rw [evaluateLimits_lim, evaluateStates_lim]
  have free : (s.evaluateLimits p).freeCount = s.freeCount := (evaluateLimits_touches s p).freeCount rfl
  unfold LimitsMoved
  rw [← lim, free]
  exact frame

/-- An evaluation reads nothing that such a change touches. -/
theorem evaluateLimit_moved (h : LimitsMoved s t) (l : Limit) : t.evaluateLimit l = s.evaluateLimit l := by
  unfold LimitsMoved at h
  rw [h]
  cases l <;> rfl

/-- After a rebuild in RUN the key held is the zone key (R66). -/
theorem rebuild_zoneKey (run : s.cfg.node = .run) : s.rebuild.rule.key = some s.rebuild.zoneKey := by
  obtain ⟨-, rebuilds, -⟩ := winnerChangeReplaces
  obtain ⟨-, inRun⟩ := rebuilds s s.rebuild rfl
  obtain ⟨key, same, -⟩ := inRun run
  rw [key, same]

/-- Where no limit's state differs the key is as it was (R65). -/
theorem zoneKey_sameStates (frame : t = { s with
      lim := { s.lim with records := t.lim.records }, vch := t.vch, ntc := t.ntc, snd := t.snd, link := t.link })
    (same : statesDiffer s.lim.records t.lim.records = false) : t.zoneKey = s.zoneKey := by
  have near : ∀ l, t.lim.near l = s.lim.near l := fun l => by
    have e := List.any_eq_false.1 same l (limit_mem_all l)
    unfold LimitUnit.near
    rw [bne_iff_ne, ne_eq, not_not] at e
    rw [e]
  have read : t.lim.near .floor = s.lim.near .floor ∧ t.lim.near .ceiling = s.lim.near .ceiling
      ∧ t.lim.near .reach = s.lim.near .reach ∧ t.lim.near .slewLeft = s.lim.near .slewLeft
      ∧ t.lim.near .slewRight = s.lim.near .slewRight := ⟨near _, near _, near _, near _, near _⟩
  obtain ⟨floor, ceiling, reach, left, right⟩ := read
  unfold State.zoneKey
  rw [floor, ceiling, reach, left, right, frame]
  rfl

theorem written_frame (h : t = (s.evaluateStates p).writeLimitDemands) : t = { s with
    lim := { s.lim with records := t.lim.records }, vch := t.vch, ntc := t.ntc, snd := t.snd, link := t.link } := by
  have lim : t.lim = { s.lim with records := t.lim.records } := by
    rw [h, (writeLimitDemands_touches _).lim rfl, evaluateStates_lim]
  have touched : Touches { lim := true, vch := true, ntc := true, snd := true, link := true } s t :=
    h ▸ ((evaluateStates_touches s p).mono rfl).trans ((writeLimitDemands_touches _).mono rfl)
  rw [← lim]
  exact framed touched

/-- An evaluation keeps the key that is held: it rebuilds where a state differs (R66). -/
theorem evaluateLimits_key (run : s.cfg.node = .run) (p : Limit → Bool) (h : s.rule.key = some s.zoneKey) :
    (s.evaluateLimits p).rule.key = some (s.evaluateLimits p).zoneKey := by
  obtain ⟨t, ht⟩ : ∃ t, t = (s.evaluateStates p).writeLimitDemands := ⟨_, rfl⟩
  have frame := written_frame ht
  rw [evaluateLimits_eq, ← ht]
  split
  · refine rebuild_zoneKey ?_
    rw [(offerStatusChange_touches _).cfg rfl, frame]
    exact run
  · rename_i same
    have rule : t.rule = s.rule := by rw [frame]
    rw [zoneKey_sameStates frame (by simpa using same), rule, h]

/-- The two events of a slew arrival (R34, R54, R66). -/
def slewEvents : List (List (State → State)) := [[fun v => v.evaluateLimits isSlew], [State.rebuild]]

theorem slewEvents_iff {C : (State → State) → Prop} :
    (∀ thread ∈ slewEvents, ∀ event ∈ thread, C event) ↔ C (fun v => v.evaluateLimits isSlew) ∧ C State.rebuild := by
  simp [slewEvents]

/-- Before the slew limits are evaluated: RUN, and the other limits as they were. -/
def SlewOpen (s t : State) : Prop :=
  LimitsMoved s t ∧ ∀ l, isSlew l = false → t.lim.records.get l = s.lim.records.get l

theorem slewOpen_evaluate (h : SlewOpen s t) : SlewOpen s (t.evaluateLimits isSlew) := by
  refine ⟨h.1.trans (evaluateLimits_moved t _), fun l other => ?_⟩
  rw [evaluateLimits_record, other, if_neg (by decide)]
  exact h.2 l other

theorem slewOpen_rebuild (h : SlewOpen s t) : SlewOpen s t.rebuild := by
  refine ⟨h.1.trans (rebuild_moved t), fun l other => ?_⟩
  rw [(rebuild_touches t).lim rfl]
  exact h.2 l other

theorem slewOpen_free (n : Nat) (h : SlewOpen s t) : SlewOpen s { t with freeCount := n } :=
  ⟨h.1.trans rfl, h.2⟩

theorem slewOpen_node (h : SlewOpen s t) : t.cfg.node = s.cfg.node := by
  have frame := h.1
  unfold LimitsMoved at frame
  rw [frame]

/-- After the two events, in either order, the other limits stand and the slew limits are evaluated (R34, R54). -/
theorem slewEvents_records (s : State) : SlewOpen s (anyOrder slewEvents s)
    ∧ ∀ l, isSlew l = true → (anyOrder slewEvents s).lim.records.get l = s.evaluateLimit l := by
  refine ⟨anyOrder_keeps (fun _ n => slewOpen_free n) _ _
    (slewEvents_iff.2 ⟨fun _ => slewOpen_evaluate, fun _ => slewOpen_rebuild⟩) ⟨.refl s, fun _ _ => rfl⟩, ?_⟩
  refine anyOrder_reaches (P := SlewOpen s) (Q := fun t => ∀ l, isSlew l = true → t.lim.records.get l = s.evaluateLimit l)
    (e := fun v => v.evaluateLimits isSlew) (fun _ n => slewOpen_free n) (fun t n h => ⟨slewOpen_free n h.1, h.2⟩)
    (fun t h l slew => ?_) _ _ ⟨_, List.mem_cons_self .., List.mem_cons_self ..⟩
    (slewEvents_iff.2 ⟨fun _ => slewOpen_evaluate, fun _ => slewOpen_rebuild⟩)
    (slewEvents_iff.2 ⟨fun t h _ l slew => ?_, fun t _ hq l slew => ?_⟩) ⟨.refl s, fun _ _ => rfl⟩
  · rw [evaluateLimits_record, slew, if_pos rfl, evaluateLimit_moved h.1]
  · rw [evaluateLimits_record, slew, if_pos rfl, evaluateLimit_moved h.1]
  · rw [(rebuild_touches t).lim rfl]
    exact hq l slew

/-- After the two events, in either order, the key held is the zone key (R66). -/
theorem slewEvents_key (run : s.cfg.node = .run) :
    (anyOrder slewEvents s).rule.key = some (anyOrder slewEvents s).zoneKey := by
  have inRun : ∀ {t}, SlewOpen s t → t.cfg.node = .run := fun h => (slewOpen_node h).trans run
  refine anyOrder_reaches (P := SlewOpen s) (Q := fun t => t.rule.key = some t.zoneKey) (e := State.rebuild)
    (fun _ n => slewOpen_free n) (fun t n h => ⟨slewOpen_free n h.1, h.2⟩) (fun t h => rebuild_zoneKey (inRun h)) _ _
    ⟨[State.rebuild], by simp [slewEvents], List.mem_cons_self ..⟩
    (slewEvents_iff.2 ⟨fun _ => slewOpen_evaluate, fun _ => slewOpen_rebuild⟩)
    (slewEvents_iff.2 ⟨fun t h key => evaluateLimits_key (inRun h) _ key, fun t h _ => rebuild_zoneKey (inRun h)⟩)
    ⟨.refl s, fun _ _ => rfl⟩

theorem streamEvent_slew (run : s.cfg.node = .run) {e : Stream} (role : e.role = .slewAngle) (a c : Bool) :
    s.streamEvent e a c = if a then anyOrder slewEvents s else s := by
  unfold State.streamEvent
  rw [(inRun_iff s).2 run, role]
  rfl

/-- Settles O26: the demands, sounds and notices follow the records, and a slew arrival brings both of its events. -/
theorem stopAndFaultCut : Obligations.StopAndFaultCut := by
  refine ⟨fun s p run l c covers => ?_, fun s u p run hu => ?_, fun b m => cadence_range, fun s p => evaluateStates_ntc s p,
    fun s l image => catalogue_limit image l, fun s e a c run role => streamEvent_slew run role a c,
    fun s u e c run role hu => ?_, fun l => by cases l <;> decide,
    fun s old l => ⟨fun now was m => stopNotice_raises now was, stopNotice_clears, stopNotice_still⟩⟩
  · obtain ⟨limit, fail⟩ := evaluateLimits_demands run p c
    rw [limit, fail]
    exact ⟨limitDemand_stop covers, failDemand_fault _ covers, failDemand_none _⟩
  · obtain ⟨class1, class3⟩ := evaluateLimits_requests run p
    rw [← hu] at class1 class3
    rw [class1, class3]
    exact ⟨fun l => by rw [hu]; exact evaluateLimits_record s p l, anyStop_iff _, cadence_none, fun n => cadence_some⟩
  · obtain ⟨⟨-, others⟩, slews⟩ := slewEvents_records s
    have key := slewEvents_key run
    rw [streamEvent_slew run role, if_pos rfl] at hu
    rw [← hu] at others slews key
    exact ⟨slews .slewLeft rfl, slews .slewRight rfl, others .floor rfl, others .ceiling rfl, others .reach rfl, key⟩

end Sys2Proof.Laws
end

section
/-! HOLD_REQUEST: the table, the demands, the key, the chirp with its notice, and the response (R83, R90, R92, R93). -/

namespace Sys2Proof.Laws

open Sys2Proof.Machine Relation

-- Many short proofs at once would each hold a thread of the checking process.
set_option Elab.async false

variable {s t : State} {r : HoldRequest} {d : HoldDecision}

theorem takeFrame_eq (s : State) : s.takeFrame = { s with link := s.takeFrame.link } := framed (takeFrame_touches s)

theorem takeFrame_urgent (s : State) : s.takeFrame.link.urgent = s.link.urgent := rfl

/-- A table with an entry placed is active (R82). -/
theorem decideHold_placed {cfg : HoldConfig} {now : Ms} {h : HoldTable} (placed : (decideHold cfg now h r).placed = true) :
    (decideHold cfg now h r).table.active = true := by
  unfold decideHold at placed ⊢
  split at placed
  · cases placed
  rename_i levels
  rw [if_neg levels]
  split at placed
  · cases placed
  rename_i mask
  rw [if_neg mask]
  split at placed
  · unfold decideRelease at placed
    split at placed <;> cases placed
  rename_i time
  rw [if_neg time]
  unfold decidePlace at placed ⊢
  dsimp only at placed ⊢
  split at placed
  · cases placed
  rename_i new
  rw [if_neg new, active_iff]
  split
  · exact .inl (by simp)
  · exact .inr (by simp)

/-! ## In RUN -/

/-- The state after the table, the demands and the key, before the chirp and the notice (R92, R93). -/
def keyed (s : State) (d : HoldDecision) : State :=
  if d.table.active = s.hold.active then tableSet s fun _ => d.table else (tableSet s fun _ => d.table).rebuild

theorem changeHold_keyed (s : State) (d : HoldDecision) : s.changeHold (fun _ => d.table)
    = if s.hold.active = true ∧ d.table.active = false then (keyed s d).clearNotice 0x38 else keyed s d := by
  rw [changeHold_eq]
  unfold keyed
  split
  · rename_i emptied
    rw [if_neg (by rw [emptied.1, emptied.2]; decide)]
  · rfl

theorem keyed_agrees (s : State) (d : HoldDecision) : AgreeOutsideLimits (tableSet s fun _ => d.table) (keyed s d) := by
  unfold keyed
  split
  · exact agree_refl _
  · exact rebuild_agrees _

theorem keyed_touches (s : State) (d : HoldDecision) : Touches (ruleBlocks.or { hold := true }) s (keyed s d) := by
  have set : Touches (ruleBlocks.or { hold := true }) s (tableSet s fun _ => d.table) := (tableSet_touches s _).mono rfl
  unfold keyed
  exact .ite set (set.trans ((rebuild_touches _).mono rfl))

theorem holdPlaced_touches (s : State) (r : HoldRequest) : Touches noticeBlocks s (s.holdPlaced r) :=
  ((sound_touches s _).mono rfl).trans (raiseNotice_touches _ _ _ _)

/-- The state before the response of a request taken in RUN (R93). -/
def told (s : State) (r : HoldRequest) (d : HoldDecision) : State :=
  if d.placed then (keyed s d).holdPlaced r
  else if s.hold.active = true ∧ d.table.active = false then (keyed s d).clearNotice 0x38 else keyed s d

theorem takeHold_run (run : s.cfg.node = .run) (other : r.requester ≠ 0xFE ∧ r.requester ≠ 0xFF)
    (hd : d = decideHold s.img.holds s.now s.hold r) : s.takeHold r = (told s r d).holdResponse r d := by
  have taken : s.takeHold r = (if d.placed then (s.changeHold fun _ => d.table).holdPlaced r
      else s.changeHold fun _ => d.table).holdResponse r d := by
    unfold State.takeHold
    rw [if_neg (by tauto), run, hd]
  rw [taken, changeHold_keyed]
  unfold told
  split
  · rename_i placed
    have active : d.table.active = true := by
      rw [hd] at placed ⊢
      exact decideHold_placed placed
    rw [if_neg (by rw [active]; simp)]
  · rfl

theorem told_touches (s : State) (r : HoldRequest) (d : HoldDecision) : Touches noticeBlocks (keyed s d) (told s r d) := by
  unfold told
  exact .ite (holdPlaced_touches _ r) (.ite (clearNotice_touches _ _) (.refl _ _))

theorem told_hold (s : State) (r : HoldRequest) (d : HoldDecision) : (told s r d).hold = d.table := by
  rw [(told_touches s r d).hold rfl, agree_hold (keyed_agrees s d), tableSet_hold]

theorem told_demand (run : s.cfg.node = .run) (r : HoldRequest) (d : HoldDecision) (c : Channel) :
    ((told s r d).vch.get c).hold = d.table.demand c := by
  rw [(told_touches s r d).vch rfl, agree_holdDemand (keyed_agrees s d), tableSet_get run]

/-- A request leaves the work mode and the profile (R93). -/
theorem told_kept (s : State) (r : HoldRequest) (d : HoldDecision) :
    (told s r d).eco.mode = s.eco.mode ∧ (told s r d).rule.profile = s.rule.profile := by
  rw [(told_touches s r d).eco rfl, (told_touches s r d).rule rfl, agree_mode (keyed_agrees s d),
    agree_profile (keyed_agrees s d), (tableSet_touches s _).eco rfl, (tableSet_touches s _).rule rfl]
  exact ⟨rfl, rfl⟩

theorem holdResponse_touches (s : State) (r : HoldRequest) (d : HoldDecision) : Touches { link := true } s (s.holdResponse r d) :=
  offer_touches s _ _ _ _

theorem holdResponse_last (takes : takesOffer s.cfg.node .holdResponse = true) (r : HoldRequest) (d : HoldDecision) :
    LastUrgent (s.holdResponse r d).link .holdResponse r.requester
      (holdResultBytes d.result ++ [d.mask.setWidth 8] ++ be2 d.granted ++ be2 d.held ++ [byteOf r.reason]) :=
  offer_lastUrgent takes rfl _ _

/-- The chirp and the notice of a placing, written out (R93). -/
theorem holdPlaced_eq (run : s.cfg.node = .run) (r : HoldRequest) : s.holdPlaced r =
    State.raiseNotice { s with snd := sndPlaceOneShot s.now ⟨5, false, 0⟩ s.snd } 0x38 none
      (.hold r.requester r.reason s.hold.entries.length s.hold.overflow.isSome) := by
  unfold State.holdPlaced
  rw [sound_run run]
  rfl

/-! ## By the node state -/

theorem takeHold_broadcast (h : r.requester = 0xFE ∨ r.requester = 0xFF) : s.takeHold r = s := if_pos h

/-- In JOIN and STORE a request is refused STATE (R83). -/
theorem takeHold_waiting (other : r.requester ≠ 0xFE ∧ r.requester ≠ 0xFF) (h : s.cfg.node = .join ∨ s.cfg.node = .store) :
    s.takeHold r = s.holdResponse r ⟨s.hold, .refused .state, 0, 0, 0, false⟩ := by
  unfold State.takeHold
  rw [if_neg (by tauto)]
  rcases h with h | h <;> rw [h]

/-- What the state as it is, a request taken in RUN and a response give, a request gives. -/
theorem takeHold_cases {P : State → Prop} (still : P s)
    (taken : s.cfg.node = .run → ∀ d, P ((told s r d).holdResponse r d)) (refused : ∀ d, P (s.holdResponse r d)) :
    P (s.takeHold r) := by
  by_cases other : r.requester = 0xFE ∨ r.requester = 0xFF
  · rw [takeHold_broadcast other]
    exact still
  · cases node : s.cfg.node with
    | run =>
      rw [takeHold_run node (by tauto) rfl]
      exact taken node _
    | join => rw [takeHold_waiting (by tauto) (.inl node)]; exact refused _
    | store => rw [takeHold_waiting (by tauto) (.inr node)]; exact refused _
    | startRead | configFault | recordRead | quiet =>
      have same : s.takeHold r = s := by
        unfold State.takeHold
        rw [if_neg other, node]
      rw [same]
      exact still

/-- Settles O32: the request by its source and the node state. -/
theorem holdRequestTaken : Obligations.HoldRequestTaken := by
  intro s f r head hr
  have requester : r.requester = f.source := by rw [hr]; rfl
  have frame := takeFrame_touches s
  have node : s.takeFrame.cfg.node = s.cfg.node := congrArg Cfg.node (frame.cfg rfl)
  have decided : decideHold s.takeFrame.img.holds s.takeFrame.now s.takeFrame.hold r = decideHold s.img.holds s.now s.hold r := by
    unfold State.img
    rw [frame.image rfl, frame.now rfl, frame.hold rfl]
  have inRun : f.source ≠ 0xFE → f.source ≠ 0xFF → s.cfg.node = .run → s.takeFrame.takeHold r =
      (told s.takeFrame r (decideHold s.img.holds s.now s.hold r)).holdResponse r (decideHold s.img.holds s.now s.hold r) :=
    fun ne ne' run => takeHold_run (node.trans run) (by rw [requester]; exact ⟨ne, ne'⟩) decided.symm
  refine ⟨s.takeFrame.takeHold r, ?_, fun ne ne' run => ?_, fun ne ne' waits => ?_, fun d hd ne ne' run => ?_,
    fun image => ?_, active_iff, fun broadcast => ?_, ?_, ?_, ?_⟩
  · show execHoldRequest s = _
    unfold execHoldRequest
    rw [head, hr]
  · rw [inRun ne ne' run, (holdResponse_touches _ _ _).hold rfl, (holdResponse_touches _ _ _).vch rfl, told_hold, ← requester]
    refine ⟨rfl, told_demand (node.trans run) r _, holdResponse_last (takesOffer_run ?_) r _⟩
    rw [(told_touches _ _ _).cfg rfl, (keyed_touches _ _).cfg rfl]
    exact node.trans run
  · rw [takeHold_waiting (by rw [requester]; exact ⟨ne, ne'⟩) (by rw [node]; exact waits), ← requester]
    obtain ⟨g, last, kind, destination, data⟩ := holdResponse_last (s := s.takeFrame)
      (by rw [node]; exact takesOffer_waiting waits) r ⟨s.takeFrame.hold, .refused .state, 0, 0, 0, false⟩
    have zero : be2 ((0 : Nat) : Int) = [0, 0] := by decide
    refine ⟨framed (frame.trans (holdResponse_touches _ r _)), g, last, kind, destination, data.trans ?_⟩
    dsimp only
    rw [zero]
    rfl
  · rw [inRun ne ne' run, ← hd]
    have run' : s.takeFrame.cfg.node = .run := node.trans run
    refine ⟨tableSet s.takeFrame fun _ => d.table, keyed s.takeFrame d, told s.takeFrame r d, ?_, fun c => ?_, ?_, ?_,
      framed (holdResponse_touches _ r d)⟩
    · exact (tableSet_eq s.takeFrame fun _ => d.table).trans (by rw [takeFrame_eq s])
    · rw [tableSet_get run', frame.vch rfl]
    · unfold keyed
      rw [frame.hold rfl]
    · unfold told
      have keyedRun : (keyed s.takeFrame d).cfg.node = .run := by rw [(keyed_touches _ _).cfg rfl]; exact run'
      have keyedHold : (keyed s.takeFrame d).hold = d.table := by
        rw [agree_hold (keyed_agrees _ d), tableSet_hold]
      have keyedNow : (keyed s.takeFrame d).now = s.now := by rw [(keyed_touches _ _).now rfl, frame.now rfl]
      rw [holdPlaced_eq keyedRun, keyedHold, keyedNow, requester, frame.hold rfl]
  · have held : s.image.isNone = false := by rw [Option.isNone_eq_false_iff]; exact image
    unfold State.catalogue
    rw [held]
    rfl
  · rw [takeHold_broadcast (by rw [requester]; exact broadcast)]
    exact ⟨takeFrame_eq s, takeFrame_urgent s⟩
  · have mode : s.takeFrame.eco.mode = s.eco.mode := congrArg Eco.mode (frame.eco rfl)
    refine takeHold_cases (P := fun u => u.eco.mode = s.eco.mode) mode (fun _ d => ?_) fun d => ?_
    · rw [(holdResponse_touches _ r d).eco rfl, (told_kept _ r d).1, mode]
    · rw [(holdResponse_touches _ r d).eco rfl, mode]
  · have profile : s.takeFrame.rule.profile = s.rule.profile := congrArg RuleUnit.profile (frame.rule rfl)
    refine takeHold_cases (P := fun u => u.rule.profile = s.rule.profile) profile (fun _ d => ?_) fun d => ?_
    · rw [(holdResponse_touches _ r d).rule rfl, (told_kept _ r d).2, profile]
    · rw [(holdResponse_touches _ r d).rule rfl, profile]
  · have touched : Touches (ruleBlocks.or { hold := true }) s (s.takeFrame.takeHold r) :=
      takeHold_cases (P := fun u => Touches (ruleBlocks.or { hold := true }) s u) (frame.mono rfl)
        (fun _ d => (((frame.mono rfl).trans (keyed_touches _ d)).trans ((told_touches _ r d).mono rfl)).trans
          ((holdResponse_touches _ r d).mono rfl))
        fun d => (frame.mono rfl).trans ((holdResponse_touches _ r d).mono rfl)
    exact framed touched

end Sys2Proof.Laws
end

section
/-! The target speed formed with the derate flag, and the notices of the service items that an evaluation raises (R129, R144 to
R147, R154). -/

namespace Sys2Proof.Laws

open Sys2Proof.Machine Relation

-- Many short proofs at once would each hold a thread of the checking process.
set_option Elab.async false

variable {s t u : State}

/-! ## The target speed -/

/-- ECO's target is the one formed of its mode and caps with a derate flag (R129). -/
def TargetFormed (s : State) (derate : Bool) (e : Eco) : Prop := e.target = e.formTarget s.img.economy derate

theorem reform_target (s : State) : TargetFormed s s.svc.derate s.reform.eco := by
  rw [reform_eco]
  rfl

theorem enterEco_target (s : State) (st : EcoState) : TargetFormed s s.svc.derate (s.enterEco st).eco := reform_target (s.onEco _)

theorem enterWork_target (s : State) : TargetFormed s s.svc.derate s.enterWork.eco := by
  have entered := enterEco_touches s .work
  unfold State.enterWork
  dsimp only
  split
  · have waits := enterEco_target (s.enterEco .work) .neutralWait
    unfold TargetFormed State.img at waits ⊢
    rw [entered.image rfl, entered.svc rfl] at waits
    exact waits
  · exact enterEco_target s .work

theorem recoveryTest_target (h : TargetFormed s s.svc.derate s.eco) : TargetFormed s s.svc.derate s.recoveryTest.eco := by
  have cleared := clearNotice_touches s 0x73
  unfold State.recoveryTest
  split
  · have worked := enterWork_target (s.clearNotice 0x73)
    unfold TargetFormed State.img at worked ⊢
    rw [cleared.image rfl, cleared.svc rfl] at worked
    exact worked
  · exact h

/-- After a change of the mode, the caps or the derate flag the target is formed of them (R116, R121, R129). -/
theorem reformTarget_target (s : State) : TargetFormed s s.svc.derate s.reformTarget.eco := by
  have touched := reform_touches s
  have formed := reform_target s
  unfold State.reformTarget
  dsimp only
  split
  · exact formed
  · have kept : TargetFormed s.reform s.reform.svc.derate s.reform.eco := by
      unfold TargetFormed State.img at formed ⊢
      rw [touched.image rfl, touched.svc rfl]
      exact formed
    have tested := recoveryTest_target kept
    unfold TargetFormed State.img at tested ⊢
    rw [touched.image rfl, touched.svc rfl] at tested
    exact tested

/-! ## The one notice of ECO -/

theorem reform_ntc (s : State) : s.reform.ntc = s.ntc := (reform_touches s).ntc rfl

theorem enterEco_ntc (s : State) (st : EcoState) : (s.enterEco st).ntc = s.ntc := reform_ntc (s.onEco _)

theorem enterNeutralWait_ntc (s : State) : s.enterNeutralWait.ntc = s.ntc := enterEco_ntc s .neutralWait

theorem enterWork_ntc (s : State) : s.enterWork.ntc = s.ntc := by
  unfold State.enterWork
  dsimp only
  split
  · rw [enterNeutralWait_ntc, enterEco_ntc]
  · exact enterEco_ntc s .work

/-- The test of RECOVER leaves NTC, or clears 0x73 (R126). -/
theorem recoveryTest_ntc (s : State) : s.recoveryTest.ntc = s.ntc ∨ s.recoveryTest.ntc = (s.clearNotice 0x73).ntc := by
  unfold State.recoveryTest
  split
  · exact .inr (enterWork_ntc _)
  · exact .inl rfl

/-- A law of the held notices that a clear of 0x73 keeps is kept where the target is formed again. -/
theorem reformTarget_keeps {P : Ntc → Prop} (clear : ∀ v : State, v.ntc = s.ntc → P (v.clearNotice 0x73).ntc) (h : P s.ntc) :
    P s.reformTarget.ntc := by
  unfold State.reformTarget
  dsimp only
  split
  · rw [reform_ntc]
    exact h
  · rcases recoveryTest_ntc s.reform with e | e <;> rw [e]
    · rw [reform_ntc]
      exact h
    · exact clear _ (reform_ntc s)

/-- Every other notice stands as it was (R126). -/
theorem reformTarget_others (h : Ordered s.ntc) {x : NoticeRecord} (other : x.id ≠ 0x73) :
    x ∈ cores s.reformTarget.ntc ↔ x ∈ cores s.ntc :=
  reformTarget_keeps (P := fun n => x ∈ cores n ↔ x ∈ cores s.ntc)
    (fun v e => by rw [clearNotice_others (by rw [e]; exact h) other, e]) Iff.rfl

/-! ## The derate flag -/

theorem formDerate_same (h : derateOf s.svc.items = s.svc.derate) : s.formDerate = s := if_pos h

theorem formDerate_changed (h : derateOf s.svc.items ≠ s.svc.derate) :
    s.formDerate = (s.onSvc fun v => { v with derate := derateOf s.svc.items }).derateEvent := if_neg h

theorem derateEvent_run (run : s.cfg.node = .run) : s.derateEvent = s.reformTarget := if_pos ((inRun_iff s).2 run)

theorem formDerate_svc (s : State) : s.formDerate.svc = { s.svc with derate := derateOf s.svc.items } := by
  by_cases h : derateOf s.svc.items = s.svc.derate
  · rw [formDerate_same h, h]
  · rw [formDerate_changed h, (derateEvent_touches _).svc rfl]
    rfl

theorem derateOf_iff (items : List ServiceItem) :
    derateOf items = true ↔ ∃ i ∈ items, i.config.derate = true ∧ i.state = .overdue := by
  unfold derateOf
  rw [List.any_eq_true]
  simp

/-- A change of the flag in RUN forms the target (R147, R129). -/
theorem formDerate_target (run : s.cfg.node = .run) (changed : s.formDerate.svc.derate ≠ s.svc.derate) :
    s.formDerate.eco.target = s.formDerate.eco.formTarget s.img.economy s.formDerate.svc.derate := by
  have differs : derateOf s.svc.items ≠ s.svc.derate := by
    rw [formDerate_svc] at changed
    exact changed
  have formed := reformTarget_target (s.onSvc fun v => { v with derate := derateOf s.svc.items })
  rw [formDerate_svc, formDerate_changed differs, derateEvent_run (by exact run)]
  exact formed

theorem formDerate_still (same : s.formDerate.svc.derate = s.svc.derate) : s.formDerate = s := by
  rw [formDerate_svc] at same
  exact formDerate_same same

/-- Every notice but 0x73 stands as it was. -/
theorem formDerate_others (h : Ordered s.ntc) {x : NoticeRecord} (other : x.id ≠ 0x73) :
    x ∈ cores s.formDerate.ntc ↔ x ∈ cores s.ntc := by
  by_cases same : derateOf s.svc.items = s.svc.derate
  · rw [formDerate_same same]
  · rw [formDerate_changed same]
    unfold State.derateEvent
    split
    · exact reformTarget_others (s := s.onSvc _) h other
    · exact Iff.rfl

theorem formDerate_ordered (h : Ordered s.ntc) : Ordered s.formDerate.ntc := by
  by_cases same : derateOf s.svc.items = s.svc.derate
  · rw [formDerate_same same]
    exact h
  · rw [formDerate_changed same]
    exact acts_ordered (derateEvent_acts _) (by exact h)

/-! ## The notices of the items -/

/-- The detail of a service item's notice (R145). -/
def itemDetail (v : Svc) (i : ServiceItem) : Detail :=
  .service i.config.name i.state (i.inReport (v.reading i)) (i.inReport i.duePoint)

theorem raiseItem_some {i : ServiceItem} {v : Severity} (h : itemSeverity i.state = some v) :
    s.raiseItem i = s.raiseNotice i.config.number (some v) (itemDetail s.svc i) := by
  unfold State.raiseItem
  rw [h]
  rfl

theorem raiseItem_none {i : ServiceItem} (h : itemSeverity i.state = none) : s.raiseItem i = s := by
  unfold State.raiseItem
  rw [h]

/-- A service id stands in the catalogue (R155). -/
theorem catalogue_service {n : Nat} (image : s.image.isSome = true) (low : 1 ≤ n) (high : n ≤ 16) :
    ∃ route, s.catalogue n = some (.info, route) := by
  have held : s.image.isNone = false := by rw [Option.isNone_eq_false_iff]; exact image
  unfold State.catalogue
  rw [held, if_neg (by decide), if_pos (by omega)]
  exact ⟨_, rfl⟩

theorem raiseItem_ordered (i : ServiceItem) (h : Ordered s.ntc) : Ordered (s.raiseItem i).ntc := by
  unfold State.raiseItem
  split
  · exact h
  · exact raiseNotice_ordered _ _ _ h

theorem raiseItem_others {i : ServiceItem} (h : Ordered s.ntc) {x : NoticeRecord} (other : x.id ≠ i.config.number) :
    x ∈ cores (s.raiseItem i).ntc ↔ x ∈ cores s.ntc := by
  unfold State.raiseItem
  split
  · exact Iff.rfl
  · exact raiseNotice_others h _ other

/-- A notice of an item is held: of its state's severity at least, and of it where none of its id was held (R145; log 18). -/
def ItemHeld (before after : Ntc) (i : ServiceItem) (v : Severity) (d : Detail) : Prop :=
  ∃ r ∈ after.held, r.id = i.config.number ∧ v.rank ≤ r.severity.rank ∧ r.detail = d
    ∧ ((∀ x ∈ before.held, x.id ≠ i.config.number) → r.severity = v)

theorem held_absent_congr {n m : Ntc} {id : Nat} (same : ∀ x : NoticeRecord, x.id = id → (x ∈ cores m ↔ x ∈ cores n))
    (absent : ∀ x ∈ n.held, x.id ≠ id) : ∀ x ∈ m.held, x.id ≠ id := by
  intro x hx e
  obtain ⟨y, hy, c⟩ := mem_cores.1 ((same (core x) e).1 (mem_cores.2 ⟨x, hx, rfl⟩))
  exact absent y hy ((core_eq c).1.trans e)

/-- What leaves the item's id as it is keeps its notice held. -/
theorem ItemHeld.after_congr {n m m' : Ntc} {i : ServiceItem} {v : Severity} {d : Detail} (h : ItemHeld n m i v d)
    (same : ∀ x : NoticeRecord, x.id = i.config.number → (x ∈ cores m' ↔ x ∈ cores m)) : ItemHeld n m' i v d := by
  obtain ⟨r, mem, id, rank, detail, new⟩ := h
  obtain ⟨y, hy, c⟩ := mem_cores.1 ((same (core r) id).2 (mem_cores.2 ⟨r, mem, rfl⟩))
  obtain ⟨yId, severity, -, yDetail, -⟩ := core_eq c
  exact ⟨y, hy, yId.trans id, by rw [severity]; exact rank, yDetail.trans detail, fun absent => severity.trans (new absent)⟩

theorem ItemHeld.before_congr {n n' m : Ntc} {i : ServiceItem} {v : Severity} {d : Detail} (h : ItemHeld n m i v d)
    (same : ∀ x : NoticeRecord, x.id = i.config.number → (x ∈ cores n ↔ x ∈ cores n')) : ItemHeld n' m i v d := by
  obtain ⟨r, mem, id, rank, detail, new⟩ := h
  exact ⟨r, mem, id, rank, detail, fun absent => new (held_absent_congr same absent)⟩

theorem raiseItem_held {i : ServiceItem} {v : Severity} (run : s.cfg.node = .run) (image : s.image.isSome = true)
    (h : Ordered s.ntc) (low : 1 ≤ i.config.number) (high : i.config.number ≤ 16) (severity : itemSeverity i.state = some v) :
    ItemHeld s.ntc (s.raiseItem i).ntc i v (itemDetail s.svc i) := by
  obtain ⟨route, listed⟩ := catalogue_service image low high
  obtain ⟨r, mem, id, detail, rank, new⟩ := raiseNotice_holds (sv := some v) (d := itemDetail s.svc i) run listed h
  rw [raiseItem_some severity]
  exact ⟨r, mem, id, rank, detail, new⟩

/-- Items raised one after another: each holds its notice, and every id that is none of theirs is as it was (R145, R154). -/
theorem raiseItems_held (is : List ServiceItem) (run : s.cfg.node = .run) (image : s.image.isSome = true) (h : Ordered s.ntc)
    (once : (is.map (·.config.number)).Nodup) : Ordered (is.foldl State.raiseItem s).ntc
      ∧ (∀ x : NoticeRecord, (∀ i ∈ is, x.id ≠ i.config.number) →
          (x ∈ cores (is.foldl State.raiseItem s).ntc ↔ x ∈ cores s.ntc))
      ∧ ∀ i ∈ is, 1 ≤ i.config.number → i.config.number ≤ 16 → ∀ v, itemSeverity i.state = some v →
          ItemHeld s.ntc (is.foldl State.raiseItem s).ntc i v (itemDetail s.svc i) := by
  induction is generalizing s with
  | nil => exact ⟨h, fun _ _ => Iff.rfl, fun _ mem => absurd mem List.not_mem_nil⟩
  | cons j js ih =>
    have touched := raiseItem_touches s j
    obtain ⟨fresh, rest⟩ := List.nodup_cons.1 once
    have others : ∀ i ∈ js, i.config.number ≠ j.config.number := fun i mem e =>
      fresh (List.mem_map.2 ⟨i, mem, e⟩)
    obtain ⟨ordered, kept, held⟩ := ih (s := s.raiseItem j) (by rw [touched.cfg rfl]; exact run)
      (by rw [touched.image rfl]; exact image) (raiseItem_ordered j h) rest
    refine ⟨ordered, fun x absent => ?_, fun i mem low high v severity => ?_⟩
    · rw [List.foldl_cons, kept x fun i mem => absent i (List.mem_cons_of_mem _ mem)]
      exact raiseItem_others h (absent j (List.mem_cons_self ..))
    · rw [List.foldl_cons]
      rcases List.mem_cons.1 mem with rfl | later
      · refine (raiseItem_held run image h low high severity).after_congr fun x id => kept x fun i' mem' e => ?_
        exact others i' mem' (e.symm.trans id)
      · have later_held := held i later low high v severity
        rw [touched.svc rfl] at later_held
        exact later_held.before_congr fun x id => raiseItem_others h (by rw [id]; exact others i later)

theorem raiseItems_touches (is : List ServiceItem) (s : State) : Touches noticeBlocks s (is.foldl State.raiseItem s) :=
  Touches.foldl raiseItem_touches is s

/-- Items with nothing to tell raise nothing. -/
theorem raiseItems_quiet (is : List ServiceItem) (h : ∀ i ∈ is, itemSeverity i.state = none) : is.foldl State.raiseItem s = s := by
  induction is with
  | nil => rfl
  | cons j js ih =>
    rw [List.foldl_cons, raiseItem_none (h j (List.mem_cons_self ..))]
    exact ih fun i mem => h i (List.mem_cons_of_mem _ mem)

theorem raiseItems_out (is : List ServiceItem) (out : s.inRun = false) : is.foldl State.raiseItem s = s := by
  induction is with
  | nil => rfl
  | cons j js ih =>
    rw [List.foldl_cons, raiseItem_out out]
    exact ih

end Sys2Proof.Laws
end

section
/-! An evaluation of the service items (R142 to R147), and the dig cycle detector that brings one (R141). -/

namespace Sys2Proof.Laws

open Sys2Proof.Machine Relation

-- Many short proofs at once would each hold a thread of the checking process.
set_option Elab.async false

variable {s t u : State}

/-! ## The items after an evaluation -/

/-- An item after an evaluation of those that `p` selects. -/
def evaluatedBy (v : Svc) (p : ServiceItem → Bool) (i : ServiceItem) : ServiceItem := if p i then evaluated v i else i

/-- The items that rise, in the order of their numbers. -/
def risingItems (v : Svc) (p : ServiceItem → Bool) : List ServiceItem :=
  (v.items.filter p).filter fun i => itemStateCode i.state < itemStateCode (evaluated v i).state

/-- The state with the items evaluated, before anything is told. -/
def itemsFormed (s : State) (p : ServiceItem → Bool) : State :=
  { s with svc := { s.svc with items := s.svc.items.map (evaluatedBy s.svc p) } }

/-- The rises told, before the derate flag. -/
def risesTold (s : State) (p : ServiceItem → Bool) : State :=
  ((risingItems s.svc p).map (evaluated s.svc)).foldl State.raiseItem (itemsFormed s p)

theorem evaluate_eq (s : State) (p : ServiceItem → Bool) : s.evaluate p = (risesTold s p).formDerate := by
  unfold risesTold
  rw [List.foldl_map]
  rfl

theorem risesTold_touches (s : State) (p : ServiceItem → Bool) : Touches noticeBlocks (itemsFormed s p) (risesTold s p) :=
  raiseItems_touches _ _

theorem risesTold_svc (s : State) (p : ServiceItem → Bool) :
    (risesTold s p).svc = { s.svc with items := s.svc.items.map (evaluatedBy s.svc p) } := (risesTold_touches s p).svc rfl

theorem evaluate_svc (s : State) (p : ServiceItem → Bool) : (s.evaluate p).svc = { s.svc with
    items := s.svc.items.map (evaluatedBy s.svc p), derate := derateOf (s.svc.items.map (evaluatedBy s.svc p)) } := by
  rw [evaluate_eq, formDerate_svc, risesTold_svc]

theorem evaluatedBy_config (v : Svc) (p : ServiceItem → Bool) (i : ServiceItem) : (evaluatedBy v p i).config = i.config := by
  unfold evaluatedBy
  split <;> rfl

theorem mem_risingItems {v : Svc} {p : ServiceItem → Bool} {i : ServiceItem} : i ∈ risingItems v p ↔
    i ∈ v.items ∧ p i = true ∧ itemStateCode i.state < itemStateCode (i.stateAt (v.reading i)) := by
  unfold risingItems
  rw [List.mem_filter, List.mem_filter, decide_eq_true_iff, and_assoc]
  exact Iff.rfl

theorem risingItems_once {v : Svc} (once : (v.items.map (·.config.number)).Nodup) (p : ServiceItem → Bool) :
    (((risingItems v p).map (evaluated v)).map (·.config.number)).Nodup := by
  rw [List.map_map]
  exact (((List.filter_sublist).trans List.filter_sublist).map _).nodup once

/-! ## The derate flag beside the rest of the state -/

/-- A change of the flag leaves what a limit item leaves. -/
theorem formDerate_agrees (s : State) :
    AgreeOutsideLimits { s with svc := { s.svc with derate := derateOf s.svc.items } } s.formDerate := by
  by_cases same : derateOf s.svc.items = s.svc.derate
  · rw [formDerate_same same, same]
    exact agree_refl s
  · rw [formDerate_changed same]
    exact acts_agree (derateEvent_acts _)

theorem agree_fuelTotal (h : AgreeOutsideLimits s t) : t.eco.fuelTotal = s.eco.fuelTotal := by
  obtain ⟨-, -, -, -, eco, -⟩ := h
  rw [eco]

theorem formDerate_fuelTotal (s : State) : s.formDerate.eco.fuelTotal = s.eco.fuelTotal :=
  (agree_fuelTotal (formDerate_agrees s)).trans rfl

theorem formDerate_mode (s : State) : s.formDerate.eco.mode = s.eco.mode :=
  (agree_mode (formDerate_agrees s)).trans rfl

theorem evaluate_fuelTotal (s : State) (p : ServiceItem → Bool) : (s.evaluate p).eco.fuelTotal = s.eco.fuelTotal := by
  rw [evaluate_eq, formDerate_fuelTotal, (risesTold_touches s p).eco rfl]
  rfl

/-! ## What an evaluation tells -/

/-- The notices of some items are held, and no other id but that of ECO's notice is touched (R145, R126). -/
structure ItemsTold (before after : Ntc) (v : Svc) (is : List ServiceItem) : Prop where
  ordered : Ordered after
  others : ∀ x : NoticeRecord, (∀ i ∈ is, x.id ≠ i.config.number) → x.id ≠ 0x73 → (x ∈ cores after ↔ x ∈ cores before)
  held : ∀ i ∈ is, 1 ≤ i.config.number → i.config.number ≤ 16 → ∀ sv, itemSeverity i.state = some sv →
    ItemHeld before after i sv (itemDetail v i)

/-- Items raised, then the derate flag formed. -/
theorem raiseItems_formDerate (is : List ServiceItem) (run : s.cfg.node = .run) (image : s.image.isSome = true) (h : Ordered s.ntc)
    (once : (is.map (·.config.number)).Nodup) :
    ItemsTold s.ntc (is.foldl State.raiseItem s).formDerate.ntc s.svc is := by
  obtain ⟨ordered, others, held⟩ := raiseItems_held is run image h once
  refine ⟨formDerate_ordered ordered, fun x absent other => ?_, fun i mem low high v severity => ?_⟩
  · rw [formDerate_others ordered other]
    exact others x absent
  · refine (held i mem low high v severity).after_congr fun x id => formDerate_others ordered ?_
    omega

/-- Items raised after the derate flag. -/
theorem formDerate_raiseItems (is : List ServiceItem) (run : s.cfg.node = .run) (image : s.image.isSome = true) (h : Ordered s.ntc)
    (once : (is.map (·.config.number)).Nodup) :
    ItemsTold s.ntc (is.foldl State.raiseItem s.formDerate).ntc s.formDerate.svc is := by
  have touched := formDerate_touches s
  obtain ⟨ordered, others, held⟩ := raiseItems_held (s := s.formDerate) is (by rw [touched.cfg rfl]; exact run)
    (by rw [touched.image rfl]; exact image) (formDerate_ordered h) once
  refine ⟨ordered, fun x absent other => ?_, fun i mem low high v severity => ?_⟩
  · rw [others x absent]
    exact formDerate_others h other
  · refine (held i mem low high v severity).before_congr fun x id => formDerate_others h ?_
    omega

/-- The reading of an item is of its basis and the counters. -/
theorem reading_congr {v w : Svc} {i j : ServiceItem} (config : j.config = i.config) (engine : w.engineSeconds = v.engineSeconds)
    (weighted : w.weighted = v.weighted) (cycles : w.cycles = v.cycles) : w.reading j = v.reading i := by
  have basis : j.basis = i.basis := by
    unfold ServiceItem.basis
    rw [config]
  unfold Svc.reading
  rw [basis, engine, weighted, cycles]

theorem itemDetail_congr {v w : Svc} {i : ServiceItem} (engine : w.engineSeconds = v.engineSeconds)
    (weighted : w.weighted = v.weighted) (cycles : w.cycles = v.cycles) : itemDetail w i = itemDetail v i := by
  unfold itemDetail
  rw [reading_congr rfl engine weighted cycles]

theorem ItemsTold.congr {before after : Ntc} {v w : Svc} {is : List ServiceItem} (h : ItemsTold before after w is)
    (engine : w.engineSeconds = v.engineSeconds) (weighted : w.weighted = v.weighted) (cycles : w.cycles = v.cycles) :
    ItemsTold before after v is where
  ordered := h.ordered
  others := h.others
  held i mem low high sv severity := by
    rw [← itemDetail_congr engine weighted cycles]
    exact h.held i mem low high sv severity

theorem evaluate_told (p : ServiceItem → Bool) (run : s.cfg.node = .run) (image : s.image.isSome = true) (h : Ordered s.ntc)
    (once : (s.svc.items.map (·.config.number)).Nodup) :
    ItemsTold s.ntc (s.evaluate p).ntc s.svc ((risingItems s.svc p).map (evaluated s.svc)) := by
  rw [evaluate_eq]
  exact (raiseItems_formDerate (s := itemsFormed s p) _ run image h (risingItems_once once p)).congr rfl rfl rfl

/-! ## The statement of an evaluation -/

/-- An evaluation keeps ECO where it keeps the flag. -/
theorem evaluate_still (p : ServiceItem → Bool) (same : (s.evaluate p).svc.derate = s.svc.derate) :
    s.evaluate p = risesTold s p := by
  have kept : (risesTold s p).formDerate.svc.derate = (risesTold s p).svc.derate := by
    rw [← evaluate_eq, same, risesTold_svc]
  rw [evaluate_eq, formDerate_still kept]

theorem risesTold_quiet {p : ServiceItem → Bool} (h : risingItems s.svc p = []) : risesTold s p = itemsFormed s p := by
  unfold risesTold
  rw [h]
  rfl

theorem evaluate_frame (s : State) (p : ServiceItem → Bool) : s.evaluate p = { s with
    eco := (s.evaluate p).eco, ntc := (s.evaluate p).ntc, snd := (s.evaluate p).snd, link := (s.evaluate p).link
    svc := { s.svc with items := (s.evaluate p).svc.items, derate := (s.evaluate p).svc.derate } } := by
  have svc : ({ s.svc with items := (s.evaluate p).svc.items, derate := (s.evaluate p).svc.derate } : Svc) = (s.evaluate p).svc := by
    rw [evaluate_svc]
  rw [svc]
  exact framed (evaluate_touches s p)

theorem evaluate_target (p : ServiceItem → Bool) (run : s.cfg.node = .run)
    (changed : (s.evaluate p).svc.derate ≠ s.svc.derate) :
    (s.evaluate p).eco.target = (s.evaluate p).eco.formTarget s.img.economy (s.evaluate p).svc.derate := by
  have touched := risesTold_touches s p
  have formed := formDerate_target (s := risesTold s p) (by rw [touched.cfg rfl]; exact run)
    (by rw [← evaluate_eq, risesTold_svc]; exact changed)
  rw [← evaluate_eq] at formed
  unfold State.img at formed ⊢
  rw [touched.image rfl] at formed
  exact formed

/-- The items evaluated: the rises are told (R144, R145, R147). -/
theorem evaluate_itemsEvaluated (s : State) (p : ServiceItem → Bool) :
    ItemsEvaluated s (s.evaluate p) p fun before now => itemStateCode before < itemStateCode now := by
  have svc := evaluate_svc s p
  refine ⟨evaluate_frame s p, by rw [svc]; rfl, by rw [svc]; exact derateOf_iff _, evaluate_target p, fun same => ?_, fun out => ?_,
    fun now e => ⟨fun same quiet => ?_, fun run image ordered once i mem low high v tells severity => ?_⟩⟩
  · rw [evaluate_still p same, (risesTold_touches s p).eco rfl]
    rfl
  · rw [svc]
    exact evaluate_out (by rw [← Bool.not_eq_true, inRun_iff]; exact out) p
  · have none : risingItems s.svc p = [] := List.eq_nil_iff_forall_not_mem.2 fun i rises => by
      obtain ⟨mem, chosen, higher⟩ := mem_risingItems.1 rises
      have state : now i = i.stateAt (s.svc.reading i) := by rw [e]; exact if_pos chosen
      have ok := quiet i mem (by rw [state]; exact higher)
      rw [← state, ok] at higher
      exact Nat.not_lt_zero _ higher
    rw [evaluate_still p same, risesTold_quiet none]
    rfl
  · have chosen : p i = true := by
      cases chosen : p i
      · have state : now i = i.state := by rw [e]; exact if_neg (by rw [chosen]; decide)
        rw [state] at tells
        exact absurd tells (Nat.lt_irrefl _)
      · rfl
    have state : now i = (evaluated s.svc i).state := by rw [e]; exact if_pos chosen
    rw [state] at tells severity ⊢
    obtain ⟨r, held, id, rank, detail, new⟩ := (evaluate_told p run image ((noticesOrdered_iff s).1 ordered) once).held _
      (List.mem_map_of_mem (mem_risingItems.2 ⟨mem, chosen, tells⟩)) low high v severity
    exact ⟨r, held, id, rank, detail, new⟩

/-! ## Room in class BACKGROUND -/

/-- The operations that the blocks share leave the room that class BACKGROUND has. -/
theorem queueStep_background {l l' : LinkUnit} (h : QueueStep l l') : l'.background.length ≤ l.background.length := by
  cases h with
  | offer node cls f _ lane => exact (congrArg List.length (offerFrame_class_ne node f l lane.symm)).le
  | withdraw k => exact List.length_filter_le _ _
  | take => exact Nat.le_refl _

theorem acts_background (h : Acts s t) : t.link.background.length ≤ s.link.background.length := by
  induction h with
  | refl => exact Nat.le_refl _
  | @tail u _ _ act ih =>
    exact (act_queue (P := fun l => l.background.length ≤ u.link.background.length)
      (fun step le => (queueStep_background step).trans le) act (Nat.le_refl _)).trans ih

theorem formDerate_background (s : State) : s.formDerate.link.background.length ≤ s.link.background.length := by
  by_cases same : derateOf s.svc.items = s.svc.derate
  · rw [formDerate_same same]
  · rw [formDerate_changed same]
    have least := acts_background (derateEvent_acts (s.onSvc fun v => { v with derate := derateOf s.svc.items }))
    exact least

theorem evaluate_background (s : State) (p : ServiceItem → Bool) :
    (s.evaluate p).link.background.length ≤ s.link.background.length := by
  have told := acts_background (t := risesTold s p) (reach_foldl raiseItem_acts _ (itemsFormed s p))
  rw [evaluate_eq]
  exact (formDerate_background _).trans told

/-! ## The detector -/

/-- The detector moved to a state. -/
def detected (s : State) (d : DetectorState) (z : Option Int) : State := { s with svc := { s.svc with detector := d, psi0 := z } }

/-- A cycle added to the count. -/
def cycleAdded (s : State) : State := { s with svc := { s.svc with cycles := s.svc.cycles + 1 } }

theorem digStep_eq {d : DetectorState} {z : Option Int} {done : Bool} (h : (d, z, done) = detectorStep s.img.service s.poseUsable
    s.pose.record.slewValid s.pose.record.p3Height s.pose.record.slew s.svc.detector s.svc.psi0) :
    s.digStep = if done then (detected s d z).countCycle else detected s d z := by
  unfold State.digStep
  dsimp only
  rw [← h]
  rfl

theorem countCycle_full (h : 4294967295 ≤ s.svc.cycles) : s.countCycle = s := if_neg (Nat.not_lt.2 h)

/-- The cycle report of a count. -/
def cycleFrame (s : State) : TxFrame :=
  ⟨.cycleReport, 0xFF, be4 (s.svc.cycles + 1 : Nat) ++ be4 (s.eco.fuelTotal - s.eco.cycleMark).toNat, s.now, false, none⟩

theorem evaluate_cycleMark (s : State) (p : ServiceItem → Bool) : (s.evaluate p).eco.cycleMark = s.eco.cycleMark := by
  have agrees := formDerate_agrees (risesTold s p)
  obtain ⟨-, -, -, -, eco, -⟩ := agrees
  rw [evaluate_eq, eco]
  show (risesTold s p).eco.cycleMark = s.eco.cycleMark
  rw [(risesTold_touches s p).eco rfl]
  rfl

/-- The evaluated state of a counted cycle. -/
def cycleEvaluated (s : State) : State := (cycleAdded s).evaluate fun i => i.basis == .cycles

theorem countCycle_eq (h : s.svc.cycles < 4294967295) : s.countCycle =
    { (cycleEvaluated s).offerBackground (cycleFrame s) with
      eco := { (cycleEvaluated s).eco with cycleMark := s.eco.fuelTotal } } := by
  have fuel : (cycleEvaluated s).eco.fuelTotal = s.eco.fuelTotal := evaluate_fuelTotal (cycleAdded s) _
  have mark : (cycleEvaluated s).eco.cycleMark = s.eco.cycleMark := evaluate_cycleMark (cycleAdded s) _
  have now : (cycleEvaluated s).now = s.now := (evaluate_touches (cycleAdded s) _).now rfl
  have offered : ∀ f, ((cycleEvaluated s).offerBackground f).eco = (cycleEvaluated s).eco := fun f =>
    (offerBackground_touches _ f).eco rfl
  have counted : s.countCycle = (cycleEvaluated s).ecoCycle (s.svc.cycles + 1) := if_pos h
  have frame : (cycleEvaluated s).frame .cycleReport 0xFF
      (cycleData (s.svc.cycles + 1) ((cycleEvaluated s).eco.fuelTotal - (cycleEvaluated s).eco.cycleMark)) = cycleFrame s := by
    rw [fuel, mark]
    unfold State.frame
    rw [now]
    rfl
  rw [counted]
  unfold State.ecoCycle
  rw [frame]
  unfold State.onEco
  dsimp only
  rw [offered, fuel]

/-- A counted cycle is evaluated and then reported (R134, R142). -/
theorem countCycle_reported (h : s.svc.cycles < 4294967295) : s.countCycle.svc.cycles = s.svc.cycles + 1
    ∧ s.countCycle.eco.cycleMark = s.eco.fuelTotal
    ∧ (takesOffer s.cfg.node .cycleReport = true → s.link.background.length < 8 →
      Queued s.countCycle.link .background .cycleReport 0xFF (cycleFrame s).data)
    ∧ ∃ u v : State, ItemsEvaluated (cycleAdded s) u (fun i => i.basis == .cycles)
        (fun before now => itemStateCode before < itemStateCode now)
      ∧ v = u.offerBackground (cycleFrame s) ∧ s.countCycle = { v with eco := { u.eco with cycleMark := s.eco.fuelTotal } } := by
  have touched := evaluate_touches (cycleAdded s) fun i => i.basis == .cycles
  have svc := evaluate_svc (cycleAdded s) fun i => i.basis == .cycles
  rw [countCycle_eq h]
  refine ⟨?_, rfl, fun takes room => ?_, cycleEvaluated s, _, evaluate_itemsEvaluated (cycleAdded s) _, rfl, rfl⟩
  · show ((cycleEvaluated s).offerBackground (cycleFrame s)).svc.cycles = _
    rw [offerBackground_svc]
    exact congrArg Svc.cycles svc
  · refine offerBackground_queued (f := cycleFrame s) ?_
      (show TxKind.cycleReport ≠ .pose ∧ TxKind.cycleReport ≠ .guidance by decide) ?_
    · show takesOffer (cycleEvaluated s).cfg.node _ = true
      rw [show (cycleEvaluated s).cfg = s.cfg from touched.cfg rfl]
      exact takes
    · exact (evaluate_background (cycleAdded s) _).trans_lt room

/-- A cycle leaves the detector, the seconds and the fuel. -/
theorem countCycle_keeps (s : State) : s.countCycle.svc.detector = s.svc.detector ∧ s.countCycle.svc.psi0 = s.svc.psi0
    ∧ s.countCycle.svc.engineSeconds = s.svc.engineSeconds ∧ s.countCycle.eco.fuelTotal = s.eco.fuelTotal := by
  by_cases h : s.svc.cycles < 4294967295
  · have svc : s.countCycle.svc = _ := (congrArg State.svc (countCycle_eq h)).trans (offerBackground_svc _ _)
    have items : (cycleEvaluated s).svc = _ := evaluate_svc (cycleAdded s) fun i => i.basis == .cycles
    have fuel : s.countCycle.eco.fuelTotal = (cycleEvaluated s).eco.fuelTotal :=
      (congrArg (fun u : State => u.eco.fuelTotal) (countCycle_eq h)).trans
        rfl
    rw [svc, items]
    exact ⟨rfl, rfl, rfl, fuel.trans (evaluate_fuelTotal (cycleAdded s) _)⟩
  · rw [countCycle_full (Nat.not_lt.1 h)]
    exact ⟨rfl, rfl, rfl, rfl⟩

theorem detectorStep_blind {u v : Bool} (h : u = false ∨ v = false) (c : ServiceConfig) (height psi : Int) (d : DetectorState)
    (z : Option Int) : detectorStep c u v height psi d z = (.ready, none, false) := by
  refine if_pos ?_
  rcases h with rfl | rfl
  · rfl
  · exact Bool.or_true _

/-- A detector with a pose goes by its state (R141). -/
theorem detectorStep_sees (c : ServiceConfig) (height psi : Int) (z : Option Int) :
    detectorStep c true true height psi .ready z = (if height < c.digLevel then .dig else .ready, none, false)
    ∧ detectorStep c true true height psi .dig z
      = (if c.liftLevel < height then (.lifted, some psi, false) else (.dig, none, false))
    ∧ detectorStep c true true height psi .lifted z
      = (if c.minSwing ≤ (wrapAngle (psi - z.getD 0)).natAbs then (.ready, none, true)
        else if height < c.digLevel then (.dig, none, false) else (.lifted, z, false)) := ⟨rfl, rfl, rfl⟩

/-- Settles O41: the table of the detector, then the cycle by what `countCycle` does. -/
theorem detectorSteps : Obligations.DetectorSteps := by
  refine ⟨fun c u v h psi d z blind => detectorStep_blind blind c h psi d z, fun c h psi z => ?_, fun c h psi z => ?_,
    fun s t d z done e step => ?_⟩
  · obtain ⟨ready, dig, -⟩ := detectorStep_sees c h psi z
    rw [ready, dig]
    exact ⟨fun low => by rw [if_pos low], fun high => by rw [if_neg (Int.not_lt.2 high)], fun up => if_pos up,
      fun down => if_neg (Int.not_lt.2 down)⟩
  · obtain ⟨-, -, lifted⟩ := detectorStep_sees c h psi (some z)
    rw [lifted]
    exact ⟨fun swung => if_pos swung, fun still low => by rw [if_neg (by exact Nat.not_le.2 still), if_pos low],
      fun still high => by rw [if_neg (by exact Nat.not_le.2 still), if_neg (Int.not_lt.2 high)]⟩
  have touched := digStep_touches s
  have stepped := digStep_eq step
  rw [← e] at touched stepped
  obtain ⟨detector, psi0, seconds, fuel⟩ : t.svc.detector = d ∧ t.svc.psi0 = z ∧ t.svc.engineSeconds = s.svc.engineSeconds
      ∧ t.eco.fuelTotal = s.eco.fuelTotal := by
    rw [stepped]
    cases done
    · exact ⟨rfl, rfl, rfl, rfl⟩
    · exact countCycle_keeps (detected s d z)
  refine ⟨detector, psi0, fuel, seconds, fun completed room => ?_, fun idle => ?_, touched.lim rfl, touched.pose rfl,
    touched.streams rfl, touched.hold rfl, touched.vch rfl, rfl, rfl, framed touched⟩
  · rw [completed] at stepped
    rw [stepped]
    exact countCycle_reported (s := detected s d z) room
  · rw [stepped]
    cases done
    · rfl
    · exact countCycle_full (s := detected s d z) (idle.resolve_left (by decide))

end Sys2Proof.Laws
end

section
/-! SVC's second: what is counted, the items it evaluates, the write it requests and the reminders that end (R138, R142 to R149). -/

namespace Sys2Proof.Laws

open Sys2Proof.Machine Relation

-- Many short proofs at once would each hold a thread of the checking process.
set_option Elab.async false

variable {s t u : State}

/-! ## The record write requested -/

theorem requestWrite_svc (s : State) :
    s.requestWrite.svc = { s.svc with write := s.requestWrite.svc.write, again := s.requestWrite.svc.again } := by
  unfold State.requestWrite
  split <;> rfl

/-- A write starts with its snapshot, or one in progress is marked for another (R150). -/
theorem requestWrite_write (s : State) :
    (s.svc.write = none → s.requestWrite.svc.write = some ⟨recordBlock s, after s.now 50⟩
      ∧ s.requestWrite.svc.again = s.svc.again)
    ∧ ∀ w, s.svc.write = some w → s.requestWrite.svc.write = some w ∧ s.requestWrite.svc.again = true := by
  unfold State.requestWrite
  refine ⟨fun none => ?_, fun w some => ?_⟩
  · rw [none]
    exact ⟨rfl, rfl⟩
  · rw [some]
    exact ⟨some, rfl⟩

theorem requestWrite_frame (s : State) : s.requestWrite = { s with svc := s.requestWrite.svc } := framed (requestWrite_touches s)

/-! ## The reminders -/

/-- An item with a second taken from its re-remind time (R146). -/
def remindCounted (i : ServiceItem) : ServiceItem := { i with remind := (i.remind.map (· - 1)).filter (0 < ·) }

/-- The items whose re-remind time ends and that are reminded of again. -/
def reminded (is : List ServiceItem) : List ServiceItem :=
  (is.filter fun i => i.remind.any (· ≤ 1)).filter fun i => i.state = .due ∨ i.state = .overdue

theorem foldl_remindAgain (is : List ServiceItem) (s : State) : is.foldl State.remindAgain s =
    (is.filter fun i => i.state = .due ∨ i.state = .overdue).foldl State.raiseItem s := by
  rw [List.foldl_filter]
  congr 1
  funext t i
  unfold State.remindAgain
  simp

/-- The re-remind times counted down, before a reminder is raised. -/
def remindsTaken (s : State) : State := { s with svc := { s.svc with items := s.svc.items.map remindCounted } }

theorem countReminds_eq (s : State) : s.countReminds = (reminded s.svc.items).foldl State.raiseItem (remindsTaken s) :=
  foldl_remindAgain _ (remindsTaken s)

theorem countReminds_touched (s : State) : Touches noticeBlocks (remindsTaken s) s.countReminds := by
  rw [countReminds_eq]
  exact raiseItems_touches _ _

theorem mem_reminded {is : List ServiceItem} {i : ServiceItem} : i ∈ reminded is ↔
    i ∈ is ∧ i.remind.any (· ≤ 1) = true ∧ (i.state = .due ∨ i.state = .overdue) := by
  unfold reminded
  rw [List.mem_filter, List.mem_filter, and_assoc, decide_eq_true_iff]

theorem derateOf_remindCounted (is : List ServiceItem) : derateOf (is.map remindCounted) = derateOf is := by
  unfold derateOf
  rw [List.any_map]
  rfl

/-! ## The second -/

theorem inHours_iff (i : ServiceItem) : inHours i = true ↔ i.basis ≠ .cycles := by
  unfold inHours
  cases i.basis <;> decide

/-- The instant of the expiry with the timer's next end. -/
def secondBegun (s : State) (d : Ms) : State := (s.arriveAt d).onSvc fun v => { v with secondTimer := some (after d 1000) }

theorem secondBegun_touches (s : State) (d : Ms) : Touches { now := true, svc := true } s (secondBegun s d) :=
  ((arriveAt_touches s d).mono rfl).trans ((onSvc_touches _ _).mono rfl)

theorem secondBegun_svc (s : State) (d : Ms) : (secondBegun s d).svc = { s.svc with secondTimer := some (after d 1000) } := by
  unfold secondBegun State.onSvc
  rw [arriveAt_svc]

theorem svcSecondExpiry_eq {d : Ms} (h : s.svc.secondTimer = some d) : exec .svcSecondExpiry s = .next (secondBegun s d).svcSecond := by
  show execSvcSecondExpiry s = _
  unfold execSvcSecondExpiry
  rw [h]
  rfl

/-- Whether the engine runs is read from the streams. -/
theorem engineRunning_congr (streams : t.streams = s.streams) (image : t.image = s.image) : t.engineRunning = s.engineRunning := by
  unfold State.engineRunning State.usable State.mailbox State.stream State.img
  rw [streams, image]

/-- A running second counted. -/
def secondCounted (s : State) : State := { s with svc := { s.svc with
  engineSeconds := s.svc.engineSeconds + 1
  weighted := s.svc.weighted + weightOf (s.mailbox .engineState).load } }

/-- The evaluation of a counted second. -/
def secondEvaluated (s : State) : State := (secondCounted s).evaluate inHours

/-- The write of a whole multiple of 360 seconds requested (R149). -/
def secondWritten (s : State) : State :=
  if (s.svc.engineSeconds + 1) % 360 = 0 then (secondEvaluated s).requestWrite else secondEvaluated s

theorem svcSecond_running (running : s.engineRunning = true) (room : s.svc.engineSeconds < 357913941) :
    s.svcSecond = (secondWritten s).countReminds := by
  have counts : s.countsRunning = true := by
    unfold State.countsRunning
    rw [running]
    exact decide_eq_true room
  have counted : s.countSecond = secondCounted s := by
    unfold State.countSecond
    rw [if_pos running, if_pos (show s.svc.engineSeconds < engineLimit from room)]
    rfl
  have seconds : (secondEvaluated s).svc.engineSeconds = s.svc.engineSeconds + 1 :=
    congrArg Svc.engineSeconds (evaluate_svc (secondCounted s) inHours)
  unfold State.svcSecond
  rw [counts, counted]
  show State.countReminds (if (secondEvaluated s).svc.engineSeconds % 360 = 0 then _ else _) = _
  rw [seconds]
  rfl

theorem svcSecond_idle (h : s.engineRunning = false ∨ 357913941 ≤ s.svc.engineSeconds) : s.svcSecond = s.countSecond := by
  have counts : s.countsRunning = false := by
    unfold State.countsRunning engineLimit
    rcases h with h | h
    · rw [h]
      rfl
    · rw [decide_eq_false (Nat.not_lt.2 h), Bool.and_false]
  unfold State.svcSecond
  rw [counts]
  rfl

theorem countSecond_full (running : s.engineRunning = true) (full : 357913941 ≤ s.svc.engineSeconds) : s.countSecond = s := by
  unfold State.countSecond
  rw [if_pos running, if_neg (show ¬ s.svc.engineSeconds < engineLimit from Nat.not_lt.2 full)]

theorem countSecond_heard (stopped : s.engineRunning = false) (heard : (s.streamState .engineState).heard = true) :
    s.countSecond = s := by
  unfold State.countSecond
  rw [if_neg (by rw [stopped]; decide), if_pos heard]

theorem countSecond_unheard (stopped : s.engineRunning = false) (unheard : (s.streamState .engineState).heard = false) :
    s.countSecond = { s with svc := { s.svc with unaccounted := min 4294967295 (s.svc.unaccounted + 1) } } := by
  unfold State.countSecond
  rw [if_neg (by rw [stopped]; decide), if_neg (by rw [unheard]; decide)]
  rfl

/-! ## What a counted second leaves -/

theorem secondWritten_svc (s : State) : (secondWritten s).svc = { (secondEvaluated s).svc with
    write := (secondWritten s).svc.write, again := (secondWritten s).svc.again } := by
  unfold secondWritten
  split
  · exact requestWrite_svc _
  · rfl

theorem secondWritten_frame (s : State) : secondWritten s = { secondEvaluated s with svc := (secondWritten s).svc } := by
  unfold secondWritten
  split
  · exact requestWrite_frame _
  · rfl

theorem secondEvaluated_svc (s : State) : (secondEvaluated s).svc = { (secondCounted s).svc with
    items := s.svc.items.map (evaluatedBy (secondCounted s).svc inHours)
    derate := derateOf (s.svc.items.map (evaluatedBy (secondCounted s).svc inHours)) } := evaluate_svc (secondCounted s) inHours

theorem countReminds_svc (s : State) : s.countReminds.svc = { s.svc with items := s.svc.items.map remindCounted } :=
  (countReminds_touched s).svc rfl

/-- The state of an item after a second that is counted, before its notices. -/
def secondState (v : Svc) (i : ServiceItem) : ItemState := if i.basis = .cycles then i.state else i.stateAt (v.reading i)

theorem evaluatedBy_inHours (v : Svc) (i : ServiceItem) : evaluatedBy v inHours i = { i with
    state := secondState v i
    remind := if i.basis ≠ .cycles ∧ itemStateCode i.state < itemStateCode (i.stateAt (v.reading i)) then none else i.remind } := by
  unfold evaluatedBy secondState
  by_cases cycles : i.basis = .cycles
  · rw [if_neg (by rw [inHours_iff]; exact not_not_intro cycles), if_pos cycles, if_neg (fun h => h.1 cycles)]
  · rw [if_pos ((inHours_iff i).2 cycles), if_neg cycles]
    unfold evaluated
    simp only [ne_eq, cycles, not_false_eq_true, true_and]

theorem itemDetail_eq {v : Svc} {i j : ServiceItem} {st : ItemState} {n : Nat} (config : j.config = i.config)
    (lastDone : j.lastDone = i.lastDone) (state : j.state = st) (reading : v.reading j = n) :
    itemDetail v j = .service i.config.name st (i.inReport n) (i.inReport i.duePoint) := by
  unfold itemDetail ServiceItem.inReport ServiceItem.duePoint ServiceItem.basis
  rw [config, lastDone, state, reading]

/-- Numbers that differ still do after a change that keeps the configurations. -/
theorem once_of_config {is : List ServiceItem} (once : (is.map (·.config.number)).Nodup) {f : ServiceItem → ServiceItem}
    (h : ∀ i, (f i).config = i.config) : (is.map ((·.config.number) ∘ f)).Nodup := by
  have same : ((·.config.number) ∘ f) = fun i : ServiceItem => i.config.number := funext fun i => congrArg ItemConfig.number (h i)
  rw [same]
  exact once

/-- An item's number names it. -/
theorem item_of_number {is : List ServiceItem} (once : (is.map (·.config.number)).Nodup) {i j : ServiceItem} (hi : i ∈ is)
    (hj : j ∈ is) (e : i.config.number = j.config.number) : i = j := List.inj_on_of_nodup_map once hi hj e

/-- A rise of an item in a counted second. -/
def RisesIn (v : Svc) (i : ServiceItem) : Prop := i.basis ≠ .cycles ∧ itemStateCode i.state < itemStateCode (i.stateAt (v.reading i))

theorem mem_rising_inHours {v : Svc} {i : ServiceItem} : i ∈ risingItems v inHours ↔ i ∈ v.items ∧ RisesIn v i := by
  rw [mem_risingItems, inHours_iff]
  rfl

section
variable (run : s.cfg.node = .run) (image : s.image.isSome = true) (ordered : Ordered s.ntc)
  (once : (s.svc.items.map (·.config.number)).Nodup)
include run image ordered once

theorem secondWritten_told : ItemsTold s.ntc (secondWritten s).ntc (secondCounted s).svc
    ((risingItems (secondCounted s).svc inHours).map (evaluated (secondCounted s).svc)) := by
  have ntc : (secondWritten s).ntc = (secondEvaluated s).ntc := by rw [secondWritten_frame]
  rw [ntc]
  exact evaluate_told (s := secondCounted s) inHours run image ordered once

/-- The reminders of a second: the items reminded of hold their notices, and the other ids stand as they were. -/
theorem countReminds_told : (∀ x : NoticeRecord, (∀ i ∈ reminded (secondWritten s).svc.items, x.id ≠ i.config.number) →
      (x ∈ cores (secondWritten s).countReminds.ntc ↔ x ∈ cores (secondWritten s).ntc))
    ∧ ∀ i ∈ reminded (secondWritten s).svc.items, 1 ≤ i.config.number → i.config.number ≤ 16 → ∀ v,
      itemSeverity i.state = some v →
      ItemHeld (secondWritten s).ntc (secondWritten s).countReminds.ntc i v (itemDetail (secondWritten s).svc i) := by
  have touched := evaluate_touches (secondCounted s) inHours
  have cfg : (secondWritten s).cfg = s.cfg := by rw [secondWritten_frame]; exact touched.cfg rfl
  have im : (secondWritten s).image = s.image := by rw [secondWritten_frame]; exact touched.image rfl
  have items : (secondWritten s).svc.items = s.svc.items.map (evaluatedBy (secondCounted s).svc inHours) := by
    rw [secondWritten_svc, secondEvaluated_svc]
  have distinct : ((reminded (secondWritten s).svc.items).map (·.config.number)).Nodup := by
    refine ((List.filter_sublist.trans List.filter_sublist).map _).nodup ?_
    rw [items, List.map_map]
    exact once_of_config once fun i => evaluatedBy_config _ _ i
  obtain ⟨-, others, held⟩ := raiseItems_held (s := remindsTaken (secondWritten s)) _ (by rw [← cfg] at run; exact run)
    (by rw [← im] at image; exact image) (secondWritten_told run image ordered once).ordered distinct
  rw [countReminds_eq]
  exact ⟨others, held⟩

/-- In a counted second the notice of an item that rises, or whose re-remind time ends, is held (R145, R146). -/
theorem secondItem_held {i : ServiceItem} (mem : i ∈ s.svc.items) (low : 1 ≤ i.config.number) (high : i.config.number ≤ 16)
    {st : ItemState} (state : st = secondState (secondCounted s).svc i) {v : Severity} (severity : itemSeverity st = some v)
    (told : itemStateCode i.state < itemStateCode st ∨ i.remind = some 1 ∧ (st = .due ∨ st = .overdue)) :
    ItemHeld s.ntc (secondWritten s).countReminds.ntc i v
      (.service i.config.name st (i.inReport ((secondCounted s).svc.reading i)) (i.inReport i.duePoint)) := by
  have items : (secondWritten s).svc.items = s.svc.items.map (evaluatedBy (secondCounted s).svc inHours) := by
    rw [secondWritten_svc, secondEvaluated_svc]
  obtain ⟨others, held⟩ := countReminds_told run image ordered once
  obtain ⟨-, before, rises⟩ := secondWritten_told run image ordered once
  have number : ∀ x : ServiceItem, (evaluatedBy (secondCounted s).svc inHours x).config.number = x.config.number := fun x =>
    congrArg ItemConfig.number (evaluatedBy_config _ _ x)
  by_cases risen : RisesIn (secondCounted s).svc i
  · have now : (evaluated (secondCounted s).svc i).state = st := by
      rw [state]
      exact (if_neg risen.1).symm
    have here := rises _ (List.mem_map_of_mem (mem_rising_inHours.2 ⟨mem, risen⟩)) low high v (by rw [now]; exact severity)
    rw [itemDetail_eq (j := evaluated (secondCounted s).svc i) rfl rfl now (reading_congr rfl rfl rfl rfl)] at here
    refine here.after_congr fun x id => others x fun j ending same => ?_
    obtain ⟨from_items, due, -⟩ := mem_reminded.1 ending
    rw [items] at from_items
    obtain ⟨k, hk, rfl⟩ := List.mem_map.1 from_items
    have same_item : k = i := item_of_number once hk mem (by rw [← number k, ← same]; exact id)
    have gone : (evaluatedBy (secondCounted s).svc inHours i).remind = none := by
      rw [evaluatedBy_inHours]
      exact if_pos risen
    rw [same_item, gone] at due
    exact absurd due (by decide)
  · have standing : ¬ itemStateCode i.state < itemStateCode st := by
      rw [state]
      unfold secondState
      split
      · exact Nat.lt_irrefl _
      · rename_i basis
        exact fun higher => risen ⟨basis, higher⟩
    obtain ⟨remind, due⟩ := told.resolve_left standing
    have eval := evaluatedBy_inHours (secondCounted s).svc i
    rw [if_neg (show ¬ (i.basis ≠ .cycles ∧ _) from risen), ← state, remind] at eval
    have ending : evaluatedBy (secondCounted s).svc inHours i ∈ reminded (secondWritten s).svc.items := by
      rw [mem_reminded, items, eval]
      exact ⟨by rw [← eval]; exact List.mem_map_of_mem mem, rfl, due⟩
    have here := held _ ending (by rw [number]; exact low) (by rw [number]; exact high) v (by rw [eval]; exact severity)
    rw [itemDetail_eq (j := evaluatedBy (secondCounted s).svc inHours i) (evaluatedBy_config _ _ i) (by rw [eval]) (by rw [eval])
      (n := (secondCounted s).svc.reading i) (reading_congr (evaluatedBy_config _ _ i) (by rw [secondWritten_svc, secondEvaluated_svc])
      (by rw [secondWritten_svc, secondEvaluated_svc]) (by rw [secondWritten_svc, secondEvaluated_svc]))] at here
    unfold ItemHeld at here
    rw [number] at here
    refine ItemHeld.before_congr (i := i) here fun x id => before x (fun j rising same => ?_) (by omega)
    obtain ⟨k, hk, rfl⟩ := List.mem_map.1 rising
    obtain ⟨from_items, rises_k⟩ := mem_rising_inHours.1 hk
    have same_item : k = i := item_of_number once from_items mem (same.symm.trans id)
    exact risen (same_item ▸ rises_k)

end

/-! ## The statement -/

/-- What a second that is counted gives (R138, R142 to R147, R149). -/
theorem svcSecond_counted (running : s.engineRunning = true) (room : s.svc.engineSeconds < 357913941) :
    s.svcSecond.svc.engineSeconds = s.svc.engineSeconds + 1
    ∧ s.svcSecond.svc.weighted = s.svc.weighted + (4 + ((s.mailbox .engineState).load * 8) / 100)
    ∧ s.svcSecond.svc.unaccounted = s.svc.unaccounted
    ∧ ((s.svc.engineSeconds + 1) % 360 = 0 → s.svcSecond.svc.write ≠ none
      ∧ (s.svc.write ≠ none → s.svcSecond.svc.again = true))
    ∧ s.svcSecond.svc.items = s.svc.items.map (fun i => { i with
        state := if i.basis = .cycles then i.state else i.stateAt (s.svcSecond.svc.reading i)
        remind := if i.basis ≠ .cycles ∧ itemStateCode i.state < itemStateCode (i.stateAt (s.svcSecond.svc.reading i)) then none
          else (i.remind.map (· - 1)).filter (0 < ·) })
    ∧ (s.svcSecond.svc.derate = true ↔ ∃ i ∈ s.svcSecond.svc.items, i.config.derate = true ∧ i.state = .overdue)
    ∧ (s.cfg.node = .run → s.svcSecond.svc.derate ≠ s.svc.derate →
        s.svcSecond.eco.target = s.svcSecond.eco.formTarget s.img.economy s.svcSecond.svc.derate)
    ∧ (s.svcSecond.svc.derate = s.svc.derate → s.svcSecond.eco = s.eco) := by
  have second := svcSecond_running running room
  have svc : s.svcSecond.svc = { (secondCounted s).svc with
      items := (s.svc.items.map (evaluatedBy (secondCounted s).svc inHours)).map remindCounted
      derate := derateOf (s.svc.items.map (evaluatedBy (secondCounted s).svc inHours))
      write := (secondWritten s).svc.write
      again := (secondWritten s).svc.again } := by
    rw [second, countReminds_svc, secondWritten_svc, secondEvaluated_svc]
  have eco : s.svcSecond.eco = (secondEvaluated s).eco := by
    rw [second, (countReminds_touched _).eco rfl]
    show (secondWritten s).eco = _
    rw [secondWritten_frame]
  have derate : s.svcSecond.svc.derate = (secondEvaluated s).svc.derate := by rw [svc, secondEvaluated_svc]
  have reading : ∀ i, s.svcSecond.svc.reading i = (secondCounted s).svc.reading i := fun i =>
    reading_congr rfl (by rw [svc]) (by rw [svc]) (by rw [svc])
  refine ⟨by rw [svc]; rfl, by rw [svc]; rfl, by rw [svc]; rfl, fun whole => ?_, ?_, ?_, fun run changed => ?_, fun same => ?_⟩
  · have written : secondWritten s = (secondEvaluated s).requestWrite := if_pos whole
    have before : (secondEvaluated s).svc.write = s.svc.write := by rw [secondEvaluated_svc]; rfl
    obtain ⟨starts, marks⟩ := requestWrite_write (secondEvaluated s)
    rw [before] at starts marks
    rw [svc]
    show (secondWritten s).svc.write ≠ none ∧ (_ → (secondWritten s).svc.again = true)
    rw [written]
    cases writing : s.svc.write with
    | none =>
      rw [(starts writing).1]
      exact ⟨by simp, fun other => absurd rfl other⟩
    | some w =>
      obtain ⟨still, again⟩ := marks w writing
      rw [still]
      exact ⟨by simp, fun _ => again⟩
  · have items : s.svcSecond.svc.items = (s.svc.items.map (evaluatedBy (secondCounted s).svc inHours)).map remindCounted := by
      rw [svc]
    rw [items, List.map_map]
    refine List.map_congr_left fun i _ => ?_
    show remindCounted (evaluatedBy (secondCounted s).svc inHours i) = _
    rw [evaluatedBy_inHours, reading]
    unfold remindCounted secondState
    by_cases rises : i.basis ≠ .cycles ∧ itemStateCode i.state < itemStateCode (i.stateAt ((secondCounted s).svc.reading i))
    · rw [if_pos rises, if_pos rises]
      rfl
    · rw [if_neg rises, if_neg rises]
  · have items : s.svcSecond.svc.items = (s.svc.items.map (evaluatedBy (secondCounted s).svc inHours)).map remindCounted := by
      rw [svc]
    have flag : s.svcSecond.svc.derate = derateOf (s.svc.items.map (evaluatedBy (secondCounted s).svc inHours)) := by rw [svc]
    rw [flag, items, ← derateOf_remindCounted]
    exact derateOf_iff _
  · rw [derate] at changed ⊢
    rw [eco]
    exact evaluate_target (s := secondCounted s) inHours run changed
  · rw [derate] at same
    rw [eco]
    exact (congrArg State.eco (evaluate_still (s := secondCounted s) inHours same)).trans ((risesTold_touches _ _).eco rfl)

/-- A second leaves its timer and the count of cycles. -/
theorem svcSecond_keeps (s : State) : s.svcSecond.svc.secondTimer = s.svc.secondTimer ∧ s.svcSecond.svc.cycles = s.svc.cycles := by
  by_cases counted : s.engineRunning = true ∧ s.svc.engineSeconds < 357913941
  · rw [svcSecond_running counted.1 counted.2, countReminds_svc, secondWritten_svc, secondEvaluated_svc]
    exact ⟨rfl, rfl⟩
  · have idle : s.engineRunning = false ∨ 357913941 ≤ s.svc.engineSeconds := by
      cases running : s.engineRunning
      · exact .inl rfl
      · exact .inr (Nat.not_lt.1 fun room => counted ⟨running, room⟩)
    rw [svcSecond_idle idle]
    unfold State.countSecond
    split
    · split <;> exact ⟨rfl, rfl⟩
    · split <;> exact ⟨rfl, rfl⟩

/-- The state of an item by its points (R144). -/
theorem stateAt_points (i : ServiceItem) (n : Nat) {due soon past : Int}
    (hdue : due = i.lastDone + i.config.interval * (basisMultiplier i.basis : Int))
    (hsoon : soon = due - i.config.lead * (basisMultiplier i.basis : Int))
    (hpast : past = due + i.config.grace * (basisMultiplier i.basis : Int)) :
    (i.duePoint : Int) = due ∧ ((n : Int) < soon → i.stateAt n = .ok) ∧ (soon ≤ n → (n : Int) < due → i.stateAt n = .dueSoon)
      ∧ (due ≤ n → (n : Int) < past → i.stateAt n = .due) ∧ (past ≤ n → i.stateAt n = .overdue) := by
  have point : (i.duePoint : Int) = due := by
    unfold ServiceItem.duePoint
    push_cast
    exact hdue.symm
  have lead : (0 : Int) ≤ i.config.lead * (basisMultiplier i.basis : Int) := by positivity
  have grace : (0 : Int) ≤ i.config.grace * (basisMultiplier i.basis : Int) := by positivity
  have soonPoint : (i.soonPoint : Int) = max 0 soon := by
    unfold ServiceItem.soonPoint
    omega
  have overPoint : (i.overPoint : Int) = past := by
    unfold ServiceItem.overPoint
    push_cast
    omega
  unfold ServiceItem.stateAt
  refine ⟨point, fun low => if_pos (by omega), fun low high => ?_, fun low high => ?_, fun high => ?_⟩
  · rw [if_neg (by omega), if_pos (by omega)]
  · rw [if_neg (by omega), if_neg (by omega), if_pos (by omega)]
  · rw [if_neg (by omega), if_neg (by omega), if_neg (by omega)]

/-- The counter of a basis (R143). -/
def counterOf (v : Svc) : Basis → Nat
  | .engineHours => v.engineSeconds
  | .weightedHours => v.weighted
  | .cycles => v.cycles

theorem reading_eq (v : Svc) (i : ServiceItem) : v.reading i = counterOf v i.basis := by
  unfold Svc.reading counterOf
  cases i.basis <;> rfl

/-- What the basis of an item gives (R143, R145). -/
theorem basis_values (v : Svc) {i : ServiceItem} {b : Basis} (h : i.config.basis = some b) : i.basis = b
    ∧ v.reading i = counterOf v b ∧ basisMultiplier i.basis = basisMultiplier b ∧ ∀ n, i.inReport n = n / reportDivisor b := by
  have basis : i.basis = b := by
    unfold ServiceItem.basis
    rw [h]
    rfl
  unfold ServiceItem.inReport
  rw [reading_eq, basis]
  exact ⟨rfl, rfl, rfl, fun _ => rfl⟩

/-! ## The end of one re-remind time -/

/-- The re-remind time of an item ended at the instant of the second. -/
def remindEnded (s : State) (d : Ms) (n : Nat) : State := { s.arriveAt d with svc := { s.svc with
  items := s.svc.items.map fun y => if y.config.number = n then { y with remind := none } else y } }

theorem itemOf_number {v : Svc} {n : Int} {x : ServiceItem} (h : v.itemOf n = some x) : (x.config.number : Int) = n ∧ x ∈ v.items :=
  ⟨by simpa using List.find?_some h, List.mem_of_find?_eq_some h⟩

theorem reremindExpiry_eq {d : Ms} {n : Nat} {x : ServiceItem} (timer : s.svc.secondTimer = some d)
    (item : s.svc.itemOf n = some x) (running : s.engineRunning = true) (room : s.svc.engineSeconds < 357913941)
    (last : x.remind = some 1) : exec (.reremindExpiry n) s = .next ((remindEnded s d n).remindAgain x) := by
  have ending : (s.countsRunning && x.remind.any (· ≤ 1)) = true := by
    unfold State.countsRunning
    rw [running, last, decide_eq_true (show s.svc.engineSeconds < engineLimit from room)]
    rfl
  have ended : ((s.arriveAt d).onSvc fun v => { v with items := v.items.map fun y =>
      if y.config.number = n then { y with remind := none } else y }) = remindEnded s d n := by
    unfold remindEnded State.onSvc
    rw [arriveAt_svc]
  show execReremindExpiry n s = _
  unfold execReremindExpiry
  rw [timer, item]
  dsimp only
  rw [if_pos ending, ended]

theorem remindAgain_eq {n : Nat} {x : ServiceItem} (number : x.config.number = n) : s.remindAgain x =
    if x.state = .due ∨ x.state = .overdue then s.raiseNotice n (itemSeverity x.state) (itemDetail s.svc x) else s := by
  unfold State.remindAgain
  split
  · rename_i due
    have told : ∃ v, itemSeverity x.state = some v := by rcases due with e | e <;> rw [e] <;> exact ⟨_, rfl⟩
    obtain ⟨v, severity⟩ := told
    rw [raiseItem_some severity, severity, number]
  · rfl

/-- The expiry in its four cases, and the notices of a second that is counted. -/
theorem svcSecondExpiry_cases (s : State) (d : Ms) (t : State) (ht : t = (secondBegun s d).svcSecond) :
    t.svc.secondTimer = some (after d 1000) ∧ t.svc.cycles = s.svc.cycles
    ∧ (s.engineRunning = true → 357913941 ≤ s.svc.engineSeconds → t.svc = { s.svc with secondTimer := some (after d 1000) })
    ∧ (s.engineRunning = false → (s.streamState .engineState).heard = true →
        t.svc = { s.svc with secondTimer := some (after d 1000) })
    ∧ (s.engineRunning = false → (s.streamState .engineState).heard = false →
        t.svc = { s.svc with secondTimer := some (after d 1000), unaccounted := min 4294967295 (s.svc.unaccounted + 1) })
    ∧ t = { s.arriveAt d with eco := t.eco, svc := t.svc, ntc := t.ntc, snd := t.snd, link := t.link } := by
  have begun := secondBegun_touches s d
  have svc := secondBegun_svc s d
  have running := engineRunning_congr (begun.streams rfl) (begun.image rfl)
  have heard : (secondBegun s d).streamState .engineState = s.streamState .engineState := by
    unfold State.streamState State.stream
    rw [begun.streams rfl]
  obtain ⟨timer, cycles⟩ := svcSecond_keeps (secondBegun s d)
  rw [ht]
  refine ⟨by rw [timer, svc], by rw [cycles, svc], fun runs full => ?_, fun stopped here => ?_, fun stopped silent => ?_,
    framed (s := s.arriveAt d) (((onSvc_touches _ _).mono rfl).trans (svcSecond_touches (secondBegun s d)))⟩
  · have full' : 357913941 ≤ (secondBegun s d).svc.engineSeconds := by rw [svc]; exact full
    rw [svcSecond_idle (.inr full'), countSecond_full (running.trans runs) full', svc]
  · rw [svcSecond_idle (.inl (running.trans stopped)), countSecond_heard (running.trans stopped) (by rw [heard]; exact here), svc]
  · rw [svcSecond_idle (.inl (running.trans stopped)), countSecond_unheard (running.trans stopped) (by rw [heard]; exact silent), svc]

/-- Settles O40: the second by what it counts, the item facts, and the reminder that ends by itself. -/
theorem serviceSeconds : Obligations.ServiceSeconds := by
  refine ⟨fun s d timer => ?_, fun i m n due soon past hm hdue hsoon hpast => ?_, fun v i => ⟨fun h => ?_, fun h => ?_, fun h => ?_⟩,
    rfl, rfl, fun s n image low high => catalogue_service image low high,
    fun s d n x timer item running room last => ?_⟩
  · have begun := secondBegun_touches s d
    have svc := secondBegun_svc s d
    have runs := engineRunning_congr (begun.streams rfl) (begun.image rfl)
    have load : (secondBegun s d).mailbox .engineState = s.mailbox .engineState := by
      unfold State.mailbox State.stream
      rw [begun.streams rfl]
    have img : (secondBegun s d).img = s.img := by
      unfold State.img
      rw [begun.image rfl]
    obtain ⟨next, cycles, full, heard, unheard, frame⟩ := svcSecondExpiry_cases s d _ rfl
    refine ⟨_, svcSecondExpiry_eq timer, next, cycles, fun running room => ?_, full, heard, unheard, frame⟩
    have room' : (secondBegun s d).svc.engineSeconds < 357913941 := by rw [svc]; exact room
    obtain ⟨seconds, weighted, unaccounted, write, items, derate, target, still⟩ :=
      svcSecond_counted (runs.trans running) room'
    rw [svc] at seconds weighted unaccounted write items target still
    rw [load] at weighted
    rw [img] at target
    rw [begun.cfg rfl] at target
    rw [begun.eco rfl] at still
    refine ⟨seconds, weighted, unaccounted, write, items, derate, target, still, fun run image ordered once i mem low high st v
      state severity told => ?_⟩
    have reading : ∀ j, (secondBegun s d).svcSecond.svc.reading j = (secondCounted (secondBegun s d)).svc.reading j := fun j => by
      rw [svcSecond_running (runs.trans running) room', countReminds_svc, secondWritten_svc, secondEvaluated_svc]
      exact reading_congr rfl rfl rfl rfl
    rw [reading] at state ⊢
    have held := secondItem_held (s := secondBegun s d) (by rw [begun.cfg rfl]; exact run) (by rw [begun.image rfl]; exact image)
      (by rw [begun.ntc rfl]; exact (noticesOrdered_iff s).1 ordered) (by rw [svc]; exact once) (by rw [svc]; exact mem) low high
      state severity told
    rw [begun.ntc rfl, ← svcSecond_running (runs.trans running) room'] at held
    exact held
  · subst hm
    exact stateAt_points i n hdue hsoon hpast
  · exact basis_values v h
  · exact basis_values v h
  · obtain ⟨basis, reading, multiplier, report⟩ := basis_values v h
    exact ⟨basis, reading, multiplier, fun n => (report n).trans (Nat.div_one n)⟩
  · obtain ⟨number, -⟩ := itemOf_number item
    have touched := remindAgain_touches (remindEnded s d n) x
    have ended : Touches (noticeBlocks.or { svc := true }) (s.arriveAt d) (remindEnded s d n) :=
      (onSvc_touches (s.arriveAt d) fun _ => (remindEnded s d n).svc).mono rfl
    refine ⟨(remindEnded s d n).remindAgain x, remindEnded s d n, rfl, ?_, reremindExpiry_eq timer item running room last,
      touched.svc rfl, framed (ended.trans (touched.mono rfl))⟩
    rw [remindAgain_eq (Int.ofNat.inj number)]
    rfl

end Sys2Proof.Laws
end

section
/-! SERVICE_DONE: the item serviced, its notice cleared, the derate flag formed again and the record written (R147, R148, R150). -/

namespace Sys2Proof.Laws

open Sys2Proof.Machine Relation

-- Many short proofs at once would each hold a thread of the checking process.
set_option Elab.async false

variable {s t u : State} {i : SettingItem} {x : ServiceItem}

/-! ## The snapshot -/

/-- The snapshot of a record write does not hold the write itself (R149). -/
theorem recordBlock_congr (svc : t.svc = { s.svc with write := t.svc.write, again := t.svc.again }) (eco : t.eco = s.eco)
    (lim : t.lim = s.lim) (rule : t.rule = s.rule) : recordBlock t = recordBlock s := by
  have body : recordBody t = recordBody s := by
    unfold recordBody
    rw [svc, eco, lim, rule]
  unfold recordBlock
  rw [body]

theorem requestWrite_block (s : State) : recordBlock s.requestWrite = recordBlock s := by
  have touched := requestWrite_touches s
  exact recordBlock_congr (requestWrite_svc s) (touched.eco rfl) (touched.lim rfl) (touched.rule rfl)

/-! ## The item -/

theorem serviced_config (v : Svc) (n : Int) (y : ServiceItem) : (serviced v n y).config = y.config := by
  unfold serviced
  split <;> rfl

/-- A change of the items that keeps their configurations keeps what a number names. -/
theorem itemOf_map {v w : Svc} {f : ServiceItem → ServiceItem} (items : w.items = v.items.map f)
    (config : ∀ y, (f y).config = y.config) (n : Int) : w.itemOf n = (v.itemOf n).map f := by
  have same : ((fun y : ServiceItem => (y.config.number : Int) == n) ∘ f) = fun y => (y.config.number : Int) == n :=
    funext fun y => congrArg (fun c : ItemConfig => (c.number : Int) == n) (config y)
  unfold Svc.itemOf
  rw [items, List.find?_map, same]

/-- The item taken and its service recorded. -/
def itemServiced (s : State) (n : Int) : State :=
  { s.takeItem with svc := { s.svc with items := s.svc.items.map (serviced s.svc n) } }

theorem itemServiced_touches (s : State) (n : Int) : Touches { svc := true, link := true } s (itemServiced s n) :=
  ((takeItem_touches s).mono rfl).trans ((onSvc_touches s.takeItem fun _ => (itemServiced s n).svc).mono rfl)

/-- The item's notice cleared. -/
def serviceCleared (s : State) (n : Int) : State := (itemServiced s n).clearNotice n.toNat

theorem serviceCleared_touches (s : State) (n : Int) : Touches noticeBlocks (itemServiced s n) (serviceCleared s n) :=
  clearNotice_touches _ _

theorem doService_eq (s : State) (n : Int) : s.takeItem.doService n = (serviceCleared s n).formDerate.requestWrite := rfl

theorem doService_svc (s : State) (n : Int) : (s.takeItem.doService n).svc = { s.svc with
    items := s.svc.items.map (serviced s.svc n)
    derate := derateOf (s.svc.items.map (serviced s.svc n))
    write := (s.takeItem.doService n).svc.write
    again := (s.takeItem.doService n).svc.again } := by
  have svc : (serviceCleared s n).formDerate.svc = { s.svc with
      items := s.svc.items.map (serviced s.svc n), derate := derateOf (s.svc.items.map (serviced s.svc n)) } := by
    rw [formDerate_svc, (serviceCleared_touches s n).svc rfl]
    rfl
  rw [doService_eq, requestWrite_svc, svc]

/-- The state once the derate flag is formed. -/
def serviceDerated (s : State) (n : Int) : State := (serviceCleared s n).formDerate

/-- A clear adds no record. -/
theorem clearNotice_sub {id : Nat} {y : NoticeRecord} (h : Ordered s.ntc) (mem : y ∈ cores (s.clearNotice id).ntc) :
    y ∈ cores s.ntc := by
  by_cases run : s.cfg.node = .run
  · exact (mem_cores_without.1 ((clearNotice_cores run h).mem_iff.1 mem)).1
  · rw [clearNotice_out (by rw [← Bool.not_eq_true, inRun_iff]; exact run)] at mem
    exact mem

/-- The notice that a clear of 0x73 may follow stays away (R126, R148). -/
theorem serviceDerated_gone (run : s.cfg.node = .run) (h : Ordered s.ntc) (n : Int) :
    ∀ r ∈ (serviceDerated s n).ntc.held, r.id ≠ n.toNat := by
  have touched := itemServiced_touches s n
  have before : Ordered (itemServiced s n).ntc := by rw [touched.ntc rfl]; exact h
  have running : (itemServiced s n).cfg.node = .run := by rw [touched.cfg rfl]; exact run
  have gone : ∀ r ∈ (serviceCleared s n).ntc.held, r.id ≠ n.toNat := clearNotice_gone running before
  have ordered : Ordered (serviceCleared s n).ntc := clearNotice_ordered _ before
  have node : (serviceCleared s n).cfg.node = .run := by rw [(serviceCleared_touches s n).cfg rfl]; exact running
  unfold serviceDerated
  by_cases same : derateOf (serviceCleared s n).svc.items = (serviceCleared s n).svc.derate
  · rw [formDerate_same same]
    exact gone
  · rw [formDerate_changed same, derateEvent_run (by exact node)]
    refine reformTarget_keeps (s := (serviceCleared s n).onSvc _) (P := fun m => ∀ r ∈ m.held, r.id ≠ n.toNat)
      (fun v e r mem same => ?_) gone
    obtain ⟨y, hy, c⟩ := mem_cores.1 (clearNotice_sub (by rw [e]; exact ordered) (mem_cores.2 ⟨r, mem, rfl⟩))
    rw [e] at hy
    exact gone y hy ((core_eq c).1.trans same)

theorem serviceDerated_svc (s : State) (n : Int) : (serviceDerated s n).svc = { s.svc with
    items := s.svc.items.map (serviced s.svc n), derate := derateOf (s.svc.items.map (serviced s.svc n)) } := by
  unfold serviceDerated
  rw [formDerate_svc, (serviceCleared_touches s n).svc rfl]
  rfl

/-- The derate flag as it is leaves ECO; one that changes forms the target (R147, R129). -/
theorem serviceDerated_cases (run : s.cfg.node = .run) (n : Int) :
    ((serviceDerated s n).svc.derate = s.svc.derate → serviceDerated s n = serviceCleared s n)
    ∧ ((serviceDerated s n).svc.derate ≠ s.svc.derate → serviceDerated s n = State.reformTarget { serviceCleared s n with
        svc := { (serviceCleared s n).svc with derate := (serviceDerated s n).svc.derate } }) := by
  have svc : (serviceCleared s n).svc = { s.svc with items := s.svc.items.map (serviced s.svc n) } :=
    (serviceCleared_touches s n).svc rfl
  have node : (serviceCleared s n).cfg.node = .run := by
    rw [(serviceCleared_touches s n).cfg rfl, (itemServiced_touches s n).cfg rfl]
    exact run
  have derate : (serviceDerated s n).svc.derate = derateOf (serviceCleared s n).svc.items := by rw [serviceDerated_svc, svc]
  have held : (serviceCleared s n).svc.derate = s.svc.derate := by rw [svc]
  rw [derate]
  exact ⟨fun same => formDerate_same (same.trans held.symm),
    fun other => (formDerate_changed (by rw [held]; exact other)).trans (derateEvent_run (by exact node))⟩

theorem serviceDerated_target (run : s.cfg.node = .run) (n : Int) (changed : (serviceDerated s n).svc.derate ≠ s.svc.derate) :
    (serviceDerated s n).eco.target = (serviceDerated s n).eco.formTarget s.img.economy (serviceDerated s n).svc.derate := by
  have cleared := serviceCleared_touches s n
  have touched := itemServiced_touches s n
  have held : (serviceCleared s n).svc.derate = s.svc.derate := by
    rw [cleared.svc rfl]
    rfl
  have formed := formDerate_target (s := serviceCleared s n) (by rw [cleared.cfg rfl, touched.cfg rfl]; exact run)
    (by rw [held]; exact changed)
  unfold State.img at formed ⊢
  rw [cleared.image rfl, touched.image rfl] at formed
  exact formed

theorem serviceDerated_mode (s : State) (n : Int) : (serviceDerated s n).eco.mode = s.eco.mode := by
  unfold serviceDerated
  rw [formDerate_mode, (serviceCleared_touches s n).eco rfl, (itemServiced_touches s n).eco rfl]

/-! ## The outcome -/

theorem decideServiceDone_takeItem (run : s.cfg.node = .run) (n : Int) : decideServiceDone s.takeItem n =
    if (s.svc.itemOf n).isNone then .refused .range else if s.engineRunning then .refused .engineRunning else .accepted := by
  have touched := takeItem_touches s
  unfold decideServiceDone
  rw [takeItem_inRun, (inRun_iff s).2 run, touched.svc rfl, engineRunning_congr (touched.streams rfl) (touched.image rfl)]
  rfl

theorem serviceDone_eq (h : s.itemFor 0x20 = some i) {r : SettingResult} (decided : decideServiceDone s.takeItem i.value = r) :
    exec .serviceDone s = .next ((if r = .accepted then s.takeItem.doService i.value else s.takeItem).respondService i r) := by
  show execServiceDone s = _
  unfold execServiceDone
  rw [h]
  dsimp only
  rw [decided]

theorem respondService_some {r : SettingResult} (h : s.svc.itemOf i.value = some x) : s.respondService i r =
    s.respond i r (some i.value) (some (x.inReport x.lastDone : Int)) (some (x.inReport x.duePoint : Int)) := by
  unfold State.respondService
  rw [h]
  rfl

theorem respondService_none {r : SettingResult} (h : s.svc.itemOf i.value = none) :
    s.respondService i r = s.respond i r (some i.value) none none := by
  unfold State.respondService
  rw [h]
  rfl

/-- The response to an accepted SERVICE_DONE (R148). -/
def servicedAnswer (s : State) (i : SettingItem) (x : ServiceItem) : State :=
  (s.takeItem.doService i.value).respond i .accepted (some i.value) (some (x.inReport (s.svc.reading x)))
    (some (x.inReport (s.svc.reading x + x.config.interval * basisMultiplier x.basis)))

theorem serviceDone_accepted (run : s.cfg.node = .run) (h : s.itemFor 0x20 = some i) (item : s.svc.itemOf i.value = some x)
    (stopped : s.engineRunning = false) : exec .serviceDone s = .next (servicedAnswer s i x) := by
  have decided : decideServiceDone s.takeItem i.value = .accepted := by
    rw [decideServiceDone_takeItem run, item, stopped]
    rfl
  have done : (s.takeItem.doService i.value).svc.itemOf i.value
      = some { x with lastDone := s.svc.reading x, state := .ok, remind := none } := by
    rw [itemOf_map (v := s.svc) (by rw [doService_svc]) (serviced_config _ _), item]
    exact congrArg some (if_pos (itemOf_number item).1)
  rw [serviceDone_eq h decided, if_pos rfl, respondService_some done]
  rfl

theorem servicedAnswer_svc (s : State) (i : SettingItem) (x : ServiceItem) :
    (servicedAnswer s i x).svc = (s.takeItem.doService i.value).svc := (respond_touches _ i _ _ _ _).svc rfl

theorem servicedAnswer_eco (s : State) (i : SettingItem) (x : ServiceItem) :
    (servicedAnswer s i x).eco = (serviceDerated s i.value).eco :=
  ((respond_touches _ i _ _ _ _).eco rfl).trans ((requestWrite_touches (serviceDerated s i.value)).eco rfl)

theorem servicedAnswer_ntc (s : State) (i : SettingItem) (x : ServiceItem) :
    (servicedAnswer s i x).ntc = (serviceDerated s i.value).ntc :=
  ((respond_touches _ i _ _ _ _).ntc rfl).trans ((requestWrite_touches (serviceDerated s i.value)).ntc rfl)

theorem servicedAnswer_block (s : State) (i : SettingItem) (x : ServiceItem) :
    recordBlock (servicedAnswer s i x) = recordBlock (serviceDerated s i.value) := by
  have answered := respond_touches (s.takeItem.doService i.value) i .accepted (some i.value) (some (x.inReport (s.svc.reading x)))
    (some (x.inReport (s.svc.reading x + x.config.interval * basisMultiplier x.basis)))
  refine (recordBlock_congr ?_ (answered.eco rfl) (answered.lim rfl) (answered.rule rfl)).trans (requestWrite_block _)
  rw [answered.svc rfl]

theorem servicedAnswer_touches (s : State) (i : SettingItem) (x : ServiceItem) : Touches serviceBlocks s (servicedAnswer s i x) :=
  (((takeItem_touches s).mono rfl).trans (doService_touches _ _)).trans ((respond_touches _ _ _ _ _ _).mono rfl)

/-- The order of an accepted SERVICE_DONE: the clear, the flag, the write, the response. -/
theorem servicedAnswer_order (run : s.cfg.node = .run) (i : SettingItem) (x : ServiceItem) : ∃ w : State,
    w = (if (servicedAnswer s i x).svc.derate = s.svc.derate then serviceCleared s i.value
      else State.reformTarget { serviceCleared s i.value with
        svc := { (serviceCleared s i.value).svc with derate := (servicedAnswer s i x).svc.derate } })
    ∧ servicedAnswer s i x = State.respond { w with svc := (servicedAnswer s i x).svc } i .accepted (some i.value)
        (some (x.inReport (s.svc.reading x)))
        (some (x.inReport (s.svc.reading x + x.config.interval * basisMultiplier x.basis))) := by
  obtain ⟨same, other⟩ := serviceDerated_cases run i.value
  have derate : (servicedAnswer s i x).svc.derate = (serviceDerated s i.value).svc.derate := by
    rw [servicedAnswer_svc, doService_svc, serviceDerated_svc]
  refine ⟨serviceDerated s i.value, ?_, ?_⟩
  · rw [derate]
    split
    · rename_i kept
      exact same kept
    · rename_i changed
      exact other changed
  · rw [servicedAnswer_svc]
    exact congrArg (fun v : State => v.respond i .accepted _ _ _) (requestWrite_frame (serviceDerated s i.value))

/-- Settles O39: by whether the number names an item and whether the engine runs. -/
theorem serviceDoneItem : Obligations.ServiceDoneItem := by
  intro s i run h
  have refused : ∀ (r : SettingResult) (a b : Option Int), r ≠ .accepted →
      exec .serviceDone s = .next (s.takeItem.respond i r (some i.value) a b) →
      ∃ t, exec .serviceDone s = .next t ∧ t = { s with link := t.link } ∧ ItemAnswered t i r (some i.value) a b :=
    fun r a b _ e => ⟨_, e, takeItem_respond_eq s i r _ _ _, takeItem_respond_answered run i r _ _ _⟩
  have frame : ∀ t : State, t = { s with link := t.link } → t.svc = s.svc ∧ t.eco = s.eco
      ∧ t = { s with eco := t.eco, svc := t.svc, ntc := t.ntc, snd := t.snd, link := t.link } := fun t e => by
    rw [e]
    exact ⟨rfl, rfl, rfl⟩
  cases item : s.svc.itemOf i.value with
  | none =>
    have decided : decideServiceDone s.takeItem i.value = .refused .range := by
      rw [decideServiceDone_takeItem run, item]
      rfl
    have e := serviceDone_eq h decided
    rw [if_neg (by decide), respondService_none (by rw [(takeItem_touches s).svc rfl]; exact item)] at e
    obtain ⟨t, ht, same, answered⟩ := refused _ _ _ (by decide) e
    obtain ⟨svc, eco, all⟩ := frame t same
    exact ⟨t, ht, fun _ => ⟨same, answered⟩, fun x some => absurd some (by simp), fun x some => absurd some (by simp),
      by rw [svc], by rw [svc], by rw [svc], by rw [eco], all⟩
  | some x =>
    cases running : s.engineRunning
    · obtain ⟨number, -⟩ := itemOf_number item
      have numbered : x.config.number = i.value.toNat := by omega
      have svc : (servicedAnswer s i x).svc = _ := (servicedAnswer_svc s i x).trans (doService_svc s i.value)
      have derated := serviceDerated_svc s i.value
      have derate : (servicedAnswer s i x).svc.derate = (serviceDerated s i.value).svc.derate := by rw [svc, derated]
      obtain ⟨starts, marks⟩ := requestWrite_write (serviceDerated s i.value)
      have before : (serviceDerated s i.value).svc.write = s.svc.write := by rw [derated]
      have again : (serviceDerated s i.value).svc.again = s.svc.again := by rw [derated]
      have now : (serviceDerated s i.value).now = s.now :=
        ((formDerate_touches _).now rfl).trans (((serviceCleared_touches s i.value).now rfl).trans
          ((itemServiced_touches s i.value).now rfl))
      rw [before, again] at starts
      rw [before] at marks
      refine ⟨servicedAnswer s i x, serviceDone_accepted run h item running, fun none => absurd none (by simp),
        fun y _ runs => absurd runs (by decide), fun y some _ => ?_, by rw [svc], by rw [svc], by rw [svc], by rw [servicedAnswer_eco, serviceDerated_mode],
        framed (servicedAnswer_touches s i x)⟩
      cases some
      refine ⟨by rw [svc]; rfl, by rw [svc], by rw [svc], fun none => ?_, fun ordered => ?_, fun changed => ?_, fun same => ?_, ?_,
        fun none => ?_, fun w writing => ?_, ?_⟩
      · rw [servicedAnswer_svc]
        exact (starts none).2
      · rw [servicedAnswer_ntc, numbered]
        exact serviceDerated_gone run ((noticesOrdered_iff s).1 ordered) _
      · rw [derate] at changed ⊢
        rw [servicedAnswer_eco]
        exact serviceDerated_target run _ changed
      · rw [derate] at same
        rw [servicedAnswer_eco, (serviceDerated_cases run _).1 same, (serviceCleared_touches s _).eco rfl,
          (itemServiced_touches s _).eco rfl]
      · obtain ⟨w, hw, order⟩ := servicedAnswer_order run i x
        have items : ({ s.takeItem with svc := { s.svc with items := (servicedAnswer s i x).svc.items } } : State)
            = itemServiced s i.value := by
          rw [svc]
          rfl
        rw [items, numbered]
        exact ⟨_, w, rfl, hw, order⟩
      · rw [servicedAnswer_block, servicedAnswer_svc, ← now]
        exact (starts none).1
      · rw [servicedAnswer_svc]
        exact marks w writing
      · exact respond_answered (takesOffer_run (by rw [(doService_touches _ _).cfg rfl, (takeItem_touches s).cfg rfl]; exact run)) _ _ _ _ _
    · have decided : decideServiceDone s.takeItem i.value = .refused .engineRunning := by
        rw [decideServiceDone_takeItem run, item, running]
        rfl
      have e := serviceDone_eq h decided
      rw [if_neg (by decide), respondService_some (x := x) (by rw [(takeItem_touches s).svc rfl]; exact item)] at e
      obtain ⟨t, ht, same, answered⟩ := refused _ _ _ (by decide) e
      obtain ⟨svc, eco, all⟩ := frame t same
      refine ⟨t, ht, fun none => absurd none (by simp), fun y some _ => ?_, fun y _ stopped => absurd stopped (by decide),
        by rw [svc], by rw [svc], by rw [svc], by rw [eco], all⟩
      cases some
      exact ⟨same, answered⟩

end Sys2Proof.Laws
end

section
/-! The end of a record write: its outcome, the follow-up write, and the entry that ends STORE (R150, R151, R188, R192). -/

namespace Sys2Proof.Laws

open Sys2Proof.Machine Relation

-- Many short proofs at once would each hold a thread of the checking process.
set_option Elab.async false

variable {s t u : State} {ok : Bool}

/-! ## The outcome of a write -/

/-- The snapshot is of the counters, the items and the settings (R149). -/
theorem recordBlock_of_counts (counts : t.svc.engineSeconds = s.svc.engineSeconds ∧ t.svc.weighted = s.svc.weighted
    ∧ t.svc.cycles = s.svc.cycles ∧ t.svc.unaccounted = s.svc.unaccounted ∧ t.svc.items = s.svc.items) (eco : t.eco = s.eco)
    (lim : t.lim = s.lim) (rule : t.rule = s.rule) : recordBlock t = recordBlock s := by
  obtain ⟨seconds, weighted, cycles, unaccounted, items⟩ := counts
  have body : recordBody t = recordBody s := by
    unfold recordBody
    rw [seconds, weighted, cycles, unaccounted, items, eco, lim, rule]
  unfold recordBlock
  rw [body]

/-- The write's end as SVC counts it. -/
def writeOver (s : State) (ok : Bool) : State := { s with svc := { s.svc with
  write := none
  lastFailed := !ok
  writeFails := if ok then s.svc.writeFails else min 65535 (s.svc.writeFails + 1) } }

/-- The write's end with the record-lost flag that a success clears (R192). -/
def writeJudged (s : State) (ok : Bool) : State := if ok then (writeOver s ok).recordGood else writeOver s ok

/-- SVC after a write's end, the follow-up write started (R150). -/
def endedSvc (s : State) (ok : Bool) : Svc := { s.svc with
  write := if s.svc.again then some ⟨recordBlock s, after s.now 50⟩ else none
  again := false
  writeFails := if ok then s.svc.writeFails else min 65535 (s.svc.writeFails + 1)
  lastFailed := !ok }

theorem writeJudged_touches (s : State) (ok : Bool) :
    Touches (noticeBlocks.or { cfg := true }) (writeOver s ok) (writeJudged s ok) :=
  .ite (recordGood_touches _) (.refl _ _)

theorem endWrite_eq (s : State) (ok : Bool) : s.endWrite ok = { writeJudged s ok with svc := endedSvc s ok } := by
  have touched := writeJudged_touches s ok
  have svc : (writeJudged s ok).svc = (writeOver s ok).svc := touched.svc rfl
  have ended : s.endWrite ok = if (writeJudged s ok).svc.again then
      ((writeJudged s ok).onSvc fun v => { v with again := false }).startWrite else writeJudged s ok := rfl
  have block : recordBlock ((writeJudged s ok).onSvc fun v => { v with again := false }) = recordBlock s := by
    refine recordBlock_of_counts ?_ (touched.eco rfl) (touched.lim rfl) (touched.rule rfl)
    rw [onSvc_svc, svc]
    exact ⟨rfl, rfl, rfl, rfl, rfl⟩
  rw [ended, svc]
  show (if s.svc.again = true then _ else _) = _
  cases again : s.svc.again
  · rw [if_neg (by decide)]
    have same : endedSvc s ok = (writeJudged s ok).svc := by
      rw [svc]
      unfold endedSvc
      rw [if_neg (by rw [again]; decide), ← again]
      rfl
    rw [same]
  · rw [if_pos rfl]
    unfold State.startWrite
    dsimp only
    have now : ((writeJudged s ok).onSvc fun v => { v with again := false }).now = s.now := touched.now rfl
    have started : endedSvc s ok = { (writeJudged s ok).svc with again := false, write := some ⟨recordBlock s, after s.now 50⟩ } := by
      rw [svc]
      unfold endedSvc
      rw [if_pos again]
      rfl
    rw [block, now, started]
    rfl

theorem recordGood_lost {c : RecordCheck} (h : s.cfg.recordLost = some c) :
    s.recordGood = (s.onCfg fun c => { c with recordLost := none }).clearNotice 0x70 := by
  unfold State.recordGood
  rw [h]

theorem recordGood_kept (h : s.cfg.recordLost = none) : s.recordGood = s := by
  unfold State.recordGood
  rw [h]

theorem recordGood_cfg (s : State) : s.recordGood.cfg = { s.cfg with recordLost := none } := by
  cases h : s.cfg.recordLost with
  | none =>
    rw [recordGood_kept h, ← h]
  | some c => rw [recordGood_lost h]; exact (clearNotice_touches _ _).cfg rfl

/-- Where no notice can follow, the flag alone is cleared. -/
theorem recordGood_still (h : s.cfg.recordLost = none ∨ s.cfg.node ≠ .run) :
    s.recordGood = { s with cfg := { s.cfg with recordLost := none } } := by
  cases lost : s.cfg.recordLost with
  | none => rw [recordGood_kept lost, ← lost]
  | some c =>
    have out : s.cfg.node ≠ .run := h.resolve_left (by rw [lost]; simp)
    rw [recordGood_lost lost]
    have notRun : s.inRun = false := by rw [← Bool.not_eq_true, inRun_iff]; exact out
    exact clearNotice_out (s := s.onCfg fun c => { c with recordLost := none }) notRun _

theorem writeJudged_cfg (s : State) (ok : Bool) :
    (writeJudged s ok).cfg = { s.cfg with recordLost := if ok then none else s.cfg.recordLost } := by
  cases ok
  · rfl
  · exact recordGood_cfg (writeOver s true)

theorem writeJudged_still (h : ok = false ∨ s.cfg.recordLost = none ∨ s.cfg.node ≠ .run) : writeJudged s ok =
    { writeOver s ok with cfg := { s.cfg with recordLost := if ok then none else s.cfg.recordLost } } := by
  cases ok
  · rfl
  · exact recordGood_still (s := writeOver s true) (h.resolve_left (by decide))

/-! ## The end of STORE -/

theorem endWrite_svc (s : State) (ok : Bool) : (s.endWrite ok).svc = endedSvc s ok := by rw [endWrite_eq]

theorem endWrite_cfg (s : State) (ok : Bool) :
    (s.endWrite ok).cfg = { s.cfg with recordLost := if ok then none else s.cfg.recordLost } := by
  rw [endWrite_eq]
  exact writeJudged_cfg s ok

theorem endWrite_frame (s : State) (ok : Bool) : s.endWrite ok = { s with
    cfg := (s.endWrite ok).cfg, svc := (s.endWrite ok).svc, ntc := (s.endWrite ok).ntc, snd := (s.endWrite ok).snd
    link := (s.endWrite ok).link } := by
  have counted : Touches ((noticeBlocks.or { cfg := true }).or { svc := true }) s (writeOver s ok) :=
    (onSvc_touches s fun _ => (writeOver s ok).svc).mono rfl
  have judged := counted.trans ((writeJudged_touches s ok).mono rfl)
  have ended := judged.trans ((onSvc_touches (writeJudged s ok) fun _ => endedSvc s ok).mono rfl)
  have all := framed ended
  rw [endWrite_eq]
  exact all

theorem endWrite_still (h : ok = false ∨ s.cfg.recordLost = none ∨ s.cfg.node ≠ .run) : s.endWrite ok = { s with
    cfg := { s.cfg with recordLost := if ok then none else s.cfg.recordLost }, svc := endedSvc s ok } := by
  rw [endWrite_eq, writeJudged_still h]
  rfl

/-- A store that is complete ends by the key, and every other state stands (R151, R188). -/
theorem storeEnd_stays (h : s.cfg.node ≠ .store ∨ s.svc.write ≠ none) : s.storeEnd = s := by
  refine if_neg fun k => ?_
  rcases h with h | h
  · exact h k.1
  · exact h (Option.isNone_iff_eq_none.1 k.2)

theorem storeEnd_leaves (store : s.cfg.node = .store) (idle : s.svc.write = none) : s.storeEnd = s.joinOrQuiet :=
  if_pos ⟨store, Option.isNone_iff_eq_none.2 idle⟩

theorem endedSvc_write (s : State) (ok : Bool) : (s.svc.again = true →
      (endedSvc s ok).write = some ⟨recordBlock s, after s.now 50⟩) ∧ (s.svc.again = false → (endedSvc s ok).write = none) :=
  ⟨fun again => if_pos again, fun idle => if_neg (by rw [idle]; decide)⟩

/-- Where STORE is not left, the end of a write is its outcome and the follow-up. -/
theorem writeEnd_stays (h : s.cfg.node ≠ .store ∨ s.svc.again = true) : (s.endWrite ok).storeEnd = s.endWrite ok := by
  refine storeEnd_stays (h.imp (fun node => ?_) fun again => ?_)
  · rw [endWrite_cfg]
    exact node
  · rw [endWrite_svc, (endedSvc_write s ok).1 again]
    simp

theorem writeEnd_leaves (store : s.cfg.node = .store) (idle : s.svc.again = false) :
    (s.endWrite ok).storeEnd = (s.endWrite ok).joinOrQuiet := by
  refine storeEnd_leaves ?_ ?_
  · rw [endWrite_cfg]
    exact store
  · rw [endWrite_svc]
    exact (endedSvc_write s ok).2 idle

theorem writeEnd_svc (s : State) (ok : Bool) : (s.endWrite ok).storeEnd.svc = endedSvc s ok := by
  have kept : (s.endWrite ok).storeEnd.svc = (s.endWrite ok).svc := by
    unfold State.storeEnd
    split
    · exact (joinOrQuiet_keeps _).2.1
    · rfl
  rw [kept, endWrite_svc]

theorem writeEnd_recordLost (s : State) (ok : Bool) :
    (s.endWrite ok).storeEnd.cfg.recordLost = if ok then none else s.cfg.recordLost := by
  have kept : (s.endWrite ok).storeEnd.cfg.recordLost = (s.endWrite ok).cfg.recordLost := by
    unfold State.storeEnd
    split
    · exact (joinOrQuiet_keeps _).2.2.2.1
    · rfl
  rw [kept, endWrite_cfg]

theorem endWrite_eco (s : State) (ok : Bool) : (s.endWrite ok).eco = s.eco := by rw [endWrite_frame]

theorem joinOrQuiet_frame (s : State) : s.joinOrQuiet = { s with
    cfg := s.joinOrQuiet.cfg, streams := s.joinOrQuiet.streams, lim := s.joinOrQuiet.lim
    eco := { s.eco with grant := s.joinOrQuiet.eco.grant }, link := s.joinOrQuiet.link } := by
  obtain ⟨-, -, ⟨g, eco⟩, -, -, frame⟩ := joinOrQuiet_keeps s
  have grant : ({ s.eco with grant := s.joinOrQuiet.eco.grant } : Eco) = s.joinOrQuiet.eco := by rw [eco]
  rw [grant]
  exact frame

theorem writeEnd_frame (s : State) (ok : Bool) : (s.endWrite ok).storeEnd = { s with
    cfg := (s.endWrite ok).storeEnd.cfg, streams := (s.endWrite ok).storeEnd.streams, lim := (s.endWrite ok).storeEnd.lim
    eco := { s.eco with grant := (s.endWrite ok).storeEnd.eco.grant }, svc := (s.endWrite ok).storeEnd.svc
    ntc := (s.endWrite ok).storeEnd.ntc, snd := (s.endWrite ok).storeEnd.snd, link := (s.endWrite ok).storeEnd.link } := by
  have ended := endWrite_frame s ok
  unfold State.storeEnd
  split
  · have left := joinOrQuiet_frame (s.endWrite ok)
    generalize (s.endWrite ok).joinOrQuiet = t at left ⊢
    rw [ended] at left
    rw [left]
  · generalize s.endWrite ok = t at ended ⊢
    rw [ended]

/-- JOIN or QUIET by the key, and JOIN re-reads the grant as none (R39, R120, R188). -/
theorem joinOrQuiet_grant (s : State) : (s.joinOrQuiet.cfg.node = .quiet → s.joinOrQuiet.eco = s.eco)
    ∧ (s.joinOrQuiet.cfg.node = .join → s.joinOrQuiet.eco.grant = .none) := by
  unfold State.joinOrQuiet
  split
  · obtain ⟨join, -⟩ := enterJoin_enters s
    rw [join]
    exact ⟨fun e => NodeState.noConfusion e, fun _ => rfl⟩
  · obtain ⟨cfg, frame, -⟩ := enterQuiet_enters s
    refine ⟨fun _ => by rw [frame], fun e => ?_⟩
    rw [cfg] at e
    cases e

/-- The state from which the entry that ends STORE goes. -/
theorem writeEnd_enters (store : s.cfg.node = .store) (idle : s.svc.again = false) :
    (s.cfg.key = true → EntersJoin (s.endWrite ok) (s.endWrite ok).storeEnd)
    ∧ (s.cfg.key = false → EntersQuiet (s.endWrite ok) (s.endWrite ok).storeEnd) := by
  have key : (s.endWrite ok).cfg.key = s.cfg.key := by rw [endWrite_cfg]
  rw [writeEnd_leaves store idle]
  refine ⟨fun on => ?_, fun off => ?_⟩
  · rw [State.joinOrQuiet, if_pos (key.trans on)]
    exact enterJoin_enters _
  · rw [State.joinOrQuiet, if_neg (by rw [key, off]; decide)]
    exact enterQuiet_enters _

theorem writeEnd_node (s : State) (ok : Bool) : (s.svc.again = true → (s.endWrite ok).storeEnd.cfg.node = s.cfg.node)
    ∧ (s.svc.again = false → (s.endWrite ok).storeEnd.cfg.node =
      if s.cfg.node = .store then (if s.cfg.key then .join else .quiet) else s.cfg.node) := by
  refine ⟨fun again => ?_, fun idle => ?_⟩
  · rw [writeEnd_stays (.inr again), endWrite_cfg]
  · by_cases store : s.cfg.node = .store
    · obtain ⟨-, -, -, -, node, -⟩ := joinOrQuiet_keeps (s.endWrite ok)
      rw [writeEnd_leaves store idle, node, endWrite_cfg, if_pos store]
    · rw [writeEnd_stays (.inl store), endWrite_cfg, if_neg store]

/-- A success that ends a loss in RUN clears 0x70 (R192). -/
theorem writeEnd_cleared (lost : s.cfg.recordLost ≠ none) (run : s.cfg.node = .run) : ∃ v : State,
    v = State.clearNotice { s with cfg := { s.cfg with recordLost := none }
                                   svc := { s.svc with write := none, lastFailed := false } } 0x70
    ∧ (s.endWrite true).storeEnd = { v with svc := (s.endWrite true).storeEnd.svc }
    ∧ (NoticesOrdered s → ∀ r ∈ (s.endWrite true).storeEnd.ntc.held, r.id ≠ 0x70) := by
  obtain ⟨c, some⟩ := Option.ne_none_iff_exists'.1 lost
  have ended : (s.endWrite true).storeEnd = { writeJudged s true with svc := endedSvc s true } := by
    rw [writeEnd_stays (.inl (by rw [run]; decide)), endWrite_eq]
  have judged : writeJudged s true = State.clearNotice
      { s with cfg := { s.cfg with recordLost := none }, svc := { s.svc with write := none, lastFailed := false } } 0x70 := recordGood_lost (s := writeOver s true) some
  refine ⟨_, rfl, ?_, fun ordered => ?_⟩
  · rw [writeEnd_svc, ← judged]
    exact ended
  · rw [ended, judged]
    exact clearNotice_gone run ((noticesOrdered_iff s).1 ordered)

/-- What the end of a write gives, by its outcome (R150, R151, R192). -/
theorem writeEnds (s : State) (ok : Bool) (t : State) (ht : t = (s.endWrite ok).storeEnd) :
    t.svc.lastFailed = !ok
      ∧ t.svc.writeFails = (if ok then s.svc.writeFails else min 65535 (s.svc.writeFails + 1))
      ∧ t.cfg.recordLost = (if ok then none else s.cfg.recordLost)
      ∧ (s.svc.again = true → t.svc.write = some ⟨recordBlock s, after s.now 50⟩ ∧ t.svc.again = false
          ∧ t.cfg.node = s.cfg.node)
      ∧ (s.svc.again = false → t.svc.write = none ∧ t.cfg.node =
          if s.cfg.node = .store then (if s.cfg.key then .join else .quiet) else s.cfg.node)
      ∧ t.svc.engineSeconds = s.svc.engineSeconds ∧ t.svc.items = s.svc.items
      ∧ t = { s with cfg := t.cfg, streams := t.streams, lim := t.lim, eco := { s.eco with grant := t.eco.grant },
                     svc := t.svc, ntc := t.ntc, snd := t.snd, link := t.link }
      ∧ (t.cfg.node = s.cfg.node ∨ t.cfg.node = .quiet → t.eco = s.eco)
      ∧ (s.cfg.node = .store → t.cfg.node = .join → t.eco.grant = .none)
      ∧ t.svc = { s.svc with
          write := t.svc.write, again := t.svc.again, writeFails := t.svc.writeFails, lastFailed := t.svc.lastFailed }
      ∧ ∀ u : State, u = { s with cfg := { s.cfg with recordLost := t.cfg.recordLost }, svc := t.svc } →
        (t.cfg.node = s.cfg.node → (ok = false ∨ s.cfg.recordLost = none ∨ s.cfg.node ≠ .run) → t = u)
        ∧ (s.cfg.node = .store → s.svc.again = false →
          (s.cfg.key = true → EntersJoin u t) ∧ (s.cfg.key = false → EntersQuiet u t)) := by
  have svc := writeEnd_svc s ok
  have lost := writeEnd_recordLost s ok
  obtain ⟨nodeAgain, nodeIdle⟩ := writeEnd_node s ok
  have frame := writeEnd_frame s ok
  obtain ⟨writeAgain, writeIdle⟩ := endedSvc_write s ok
  have entered : ∀ (store : s.cfg.node = .store) (idle : s.svc.again = false),
      (s.endWrite ok).storeEnd.cfg.node = if s.cfg.key then .join else .quiet := fun store idle => by
    rw [nodeIdle idle, if_pos store]
  have leaves : s.cfg.node = .store → (s.endWrite ok).storeEnd.cfg.node ≠ .store → s.svc.again = false := fun store other => by
    cases again : s.svc.again
    · rfl
    · exact absurd ((nodeAgain again).trans store) other
  rw [ht]
  refine ⟨by rw [svc]; rfl, by rw [svc]; rfl, lost, fun again => ⟨by rw [svc, writeAgain again], by rw [svc]; rfl, nodeAgain again⟩,
    fun idle => ⟨by rw [svc, writeIdle idle], nodeIdle idle⟩, by rw [svc]; rfl, by rw [svc]; rfl, frame, fun h => ?_,
    fun store join => ?_, by rw [svc]; rfl, fun u hu => ?_⟩
  · by_cases stays : s.cfg.node ≠ .store ∨ s.svc.again = true
    · rw [writeEnd_stays stays, endWrite_eco]
    · obtain ⟨store, idle⟩ := not_or.1 stays
      have store := not_not.1 store
      have idle := Bool.eq_false_iff.2 idle
      have quiet : (s.endWrite ok).storeEnd.cfg.node = .quiet := by
        refine h.resolve_left fun same => ?_
        rw [entered store idle, store] at same
        split at same <;> cases same
      rw [writeEnd_leaves store idle] at quiet ⊢
      rw [(joinOrQuiet_grant _).1 quiet, endWrite_eco]
  · have idle := leaves store (by rw [join]; decide)
    rw [writeEnd_leaves store idle] at join ⊢
    exact (joinOrQuiet_grant _).2 join
  · rw [svc, lost] at hu
    refine ⟨fun same still => ?_, fun store idle => ?_⟩
    · have stays : s.cfg.node ≠ .store ∨ s.svc.again = true := by
        by_cases store : s.cfg.node = .store
        · cases again : s.svc.again
          · rw [entered store again, store] at same
            split at same <;> cases same
          · exact .inr rfl
        · exact .inl store
      rw [writeEnd_stays stays, hu]
      exact endWrite_still still
    · rw [hu, ← endWrite_still (.inr (.inr (by rw [store]; decide)))]
      exact writeEnd_enters store idle

theorem recordBlock_arriveAt (s : State) (d : Ms) : recordBlock (s.arriveAt d) = recordBlock s :=
  recordBlock_of_counts (by rw [arriveAt_svc]; exact ⟨rfl, rfl, rfl, rfl, rfl⟩) (arriveAt_eco s d) (arriveAt_lim s d)
    (arriveAt_rule s d)

/-- Settles O43: both commands end the write, the second with a failure at its deadline. -/
theorem recordWritesEnd : Obligations.RecordWritesEnd := by
  refine ⟨fun s w answered ok writing outcome => ?_, fun s w writing => ?_⟩
  · refine ⟨(s.endWrite ok).storeEnd, ?_, ?_⟩
    · show execRecordWriteDone answered s = _
      unfold execRecordWriteDone
      rw [writing, outcome]
    obtain ⟨failed, fails, lost, again, idle, seconds, items, frame, eco, grant, svc, entry⟩ := writeEnds s ok _ rfl
    refine ⟨failed, fails, lost, again, idle, seconds, items, frame, eco, grant, svc, fun succeeds some run => ?_, entry⟩
    rw [succeeds]
    exact writeEnd_cleared some run
  · refine ⟨((s.arriveAt w.deadline).endWrite false).storeEnd, ?_, ?_⟩
    · show execRecordWriteTimeout s = _
      unfold execRecordWriteTimeout
      rw [writing]
    obtain ⟨failed, fails, lost, again, idle, seconds, items, frame, eco, grant, svc, entry⟩ :=
      writeEnds (s.arriveAt w.deadline) false _ rfl
    rw [arriveAt_svc] at fails again idle seconds items svc entry
    rw [arriveAt_cfg] at lost again idle eco grant entry
    rw [arriveAt_eco] at frame eco
    rw [recordBlock_arriveAt] at again
    refine ⟨failed, fails, lost, again, idle, seconds, items, frame, eco, grant, svc, fun u hu => ?_⟩
    obtain ⟨still, enters⟩ := entry u (by
      rw [lost, hu]
      exact congrArg (fun c : Cfg => ({ s.arriveAt w.deadline with cfg := c, svc := _ } : State)) (arriveAt_cfg s w.deadline))
    exact ⟨fun same => still same (.inl rfl), enters⟩

end Sys2Proof.Laws
end

section
/-! Two frames of ECO offered one after the other: neither offer displaces the other frame (R130, R131, R179, R180). -/

namespace Sys2Proof.Laws

open Sys2Proof.Machine Relation

-- Many short proofs at once would each hold a thread of the checking process.
set_option Elab.async false

variable {s t u : State} {l l' : LinkUnit} {k : TxKind} {f x : TxFrame} {node : NodeState} {cls : TxClass}

/-! ## No frame of a kind -/

theorem noneQueued_iff : NoneQueued l k ↔ (∀ c, ∀ g ∈ classOf l c, g.kind ≠ k) ∧ ∀ g, l.beside = some g → g.kind ≠ k := by
  refine ⟨fun h => ⟨fun c g mem => h g ?_, fun g held => h g (.inr (.inr (.inr held)))⟩, fun ⟨classes, beside⟩ g mem => ?_⟩
  · cases c
    · exact .inl mem
    · exact .inr (.inl mem)
    · exact .inr (.inr (.inl mem))
  · rcases mem with mem | mem | mem | held
    · exact classes .urgent g mem
    · exact classes .normal g mem
    · exact classes .background g mem
    · exact beside g held

theorem classOf_withdrawKind (k : TxKind) (l : LinkUnit) (c : TxClass) :
    classOf (withdrawKind k l) c = (classOf l c).filter fun g => g.kind != k := by
  cases c <;> rfl

theorem beside_withdrawKind (k : TxKind) (l : LinkUnit) : (withdrawKind k l).beside = l.beside.filter fun g => g.kind != k := rfl

/-- A withdrawal leaves no frame of its kind (R180). -/
theorem withdrawKind_none (k : TxKind) (l : LinkUnit) : NoneQueued (withdrawKind k l) k := by
  refine noneQueued_iff.2 ⟨fun c g mem => ?_, fun g held => ?_⟩
  · rw [classOf_withdrawKind] at mem
    simpa using (List.mem_filter.1 mem).2
  · rw [beside_withdrawKind] at held
    simpa using (Option.filter_eq_some_iff.1 held).2

theorem withdrawKind_keeps_none (k' : TxKind) (h : NoneQueued l k) : NoneQueued (withdrawKind k' l) k := by
  obtain ⟨classes, beside⟩ := noneQueued_iff.1 h
  refine noneQueued_iff.2 ⟨fun c g mem => ?_, fun g held => ?_⟩
  · rw [classOf_withdrawKind] at mem
    exact classes c g (List.mem_filter.1 mem).1
  · rw [beside_withdrawKind] at held
    exact beside g (Option.filter_eq_some_iff.1 held).1

theorem mem_replaceKind {g : TxFrame} : ∀ {fs : List TxFrame}, g ∈ replaceKind f fs → g ∈ fs ∨ g.kind = f.kind
  | y :: ys, h => by
    unfold replaceKind at h
    split at h
    · rcases List.mem_cons.1 h with rfl | mem
      · exact .inr rfl
      · exact .inl (List.mem_cons_of_mem _ mem)
    · rcases List.mem_cons.1 h with rfl | mem
      · exact .inl (List.mem_cons_self ..)
      · exact (mem_replaceKind mem).imp_left (List.mem_cons_of_mem _)

/-- An offer of another kind brings no frame of this one. -/
theorem offerFrame_keeps_none (node : NodeState) (cls : TxClass) (other : f.kind ≠ k) (h : NoneQueued l k) :
    NoneQueued (offerFrame node cls f l).1 k := by
  obtain ⟨classes, beside⟩ := noneQueued_iff.1 h
  have changed : ∀ {m : LinkUnit} {fs : List TxFrame}, m.beside = l.beside → (∀ c, c ≠ cls → classOf m c = classOf l c) →
      (∀ g ∈ fs, g ∈ classOf l cls ∨ g.kind = f.kind) → NoneQueued (setClass m cls fs) k := by
    intro m fs held same from_class
    refine noneQueued_iff.2 ⟨fun c g mem => ?_, fun g b => beside g (by rw [setClass_eq] at b; rw [← held]; exact b)⟩
    rw [classOf_setClass_ite] at mem
    split at mem
    · rename_i e
      subst e
      rcases from_class g mem with here | kind
      · exact classes _ g here
      · rw [kind]
        exact other
    · rename_i ne
      rw [same c ne] at mem
      exact classes c g mem
  obtain ⟨n, e⟩ | ⟨g, -, -, -, -, e⟩ | ⟨-, e⟩ | ⟨-, e⟩ := offerFrame_cases node cls f l
  · rw [e]
    exact noneQueued_iff.2 ⟨fun c g mem => classes c g (by cases c <;> exact mem), beside⟩
  · rw [e]
    refine noneQueued_iff.2 ⟨fun c g mem => classes c g (by cases c <;> exact mem), fun g held => ?_⟩
    cases held
    exact other
  · rw [e]
    exact changed rfl (fun _ _ => rfl) fun g mem => mem_replaceKind mem
  · obtain ⟨-, j⟩ | ⟨-, n, j⟩ := joinClass_cases cls f l
    · rw [e, j]
      refine changed rfl (fun _ _ => rfl) fun g mem => ?_
      rcases List.mem_append.1 mem with here | last
      · exact .inl here
      · exact .inr (by rw [List.mem_singleton.1 last])
    · rw [e, j]
      refine changed (setClass_beside _ _ _) (fun c ne => (classOf_setClass_ne _ _ ne).trans (by cases c <;> rfl)) fun g mem => ?_
      rcases List.mem_append.1 mem with here | last
      · exact .inl ((dropFirst_sublist _ _).subset here)
      · exact .inr (by rw [List.mem_singleton.1 last])

/-! ## A frame that the next offer finds -/

/-- A frame waits in NORMAL where the class has room or the frame is its newest, or it is held beside the attempt. -/
def Waits (l : LinkUnit) (x : TxFrame) : Prop :=
  x ∈ l.normal ∧ (l.normal.length < 8 ∨ l.normal.getLast? = some x) ∨ l.beside = some x

/-- An offer to a class with room leaves the frame waiting. -/
theorem offerFrame_waits (takes : takesOffer node f.kind = true) (plain : f.kind ≠ .pose ∧ f.kind ≠ .guidance)
    (room : l.normal.length < 8) :
    ∃ x, Waits (offerFrame node .normal f l).1 x ∧ x.kind = f.kind ∧ x.destination = f.destination ∧ x.data = f.data := by
  have thin : l.thinning = false ∨ oddSequence f = false := .inr (oddSequence_plain plain)
  have joins : ∃ x, Waits (joinClass .normal f l).1 x ∧ x.kind = f.kind ∧ x.destination = f.destination ∧ x.data = f.data := by
    rw [joinClass_room (show (classOf l .normal).length < capacity .normal from room)]
    refine ⟨f, .inl ⟨?_, .inr ?_⟩, rfl, rfl, rfl⟩
    · show f ∈ l.normal ++ [f]
      simp
    · show (l.normal ++ [f]).getLast? = some f
      simp
  cases per : periodic .normal f.kind with
  | false =>
    rw [offerFrame_joins takes thin (.inl per)]
    exact joins
  | true =>
    cases found : (classOf l .normal).find? (fun x => x.kind == f.kind) with
    | none =>
      rw [offerFrame_joins takes thin (.inr fun g hg => by simpa using List.find?_eq_none.1 found g hg)]
      exact joins
    | some g =>
      rw [offerFrame_replaces takes thin per found]
      split
      · exact ⟨f, .inr rfl, rfl, rfl, rfl⟩
      · obtain ⟨before, rest, -, r⟩ := replaceKind_eq found
        refine ⟨{ f with current := g.current }, .inl ⟨?_, .inl ?_⟩, rfl, rfl, rfl⟩
        · show _ ∈ replaceKind f (classOf l .normal)
          rw [r]
          simp
        · show (replaceKind f (classOf l .normal)).length < 8
          rw [replaceKind_length]
          exact room

theorem replaceKind_keeps {g : TxFrame} (other : g.kind ≠ f.kind) : ∀ {fs : List TxFrame}, g ∈ fs → g ∈ replaceKind f fs
  | y :: ys, h => by
    unfold replaceKind
    split
    · rename_i same
      rcases List.mem_cons.1 h with rfl | mem
      · exact absurd same other
      · exact List.mem_cons_of_mem _ mem
    · rcases List.mem_cons.1 h with rfl | mem
      · exact List.mem_cons_self ..
      · exact List.mem_cons_of_mem _ (replaceKind_keeps other mem)

/-- In a sound transmitter a full class does not discard its newest frame (R180, R182). -/
theorem dropFirst_keeps_last (h : TransmitSound l) (full : 8 ≤ l.normal.length) (last : l.normal.getLast? = some x) :
    x ∈ (dropFirst l.onWire l.normal).2 := by
  have ne : l.normal ≠ [] := by
    intro e
    rw [e] at full
    exact absurd full (by decide)
  obtain ⟨before, g, rest, e, held, free, d⟩ := dropFirst_eq l.onWire ne
  rw [d]
  have alone : (currentKinds (classOf l .normal)).length ≤ 1 := h.alone .normal
  have few : before.length ≤ 1 := by
    have all : before.filter (·.current) = before := List.filter_eq_self.2 fun y hy => (held y hy).1
    have same : (classOf l .normal) = before ++ g :: rest := e
    rw [same, currentKinds_append] at alone
    have own : (currentKinds before).length = before.length := by
      unfold currentKinds
      rw [all, List.length_map]
    rw [List.length_append] at alone
    omega
  have long : rest ≠ [] := by
    intro none
    rw [e, none, List.length_append, List.length_singleton] at full
    omega
  rw [e, List.getLast?_append_of_ne_nil _ (List.cons_ne_nil _ _), List.getLast?_cons_of_ne_nil long] at last
  exact List.mem_append.2 (.inr (List.mem_of_getLast? last))

/-- A waiting frame of another kind stays queued through the next offer (R179, R180). -/
theorem offerFrame_keeps_waiting (sound : TransmitSound l) (waits : Waits l x) (other : x.kind ≠ f.kind) :
    x ∈ (offerFrame node .normal f l).1.normal ∨ (offerFrame node .normal f l).1.beside = some x := by
  obtain ⟨n, e⟩ | ⟨g, found, -, current, wire, e⟩ | ⟨-, e⟩ | ⟨-, e⟩ := offerFrame_cases node .normal f l
  · rw [e]
    exact waits.imp_left And.left
  · rw [e]
    rcases waits with ⟨mem, -⟩ | held
    · exact .inl mem
    · obtain ⟨-, c, here, -⟩ := sound.beside x held
      have kind : g.kind = f.kind := by simpa using List.find?_some found
      have normal : f.kind ∈ currentKinds (classOf l .normal) := by
        rw [← kind]
        exact List.mem_map_of_mem (List.mem_filter.2 ⟨List.mem_of_find?_eq_some found, current⟩)
      obtain rfl : c = .normal := sound.unique (List.ne_nil_of_mem here) (List.ne_nil_of_mem normal)
      obtain ⟨y, hy, ky⟩ := sound.current_of normal
      rw [sound.currentKinds_of hy, List.mem_singleton] at here
      exact absurd (here.trans ky) other
  · rw [e]
    rcases waits with ⟨mem, -⟩ | held
    · exact .inl (replaceKind_keeps other mem)
    · exact .inr held
  · rw [e]
    obtain ⟨-, j⟩ | ⟨full, n, j⟩ := joinClass_cases .normal f l
    · rw [j]
      rcases waits with ⟨mem, -⟩ | held
      · exact .inl (List.mem_append_left _ mem)
      · exact .inr held
    · rw [j]
      rcases waits with ⟨mem, room | last⟩ | held
      · exact absurd room (Nat.not_lt.2 full)
      · exact .inl (List.mem_append_left _ (dropFirst_keeps_last sound full last))
      · exact .inr held

end Sys2Proof.Laws
end

section
/-! The engine request record, its frames and its seconds (R128 to R131, R135). -/

namespace Sys2Proof.Laws

open Sys2Proof.Machine Relation

-- Many short proofs at once would each hold a thread of the checking process.
set_option Elab.async false

variable {s t u : State} {l : LinkUnit} {k : TxKind}

/-! ## The least of the limits -/

/-- The least of the present values is one of them, and none is below it (R129, R131). -/
theorem leastOf_facts (mode : Int) (cap derate : Option Int) : leastOf mode cap derate ≤ mode
    ∧ (∀ c, cap = some c → leastOf mode cap derate ≤ c) ∧ (∀ d, derate = some d → leastOf mode cap derate ≤ d)
    ∧ (leastOf mode cap derate = mode ∨ cap = some (leastOf mode cap derate) ∨ derate = some (leastOf mode cap derate)) := by
  unfold leastOf
  cases cap <;> cases derate <;> simp <;> omega

/-- The value that the derate flag adds to the limits. -/
def derateValue (derate : Bool) (v : Int) : Option Int := if derate then some v else none

theorem derateValue_eq {derate : Bool} {v n : Int} : derateValue derate v = some n ↔ derate = true ∧ n = v := by
  cases derate <;> simp [derateValue, eq_comm]

theorem capValue_eq {c : Option Nat} {n : Int} : capValue c = some n ↔ ∃ m, c = some m ∧ n = m := by
  cases c <;> simp [capValue, eq_comm]

theorem leastOf_nonneg {mode : Int} {cap : Option Nat} {derate : Bool} {v : Int} (hm : 0 ≤ mode) (hv : 0 ≤ v) :
    0 ≤ leastOf mode (capValue cap) (derateValue derate v) := by
  obtain ⟨-, -, -, e | e | e⟩ := leastOf_facts mode (capValue cap) (derateValue derate v)
  · rw [e]
    exact hm
  · obtain ⟨m, -, eq⟩ := capValue_eq.1 e
    omega
  · obtain ⟨-, eq⟩ := derateValue_eq.1 e
    omega

theorem formTarget_eq (p : EcoConfig) (derate : Bool) (e : Eco) : (e.formTarget p derate : Int) =
    leastOf (p.modeSpeed.get e.mode) (capValue e.speedCap) (derateValue derate p.modeSpeed.economy) :=
  Int.toNat_of_nonneg (leastOf_nonneg (by omega) (by omega))

theorem formPump_eq {p : EcoConfig} (pos : ∀ m, 0 ≤ p.modePump.get m) (derate : Bool) (e : Eco) : (e.formPump p derate : Int) =
    leastOf (p.modePump.get e.mode) (capValue e.pumpCap) (derateValue derate p.modePump.economy) :=
  Int.toNat_of_nonneg (leastOf_nonneg (pos _) (pos .economy))

/-- The target speed is the least of the mode's, the cap and the derate's (R129). -/
theorem formTarget_least (p : EcoConfig) (derate : Bool) (e : Eco) :
    e.formTarget p derate ≤ p.modeSpeed.get e.mode ∧ (∀ n, e.speedCap = some n → e.formTarget p derate ≤ n)
      ∧ (derate = true → e.formTarget p derate ≤ p.modeSpeed.economy)
      ∧ (e.formTarget p derate = p.modeSpeed.get e.mode ∨ e.speedCap = some (e.formTarget p derate)
          ∨ derate = true ∧ e.formTarget p derate = p.modeSpeed.economy) := by
  have value := formTarget_eq p derate e
  obtain ⟨mode, cap, slow, one⟩ :=
    leastOf_facts (p.modeSpeed.get e.mode) (capValue e.speedCap) (derateValue derate p.modeSpeed.economy)
  rw [← value] at mode cap slow one
  refine ⟨by omega, fun n h => ?_, fun on => ?_, ?_⟩
  · have := cap n (capValue_eq.2 ⟨n, h, rfl⟩)
    omega
  · have := slow _ (derateValue_eq.2 ⟨on, rfl⟩)
    omega
  · rcases one with e' | e' | e'
    · exact .inl (by omega)
    · obtain ⟨m, h, eq⟩ := capValue_eq.1 e'
      exact .inr (.inl (by rw [h]; exact congrArg some (by omega)))
    · obtain ⟨on, eq⟩ := derateValue_eq.1 e'
      exact .inr (.inr ⟨on, by omega⟩)

/-- The pump limit is the least of the mode's, the cap and the derate's (R131). -/
theorem formPump_least {p : EcoConfig} (pos : ∀ m, 0 ≤ p.modePump.get m) (derate : Bool) (e : Eco) {n : Int}
    (hn : n = e.formPump p derate) :
    n ≤ p.modePump.get e.mode ∧ (∀ c, e.pumpCap = some c → n ≤ c) ∧ (derate = true → n ≤ p.modePump.economy)
      ∧ (n = p.modePump.get e.mode ∨ (∃ c, e.pumpCap = some c ∧ n = c) ∨ derate = true ∧ n = p.modePump.economy) := by
  obtain ⟨mode, cap, slow, one⟩ :=
    leastOf_facts (p.modePump.get e.mode) (capValue e.pumpCap) (derateValue derate p.modePump.economy)
  rw [← formPump_eq pos derate e, ← hn] at mode cap slow one
  refine ⟨mode, fun c h => cap c (capValue_eq.2 ⟨c, h, rfl⟩), fun on => slow _ (derateValue_eq.2 ⟨on, rfl⟩), ?_⟩
  exact one.imp_right (Or.imp capValue_eq.1 fun e' => derateValue_eq.1 e')

theorem firstGovernor_eq (mode : Int) (cap : Option Nat) (n : Nat) : firstGovernor mode (capValue cap) n =
    if mode = n then .mode else if cap = some n then .ruleCap else .derate := by
  have same : capValue cap = some (n : Int) ↔ cap = some n := by
    rw [capValue_eq]
    refine ⟨fun ⟨m, h, e⟩ => by rw [h]; exact congrArg some (by omega), fun h => ⟨n, h, rfl⟩⟩
  unfold firstGovernor
  simp only [same]

theorem requesting_iff (e : EcoState) : e.requesting = true ↔ e ≠ .off ∧ e ≠ .yielded := by cases e <;> decide

/-- The record formed (R128, R129, R131). -/
theorem formRecord_facts (p : EcoConfig) (derate : Bool) (e r : Eco) (n k : Nat) (hr : r = e.formRecord p derate)
    (hn : n = e.formTarget p derate) (hk : k = e.formPump p derate) :
    r.target = n
      ∧ r.requested = (if e.state = .off ∨ e.state = .yielded then none
          else some (if e.state = .idleLow then p.idleSpeed else n))
      ∧ (e.state = .idleLow → r.speedGov = .idle)
      ∧ ((e.state = .work ∨ e.state = .neutralWait ∨ e.state = .recover) → r.speedGov =
          if p.modeSpeed.get e.mode = n then .mode else if e.speedCap = some n then .ruleCap else .derate)
      ∧ r.pumpLimit = (if e.state = .off then none else some k)
      ∧ ((∀ m, 0 ≤ p.modePump.get m) → e.state ≠ .off → r.pumpGov =
          if p.modePump.get e.mode = k then .mode else if e.pumpCap = some k then .ruleCap else .derate)
      ∧ r = { e with target := r.target, requested := r.requested, speedGov := r.speedGov, pumpLimit := r.pumpLimit
                     pumpGov := r.pumpGov } := by
  subst hr hn hk
  refine ⟨rfl, ?_, fun idle => if_pos idle, fun working => ?_, rfl, fun _ on => ?_, rfl⟩
  · show (if e.state.requesting = true then _ else _) = _
    cases e.state <;> rfl
  · have notIdle : e.state ≠ .idleLow := by rcases working with h | h | h <;> rw [h] <;> decide
    have requests : e.state.requesting = true := by rcases working with h | h | h <;> rw [h] <;> rfl
    show (if e.state = .idleLow then _ else _) = _
    rw [if_neg notIdle, if_pos requests, firstGovernor_eq]
    simp only [Nat.cast_inj]
  · show (if e.state = .off then _ else _) = _
    rw [if_neg on, firstGovernor_eq]

/-! ## The two frames -/

theorem tellSpeed_cases (s : State) (b : Option Nat) : (s.eco.requested = b ∧ s.tellSpeed b = s)
    ∨ (s.eco.requested ≠ b ∧ s.eco.requested ≠ none ∧ s.tellSpeed b = s.offerSpeed)
    ∨ (s.eco.requested ≠ b ∧ s.eco.requested = none ∧ s.tellSpeed b = s.onLink (withdrawKind .speedRequest)) := by
  unfold State.tellSpeed
  split
  · rename_i same
    exact .inl ⟨same, rfl⟩
  · rename_i other
    split
    · rename_i some
      exact .inr (.inl ⟨other, Option.isSome_iff_ne_none.1 some, rfl⟩)
    · rename_i none
      exact .inr (.inr ⟨other, by simpa using none, rfl⟩)

theorem tellPump_cases (s : State) (b : Option Nat) : (s.eco.pumpLimit = b ∧ s.tellPump b = s)
    ∨ (s.eco.pumpLimit ≠ b ∧ s.eco.pumpLimit ≠ none ∧ s.tellPump b = s.offerPump)
    ∨ (s.eco.pumpLimit ≠ b ∧ s.eco.pumpLimit = none ∧ s.tellPump b = s.onLink (withdrawKind .pumpLimit)) := by
  unfold State.tellPump
  split
  · rename_i same
    exact .inl ⟨same, rfl⟩
  · rename_i other
    split
    · rename_i some
      exact .inr (.inl ⟨other, Option.isSome_iff_ne_none.1 some, rfl⟩)
    · rename_i none
      exact .inr (.inr ⟨other, by simpa using none, rfl⟩)

/-- A speed request offered where NORMAL has room waits. -/
theorem offerSpeed_waits (takes : takesOffer s.cfg.node .speedRequest = true) (room : s.link.normal.length < 8) :
    ∃ x, Waits s.offerSpeed.link x ∧ x.kind = .speedRequest ∧ x.destination = s.img.economy.engineAddress
      ∧ x.data = speedData s.eco :=
  offerFrame_waits (f := s.frame .speedRequest s.img.economy.engineAddress (speedData s.eco)) takes
    (show TxKind.speedRequest ≠ .pose ∧ TxKind.speedRequest ≠ .guidance by decide) room

theorem offerPump_queued (takes : takesOffer s.cfg.node .pumpLimit = true) :
    Queued s.offerPump.link .normal .pumpLimit 0xFF (pumpData s.eco) := offer_queued takes (by decide) _ _

theorem offerSpeed_sound (h : TransmitSound s.link) : TransmitSound s.offerSpeed.link := offerFrame_sound rfl h

theorem queued_of_waits {cls : TxClass} {x : TxFrame} (normal : cls = .normal) (h : x ∈ l.normal ∨ l.beside = some x)
    {dst : Byte} {data : List Byte} (kind : x.kind = k) (destination : x.destination = dst) (bytes : x.data = data) :
    Queued l cls k dst data := by
  subst normal
  exact ⟨x, h, kind, destination, bytes⟩

/-- The pump limit told after a speed request leaves it queued. -/
theorem tellPump_keeps_waiting {x : TxFrame} (sound : TransmitSound s.link) (waits : Waits s.link x) (kind : x.kind = .speedRequest)
    (b : Option Nat) : x ∈ (s.tellPump b).link.normal ∨ (s.tellPump b).link.beside = some x := by
  have other : x.kind ≠ .pumpLimit := by rw [kind]; decide
  obtain ⟨-, e⟩ | ⟨-, -, e⟩ | ⟨-, -, e⟩ := tellPump_cases s b
  · rw [e]
    exact waits.imp_left And.left
  · rw [e]
    exact offerFrame_keeps_waiting sound waits other
  · rw [e]
    refine waits.imp (fun h => List.mem_filter.2 ⟨h.1, by simpa using other⟩) fun held => ?_
    show Option.filter _ s.link.beside = _
    rw [held]
    exact Option.filter_some_pos (by simpa using other)

theorem tellPump_keeps_none (h : NoneQueued s.link .speedRequest) (b : Option Nat) :
    NoneQueued (s.tellPump b).link .speedRequest := by
  obtain ⟨-, e⟩ | ⟨-, -, e⟩ | ⟨-, -, e⟩ := tellPump_cases s b
  · rw [e]
    exact h
  · rw [e]
    exact offerFrame_keeps_none s.cfg.node .normal (f := s.frame .pumpLimit 0xFF (pumpData s.eco))
      (show TxKind.pumpLimit ≠ .speedRequest by decide) h
  · rw [e]
    exact withdrawKind_keeps_none .pumpLimit h

/-- The record formed before a frame of it is offered. -/
def recordFormed (s : State) : State := { s with eco := s.eco.formRecord s.img.economy s.svc.derate }

theorem reform_eq (s : State) : s.reform = ((recordFormed s).tellSpeed s.eco.requested).tellPump s.eco.pumpLimit := rfl

/-- What a forming of the record offers and withdraws (R130, R131). -/
theorem reform_tells (s : State) : s.reform.eco = s.eco.formRecord s.img.economy s.svc.derate
      ∧ (TransmitterSound s → takesOffer s.cfg.node .speedRequest = true → s.link.normal.length < 8 →
          s.reform.eco.requested ≠ s.eco.requested → s.reform.eco.requested ≠ none →
          Queued s.reform.link .normal .speedRequest s.img.economy.engineAddress (speedData s.reform.eco))
      ∧ (s.reform.eco.requested ≠ s.eco.requested → s.reform.eco.requested = none → NoneQueued s.reform.link .speedRequest)
      ∧ (takesOffer s.cfg.node .pumpLimit = true → s.reform.eco.pumpLimit ≠ s.eco.pumpLimit → s.reform.eco.pumpLimit ≠ none →
          Queued s.reform.link .normal .pumpLimit 0xFF (pumpData s.reform.eco))
      ∧ (s.reform.eco.pumpLimit ≠ s.eco.pumpLimit → s.reform.eco.pumpLimit = none → NoneQueued s.reform.link .pumpLimit)
      ∧ (s.reform.eco.requested = s.eco.requested → s.reform.eco.pumpLimit = s.eco.pumpLimit → s.reform.link = s.link)
      ∧ s.reform = { s with eco := s.reform.eco, link := s.reform.link } := by
  have eco := reform_eco s
  have spoken := tellSpeed_touches (recordFormed s) s.eco.requested
  have pump : ((recordFormed s).tellSpeed s.eco.requested).eco = s.reform.eco := by
    rw [eco]
    exact spoken.eco rfl
  have speed : (recordFormed s).eco = s.reform.eco := eco.symm
  have speedCases := tellSpeed_cases (recordFormed s) s.eco.requested
  have pumpCases := tellPump_cases ((recordFormed s).tellSpeed s.eco.requested) s.eco.pumpLimit
  rw [speed] at speedCases
  rw [pump, ← reform_eq] at pumpCases
  refine ⟨eco, fun sound takes room changed some => ?_, fun changed none => ?_, fun takes changed some => ?_, fun changed none => ?_,
    fun same still => ?_, framed (reform_touches s)⟩
  · obtain ⟨same, -⟩ | ⟨-, -, e⟩ | ⟨-, none, -⟩ := speedCases
    · exact absurd same changed
    · obtain ⟨x, waits, kind, destination, data⟩ := offerSpeed_waits (s := recordFormed s) takes room
      have told := tellPump_keeps_waiting (offerSpeed_sound (s := recordFormed s) ((transmitterSound_iff s).1 sound)) waits kind
        s.eco.pumpLimit
      rw [← e, ← reform_eq] at told
      exact queued_of_waits rfl told kind destination (by rw [data, speed])
    · exact absurd none some
  · obtain ⟨same, -⟩ | ⟨-, some, -⟩ | ⟨-, -, e⟩ := speedCases
    · exact absurd same changed
    · exact absurd none some
    · have told := tellPump_keeps_none (s := (recordFormed s).onLink (withdrawKind .speedRequest)) (withdrawKind_none _ _) s.eco.pumpLimit
      rw [← e, ← reform_eq] at told
      exact told
  · obtain ⟨same, -⟩ | ⟨-, -, e⟩ | ⟨-, none, -⟩ := pumpCases
    · exact absurd same changed
    · have queued := offerPump_queued (s := (recordFormed s).tellSpeed s.eco.requested) (by rw [spoken.cfg rfl]; exact takes)
      rw [← e, pump] at queued
      exact queued
    · exact absurd none some
  · obtain ⟨same, -⟩ | ⟨-, some, -⟩ | ⟨-, -, e⟩ := pumpCases
    · exact absurd same changed
    · exact absurd none some
    · rw [e]
      exact withdrawKind_none _ _
  · obtain ⟨-, e⟩ | ⟨changed, -⟩ | ⟨changed, -⟩ := pumpCases
    · obtain ⟨-, e'⟩ | ⟨changed, -⟩ | ⟨changed, -⟩ := speedCases
      · rw [e, e']
        rfl
      · exact absurd same changed
      · exact absurd same changed
    · exact absurd still changed
    · exact absurd still changed

/-! ## The timers -/

/-- The request timer's next period begun. -/
def requestBegun (s : State) (d : Ms) : State := { s.arriveAt d with eco := { s.eco with requestTimer := some (after d 100) } }

/-- The speed request where ECO requests. -/
def speedOffered (s : State) : State := if s.eco.state.requesting then s.offerSpeed else s

theorem requestTimerExpiry_eq {d : Ms} (h : s.eco.requestTimer = some d) : exec .requestTimerExpiry s = .next
    (if s.eco.state = .off then speedOffered (requestBegun s d) else (speedOffered (requestBegun s d)).offerPump) := by
  have begun : ((s.arriveAt d).onEco fun e => { e with requestTimer := some (after d 100) }) = requestBegun s d := by
    unfold requestBegun State.onEco
    rw [arriveAt_eco]
  have state : (speedOffered (requestBegun s d)).eco.state = s.eco.state := by
    unfold speedOffered
    split <;> rfl
  show execRequestTimerExpiry s = _
  unfold execRequestTimerExpiry
  rw [h]
  dsimp only
  rw [begun]
  show Host.Outcome.next (if (speedOffered (requestBegun s d)).eco.state = .off then _ else _) = _
  rw [state]
  rfl

theorem countEcoSecond_eq (e : Eco) : countEcoSecond e = { e with
    idleSeconds := if e.state = .idleLow then e.idleSeconds + 1 else e.idleSeconds
    workSeconds := if e.state = .idleLow ∨ e.state = .off then e.workSeconds else e.workSeconds + 1 } := by
  unfold countEcoSecond
  split
  · rename_i state
    rw [if_pos state, if_pos (.inl state)]
  all_goals
    rename_i state
    rw [if_neg (by rw [state]; decide)]
  · rw [if_neg (by rw [state]; decide)]
  · rw [if_neg (by rw [state]; decide)]
  · rw [if_neg (by rw [state]; decide)]
  · rw [if_neg (by rw [state]; decide)]
  · rw [if_pos (.inr state)]

theorem requestBegun_touches (s : State) (d : Ms) : Touches { now := true, eco := true } s (requestBegun s d) :=
  ((arriveAt_touches s d).mono rfl).trans ((onEco_touches (s.arriveAt d) fun _ => (requestBegun s d).eco).mono rfl)

theorem speedOffered_touches (s : State) : Touches { link := true } s (speedOffered s) :=
  .ite (offer_touches s _ _ _ _) (.refl _ s)

/-- Both frames of a request timer's expiry are queued, the speed request first (R130, R131). -/
theorem requestTimer_frames (s : State) (d : Ms) (t : State) (ht : t = if s.eco.state = .off then speedOffered (requestBegun s d)
      else (speedOffered (requestBegun s d)).offerPump) :
    t = { s.arriveAt d with eco := { s.eco with requestTimer := some (after d 100) }, link := t.link }
    ∧ (TransmitterSound s → takesOffer s.cfg.node .speedRequest = true → s.link.normal.length < 8 →
        s.eco.state.requesting = true →
        Queued t.link .normal .speedRequest s.img.economy.engineAddress (speedData s.eco))
    ∧ (takesOffer s.cfg.node .pumpLimit = true → s.eco.state ≠ .off →
        Queued t.link .normal .pumpLimit 0xFF (pumpData s.eco)) := by
  have begun := requestBegun_touches s d
  have offered := speedOffered_touches (requestBegun s d)
  have eco : (speedOffered (requestBegun s d)).eco = { s.eco with requestTimer := some (after d 100) } := offered.eco rfl
  have img : (requestBegun s d).img = s.img := by
    unfold State.img
    rw [begun.image rfl]
  have touched : Touches { link := true } (requestBegun s d) t := by
    rw [ht]
    exact .ite offered (offered.trans (offer_touches _ _ _ _ _))
  refine ⟨framed touched, fun sound takes room requests => ?_, fun takes on => ?_⟩
  · have on : s.eco.state ≠ .off := ((requesting_iff _).1 requests).1
    have spoken : speedOffered (requestBegun s d) = (requestBegun s d).offerSpeed := if_pos requests
    obtain ⟨x, waits, kind, destination, data⟩ := offerSpeed_waits (s := requestBegun s d) (by rw [begun.cfg rfl]; exact takes)
      (by rw [begun.link rfl]; exact room)
    have told := offerFrame_keeps_waiting (node := (requestBegun s d).offerSpeed.cfg.node)
      (f := (requestBegun s d).offerSpeed.frame .pumpLimit 0xFF (pumpData (requestBegun s d).offerSpeed.eco))
      (offerSpeed_sound (by rw [begun.link rfl]; exact (transmitterSound_iff s).1 sound)) waits
      (by rw [kind]; exact (show TxKind.speedRequest ≠ .pumpLimit by decide))
    rw [ht, if_neg on, spoken]
    exact queued_of_waits rfl told kind (by rw [destination, img]) data
  · have queued := offerPump_queued (s := speedOffered (requestBegun s d)) (by rw [offered.cfg rfl, begun.cfg rfl]; exact takes)
    rw [eco] at queued
    rw [ht, if_neg on]
    exact queued

/-- Settles O37: the two timers, the least of the limits, and the record with its frames. -/
theorem requestsAndSeconds : Obligations.RequestsAndSeconds := by
  refine ⟨fun s d timer => ⟨_, requestTimerExpiry_eq timer, requestTimer_frames s d _ rfl⟩, fun s d timer => ?_,
    fun p derate e n hn pos => formPump_least pos derate e hn, formRecord_facts, fun s u hu => ?_, fun e => ⟨rfl, rfl⟩, rfl, rfl, rfl,
    formTarget_least⟩
  · show execEcoSecondExpiry s = _
    unfold execEcoSecondExpiry State.onEco
    rw [timer]
    dsimp only
    rw [arriveAt_eco, countEcoSecond_eq]
  · rw [hu]
    exact reform_tells s

end Sys2Proof.Laws
end

section
/-! The setting items of ECO: WORK_MODE, AUTO_IDLE_ENABLE and AUTO_IDLE_DELAY (R116, R117). -/

namespace Sys2Proof.Laws

open Sys2Proof.Machine Relation

-- Many short proofs at once would each hold a thread of the checking process.
set_option Elab.async false

variable {s t u : State} {i : SettingItem}

/-! ## The target speed stands -/

/-- ECO's target is the one of its mode, its caps and the derate flag (R129). -/
def TargetStands (s : State) : Prop := TargetFormed s s.svc.derate s.eco

theorem targetStands_of (image : t.image = s.image) (svc : t.svc = s.svc) (h : TargetFormed s s.svc.derate t.eco) :
    TargetStands t := by
  unfold TargetStands TargetFormed State.img at *
  rw [image, svc]
  exact h

theorem reform_stands (s : State) : TargetStands s.reform :=
  targetStands_of ((reform_touches s).image rfl) ((reform_touches s).svc rfl) (reform_target s)

theorem enterEco_stands (s : State) (st : EcoState) : TargetStands (s.enterEco st) := reform_stands _

theorem enterNeutralWait_stands (s : State) : TargetStands s.enterNeutralWait := enterEco_stands s .neutralWait

theorem enterWork_stands (s : State) : TargetStands s.enterWork :=
  targetStands_of ((enterWork_touches s).image rfl) ((enterWork_touches s).svc rfl) (enterWork_target s)

theorem recoveryTest_stands (h : TargetStands s) : TargetStands s.recoveryTest :=
  targetStands_of ((recoveryTest_touches s).image rfl) ((recoveryTest_touches s).svc rfl) (recoveryTest_target h)

theorem enterRecover_stands (s : State) : TargetStands s.enterRecover :=
  recoveryTest_stands (s := (s.enterEco .recover).onEco _) (enterEco_stands s .recover)

/-- The permit's changes form the target anew, or leave it. -/
theorem permitEvent_stands (h : TargetStands s) : TargetStands s.permitEvent := by
  unfold State.permitEvent
  split
  · split
    · exact enterNeutralWait_stands s
    · exact h
  · split
    · exact h
    · exact enterWork_stands s
  · split
    · exact h
    · exact enterRecover_stands s
  all_goals exact h

theorem reformTarget_stands (s : State) : TargetStands s.reformTarget :=
  targetStands_of ((reformTarget_touches s).image rfl) ((reformTarget_touches s).svc rfl) (reformTarget_target s)

theorem writeCaps_stands (run : s.cfg.node = .run) (a : RuleActions) : TargetStands (s.writeCaps a) := by
  unfold State.writeCaps
  dsimp only
  rw [if_pos ((inRun_iff _).2 (by exact run))]
  exact permitEvent_stands (reformTarget_stands _)

theorem changeWinner_stands (run : s.cfg.node = .run) (w : Nat) (k : Key) : TargetStands (s.changeWinner w k) := by
  have told := ruleNotices_touches (beforeNotices s w) s.rule.winner w k
  have node : ((s.onRule fun u => { u with winner := some w, hits := u.hits.set w (sat16 (u.hits.getD w 0)) }).writeCuts
      (s.actions w)).cfg.node = .run := by
    rw [(writeCuts_touches _ _).cfg rfl]
    exact run
  have written := writeCaps_stands node (s.actions w)
  have sounded : TargetStands (beforeNotices s w) := by
    have sound := ruleSound_touches (((s.onRule fun u => { u with winner := some w, hits := u.hits.set w (sat16 (u.hits.getD w 0)) }).writeCuts
      (s.actions w)).writeCaps (s.actions w)) (s.rule.winner.bind fun o => soundOf (s.actions o)) (soundOf (s.actions w))
    unfold beforeNotices
    refine targetStands_of (sound.image rfl) (sound.svc rfl) ?_
    rw [sound.eco rfl]
    exact written
  rw [changeWinner_eq]
  refine targetStands_of (told.image rfl) (told.svc rfl) ?_
  rw [told.eco rfl]
  exact sounded

/-- A lookup keeps the target formed: a winner change forms it on the caps (R121, R129). -/
theorem lookupKey_stands (run : s.cfg.node = .run) (h : TargetStands s) (k : Key) : TargetStands (s.lookupKey k) := by
  unfold State.lookupKey
  dsimp only
  split
  · exact h
  · exact changeWinner_stands run _ _

theorem rebuild_stands (h : TargetStands s) : TargetStands s.rebuild := by
  unfold State.rebuild
  split
  · rename_i run
    dsimp only
    split
    · exact h
    · have held : TargetStands (s.onRule fun u => { u with key := some s.zoneKey }) := targetStands_of (s := s) rfl rfl h
      exact lookupKey_stands (s := s.onRule fun u => { u with key := some s.zoneKey }) ((inRun_iff s).1 run) held s.zoneKey
  · exact h

/-! ## WORK_MODE -/

/-- ECO with a mode, the item taken. -/
def moded (s : State) (m : WorkMode) : State := { s.takeItem with eco := { s.eco with mode := m } }

/-- WORK_MODE answered with a mode. -/
def modeAnswered (s : State) (i : SettingItem) (r : SettingResult) (m : WorkMode) : State :=
  (s.takeItem.changeMode m).respond i r (some m.code) none none

theorem workMode_eq (run : s.cfg.node = .run) (h : s.itemFor 0x10 = some i) {r : SettingResult} {m : WorkMode}
    (decided : decideMode true s.svc.derate s.eco.mode i.value = (r, m)) :
    exec .workMode s = .next (modeAnswered s i r m) := by
  show execWorkMode s = _
  unfold execWorkMode
  rw [h, (inRun_iff s).2 run]
  dsimp only
  rw [decided]
  rfl

theorem changeMode_same (s : State) : s.takeItem.changeMode s.eco.mode = s.takeItem := if_pos rfl

theorem changeMode_other {m : WorkMode} (other : m ≠ s.eco.mode) :
    s.takeItem.changeMode m = (moded s m).reformTarget.rebuild := if_neg other

theorem moded_touches (s : State) (m : WorkMode) : Touches { eco := true, link := true } s (moded s m) :=
  ((takeItem_touches s).mono rfl).trans ((onEco_touches s.takeItem fun _ => { s.eco with mode := m }).mono rfl)

/-- What a mode leaves of ECO's settings (R116). -/
theorem changeMode_agrees (s : State) (m : WorkMode) : AgreeOutsideLimits (moded s m) (s.takeItem.changeMode m) := by
  by_cases same : m = s.eco.mode
  · subst same
    rw [changeMode_same]
    exact agree_refl s.takeItem
  · rw [changeMode_other same]
    exact agree_trans (acts_agree (reformTarget_acts _)) (rebuild_agrees _)

theorem changeMode_touches (s : State) (m : WorkMode) : Touches ruleBlocks s (s.takeItem.changeMode m) := by
  have taken : Touches ruleBlocks s s.takeItem := (takeItem_touches s).mono rfl
  by_cases same : m = s.eco.mode
  · subst same
    rw [changeMode_same]
    exact taken
  · rw [changeMode_other same]
    exact (((moded_touches s m).mono rfl).trans ((reformTarget_touches _).mono rfl)).trans (rebuild_touches _)

/-- What every answer to WORK_MODE gives. -/
theorem modeAnswered_facts (run : s.cfg.node = .run) (i : SettingItem) (r : SettingResult) (m : WorkMode) {t : State}
    (ht : t = modeAnswered s i r m) : t.eco.mode = m ∧ ItemAnswered t i r (some m.code) none none
      ∧ (m = s.eco.mode → t = { s with link := t.link })
      ∧ (m ≠ s.eco.mode → t.eco.target = t.eco.formTarget s.img.economy s.svc.derate
        ∧ t = (moded s m).reformTarget.rebuild.respond i r (some m.code) none none)
      ∧ t.eco.autoIdle = s.eco.autoIdle ∧ t.eco.delay = s.eco.delay ∧ t.eco.fuelTotal = s.eco.fuelTotal
      ∧ t.rule.profile = s.rule.profile
      ∧ t = { s with rule := t.rule, vch := t.vch, eco := t.eco, ntc := t.ntc, snd := t.snd, link := t.link } := by
  have answered := respond_touches (s.takeItem.changeMode m) i r (some (m.code : Int)) none none
  have agrees := changeMode_agrees s m
  obtain ⟨-, -, rule, -, eco, -⟩ := agrees
  have frame := changeMode_touches s m
  rw [ht]
  unfold modeAnswered
  refine ⟨?_, ?_, fun same => ?_, fun other => ⟨?_, ?_⟩, ?_, ?_, ?_, ?_, framed (frame.trans (answered.mono rfl))⟩
  · rw [answered.eco rfl, eco]
    rfl
  · exact respond_answered (takesOffer_run (by rw [frame.cfg rfl]; exact run)) _ _ _ _ _
  · subst same
    rw [changeMode_same]
    exact takeItem_respond_eq _ _ _ _ _ _
  · have stands : TargetStands (s.takeItem.changeMode m) := by
      rw [changeMode_other other]
      exact rebuild_stands (reformTarget_stands _)
    unfold TargetStands TargetFormed State.img at stands
    rw [frame.image rfl, frame.svc rfl] at stands
    rw [answered.eco rfl]
    exact stands
  · rw [changeMode_other other]
  · rw [answered.eco rfl, eco]
    rfl
  · rw [answered.eco rfl, eco]
    rfl
  · rw [answered.eco rfl, eco]
    rfl
  · rw [answered.rule rfl, rule]
    rfl

end Sys2Proof.Laws
end

section
/-! The economy items (R116, R117), by what an entry to an economy state gives (R123 to R131). -/

namespace Sys2Proof.Laws

open Sys2Proof.Machine Relation

-- Many short proofs at once would each hold a thread of the checking process.
set_option Elab.async false

variable {s t u : State} {i : SettingItem} {st : EcoState}

/-! ## An entry to an economy state -/

/-- ECO at an entry to a state, before the record is formed (R123 to R127). -/
def ecoEntered (s : State) (st : EcoState) : Eco :=
  watchYield s.now s.img.economy { s.eco with state := st, delayTimer := none, recoveryTimer := none }

theorem enterEco_eco (s : State) (st : EcoState) :
    (s.enterEco st).eco = (ecoEntered s st).formRecord s.img.economy s.svc.derate := reform_eco (s.onEco fun _ => ecoEntered s st)

/-- What the forming of the record leaves. -/
theorem formRecord_keeps (p : EcoConfig) (derate : Bool) (e : Eco) : e.formRecord p derate = { e with
    target := (e.formRecord p derate).target, requested := (e.formRecord p derate).requested
    speedGov := (e.formRecord p derate).speedGov, pumpLimit := (e.formRecord p derate).pumpLimit
    pumpGov := (e.formRecord p derate).pumpGov } := rfl

/-- What an entry changes of ECO but the record and the timers that go with the state. -/
theorem enterEco_keeps (s : State) (st : EcoState) : (s.enterEco st).eco = { s.eco with
    state := st, delayTimer := none, recoveryTimer := none, yieldTimer := (s.enterEco st).eco.yieldTimer
    target := (s.enterEco st).eco.target, requested := (s.enterEco st).eco.requested, speedGov := (s.enterEco st).eco.speedGov
    pumpLimit := (s.enterEco st).eco.pumpLimit, pumpGov := (s.enterEco st).eco.pumpGov } := by
  rw [enterEco_eco]
  rfl

theorem enterEco_requested (s : State) (st : EcoState) : (s.enterEco st).eco.requested =
    if st = .off ∨ st = .yielded then none
    else some (if st = .idleLow then s.img.economy.idleSpeed else (s.enterEco st).eco.target) := by
  obtain ⟨target, requested, -⟩ := formRecord_facts s.img.economy s.svc.derate (ecoEntered s st) _ _ _ rfl rfl rfl
  rw [enterEco_eco, requested, target]
  rfl

/-- The target of an entry is that of the mode and caps, which the entry leaves (R129). -/
theorem enterEco_formed (s : State) (st : EcoState) :
    (s.enterEco st).eco.target = s.eco.formTarget s.img.economy s.svc.derate := by
  rw [enterEco_eco]
  rfl

/-- An entry changes ECO and its frames (R130, R131). -/
theorem enterEco_frame (s : State) (st : EcoState) : s.enterEco st = { s with
    eco := (s.enterEco st).eco, link := (s.enterEco st).link } := by
  obtain ⟨-, -, -, -, -, -, frame⟩ := reform_tells (s.onEco fun _ => ecoEntered s st)
  exact frame

/-! ## AUTO_IDLE_ENABLE -/

/-- ECO with an enable, the item taken. -/
def enabled (s : State) (on : Bool) : State := { s.takeItem with eco := { s.eco with autoIdle := on } }

/-- AUTO_IDLE_ENABLE answered with an enable. -/
def enableAnswered (s : State) (i : SettingItem) (r : SettingResult) (on : Bool) : State :=
  (s.takeItem.changeEnable on).respond i r (some (bit on)) none none

theorem autoIdleEnable_eq (run : s.cfg.node = .run) (h : s.itemFor 0x11 = some i) {r : SettingResult} {on : Bool}
    (decided : decideEnable true s.eco.autoIdle i.value = (r, on)) :
    exec .autoIdleEnable s = .next (enableAnswered s i r on) := by
  show execAutoIdleEnable s = _
  unfold execAutoIdleEnable
  rw [h, (inRun_iff s).2 run]
  dsimp only
  rw [decided]
  rfl

theorem changeEnable_same (s : State) : s.takeItem.changeEnable s.eco.autoIdle = s.takeItem := if_pos rfl

theorem changeEnable_other {on : Bool} (other : on ≠ s.eco.autoIdle) :
    s.takeItem.changeEnable on = (enabled s on).permitEvent := if_neg other

theorem enabled_touches (s : State) (on : Bool) : Touches { eco := true, link := true } s (enabled s on) :=
  ((takeItem_touches s).mono rfl).trans ((onEco_touches s.takeItem fun _ => { s.eco with autoIdle := on }).mono rfl)

theorem changeEnable_touches (s : State) (on : Bool) : Touches ecoBlocks s (s.takeItem.changeEnable on) := by
  have taken : Touches ecoBlocks s s.takeItem := (takeItem_touches s).mono rfl
  by_cases same : on = s.eco.autoIdle
  · subst same
    rw [changeEnable_same]
    exact taken
  · rw [changeEnable_other same]
    exact ((enabled_touches s on).mono rfl).trans (permitEvent_touches _)

theorem changeEnable_agrees (s : State) (on : Bool) : AgreeOutsideLimits (enabled s on) (s.takeItem.changeEnable on) := by
  by_cases same : on = s.eco.autoIdle
  · subst same
    rw [changeEnable_same]
    exact agree_refl s.takeItem
  · rw [changeEnable_other same]
    exact acts_agree (permitEvent_acts _)

/-- What every answer to AUTO_IDLE_ENABLE gives. -/
theorem enableAnswered_facts (run : s.cfg.node = .run) (i : SettingItem) (r : SettingResult) (on : Bool) {t : State}
    (ht : t = enableAnswered s i r on) : t.eco.autoIdle = on ∧ ItemAnswered t i r (some (bit on)) none none
      ∧ (on = s.eco.autoIdle → t = { s with link := t.link })
      ∧ (on ≠ s.eco.autoIdle → t = (enabled s on).permitEvent.respond i r (some (bit on)) none none)
      ∧ t.eco.mode = s.eco.mode ∧ t.eco.delay = s.eco.delay
      ∧ t = { s with eco := t.eco, ntc := t.ntc, snd := t.snd, link := t.link } := by
  have answered := respond_touches (s.takeItem.changeEnable on) i r (some (bit on : Int)) none none
  obtain ⟨-, -, -, -, eco, -⟩ := changeEnable_agrees s on
  have frame := changeEnable_touches s on
  rw [ht]
  unfold enableAnswered
  refine ⟨?_, ?_, fun same => ?_, fun other => ?_, ?_, ?_, framed (frame.trans (answered.mono rfl))⟩
  · rw [answered.eco rfl, eco]
    rfl
  · exact respond_answered (takesOffer_run (by rw [frame.cfg rfl]; exact run)) _ _ _ _ _
  · subst same
    rw [changeEnable_same]
    exact takeItem_respond_eq _ _ _ _ _ _
  · rw [changeEnable_other other]
  · rw [answered.eco rfl, eco]
    rfl
  · rw [answered.eco rfl, eco]
    rfl

/-! ## AUTO_IDLE_DELAY -/

/-- ECO with a delay, the item taken. -/
def delayed (s : State) (n : Nat) : State := { s.takeItem with eco := { s.eco with delay := n } }

/-- ECO with a delay whose running timer has another end. -/
def redelayed (s : State) (n : Nat) : State :=
  { s.takeItem with eco := { s.eco with delay := n, delayTimer := some (after s.eco.delayStart (n * 1000)) } }

theorem changeDelay_eq (s : State) (n : Nat) : s.takeItem.changeDelay n =
    if n = s.eco.delay then s.takeItem
    else if s.eco.state = .neutralWait then
      (if reached s.now (after s.eco.delayStart (n * 1000)) then (delayed s n).enterEco .idleLow else redelayed s n)
    else delayed s n := rfl

theorem delayed_same (s : State) : delayed s s.eco.delay = s.takeItem := rfl

/-- What a delay gives ECO (R117). -/
theorem changeDelay_facts (s : State) (n : Nat) {t : State} (ht : t = s.takeItem.changeDelay n) : t.eco.delay = n
      ∧ (n ≠ s.eco.delay → s.eco.state = .neutralWait →
          if reached s.now (after s.eco.delayStart (n * 1000)) then t.eco.state = .idleLow ∧ t.eco.delayTimer = none
            ∧ t.eco.requested = some s.img.economy.idleSpeed
          else t.eco.state = .neutralWait ∧ t.eco.delayTimer = some (after s.eco.delayStart (n * 1000))
            ∧ t.eco = { s.eco with delay := n, delayTimer := t.eco.delayTimer })
      ∧ ((s.eco.state ≠ .neutralWait ∨ n = s.eco.delay) → t.eco = { s.eco with delay := n })
      ∧ t = { s with eco := t.eco, link := t.link } := by
  rw [changeDelay_eq] at ht
  by_cases same : n = s.eco.delay
  · rw [if_pos same] at ht
    subst same
    rw [ht]
    exact ⟨rfl, fun other => absurd rfl other, fun _ => rfl, rfl⟩
  · rw [if_neg same] at ht
    by_cases waits : s.eco.state = .neutralWait
    · rw [if_pos waits] at ht
      refine ⟨?_, fun _ _ => ?_, fun h => absurd h (not_or.2 ⟨not_not_intro waits, same⟩), ?_⟩
      · rw [ht]
        split
        · rw [enterEco_keeps]
          rfl
        · rfl
      · split
        · rename_i past
          rw [ht, if_pos past]
          refine ⟨by rw [enterEco_keeps], by rw [enterEco_keeps], ?_⟩
          rw [enterEco_requested]
          rfl
        · rename_i runs
          rw [ht, if_neg runs]
          exact ⟨waits, rfl, rfl⟩
      · rw [ht]
        split
        · exact (enterEco_frame (delayed s n) .idleLow).trans rfl
        · rfl
    · rw [if_neg waits] at ht
      rw [ht]
      exact ⟨rfl, fun _ h => absurd h waits, fun _ => rfl, rfl⟩

theorem autoIdleDelay_eq (run : s.cfg.node = .run) (h : s.itemFor 0x12 = some i) {n : Nat} (hn : (n : Int) = clampInt 4 30 i.value) :
    exec .autoIdleDelay s = .next ((s.takeItem.changeDelay n).respond i
      (if (n : Int) = i.value then .accepted else .clamped none) (some n) none none) := by
  have decided : decideDelay true s.eco.delay i.value = (if (n : Int) = i.value then .accepted else .clamped none, n) := by
    unfold decideDelay
    rw [if_neg (by decide)]
    dsimp only
    rw [← hn, Int.toNat_natCast]
  show execAutoIdleDelay s = _
  unfold execAutoIdleDelay
  rw [h, (inRun_iff s).2 run]
  dsimp only
  rw [decided]

/-! ## The statement -/

theorem ofCode_none {v : Int} (h : v < 0 ∨ 3 < v) : WorkMode.ofCode v = none := by
  unfold WorkMode.ofCode
  rw [if_neg (by omega), if_neg (by omega), if_neg (by omega), if_neg (by omega)]

theorem ofCode_some {v : Int} (low : 0 ≤ v) (high : v ≤ 3) : ∃ m, WorkMode.ofCode v = some m ∧ (m.code : Int) = v := by
  obtain rfl | rfl | rfl | rfl : v = 0 ∨ v = 1 ∨ v = 2 ∨ v = 3 := by omega
  · exact ⟨.heavy, rfl, rfl⟩
  · exact ⟨.standard, rfl, rfl⟩
  · exact ⟨.economy, rfl, rfl⟩
  · exact ⟨.lift, rfl, rfl⟩

/-- A mode that the derate flag would slow: HEAVY or STANDARD (R116). -/
theorem slowed_iff {v : Int} {m : WorkMode} (h : (m.code : Int) = v) : (m == .heavy || m == .standard) = true ↔ v = 0 ∨ v = 1 := by
  subst h
  cases m <;> decide

/-- WORK_MODE decided in RUN (R116). -/
theorem decideMode_cases (derate : Bool) (held : WorkMode) (v : Int) :
    ((v < 0 ∨ 3 < v) ∧ decideMode true derate held v = (.refused .range, held))
    ∨ (0 ≤ v ∧ v ≤ 3 ∧ (derate = true ∧ (v = 0 ∨ v = 1)) ∧ decideMode true derate held v = (.clamped (some .derate), .economy))
    ∨ (0 ≤ v ∧ v ≤ 3 ∧ ¬ (derate = true ∧ (v = 0 ∨ v = 1))
      ∧ ∃ m : WorkMode, (m.code : Int) = v ∧ decideMode true derate held v = (.accepted, m)) := by
  unfold decideMode
  rw [if_neg (by decide)]
  by_cases range : v < 0 ∨ 3 < v
  · refine .inl ⟨range, ?_⟩
    rw [ofCode_none range]
  · obtain ⟨m, code, value⟩ := ofCode_some (v := v) (by omega) (by omega)
    rw [code]
    dsimp only
    by_cases slow : derate = true ∧ (v = 0 ∨ v = 1)
    · refine .inr (.inl ⟨by omega, by omega, slow, ?_⟩)
      rw [if_pos (by rw [Bool.and_eq_true, slowed_iff value]; exact slow)]
    · refine .inr (.inr ⟨by omega, by omega, slow, m, value, ?_⟩)
      rw [if_neg (by rw [Bool.and_eq_true, slowed_iff value]; exact slow)]

theorem economy_workMode (run : s.cfg.node = .run) (h : s.itemFor 0x10 = some i) : ∃ t, exec .workMode s = .next t
    ∧ ((i.value < 0 ∨ 3 < i.value) → t.eco = s.eco
        ∧ ItemAnswered t i (.refused .range) (some s.eco.mode.code) none none)
    ∧ (s.svc.derate = true → (i.value = 0 ∨ i.value = 1) → t.eco.mode = .economy
        ∧ ItemAnswered t i (.clamped (some .derate)) (some 2) none none)
    ∧ ((s.svc.derate = false ∧ 0 ≤ i.value ∧ i.value ≤ 3 ∨ i.value = 2 ∨ i.value = 3) →
        (t.eco.mode.code : Int) = i.value ∧ ItemAnswered t i .accepted (some i.value) none none)
    ∧ (t.eco.mode = s.eco.mode → t = { s with link := t.link })
    ∧ (t.eco.mode ≠ s.eco.mode → t.eco.target = t.eco.formTarget s.img.economy s.svc.derate
        ∧ t = (State.rebuild (State.reformTarget { s.takeItem with eco := { s.eco with mode := t.eco.mode } })).respond i
          (if s.svc.derate = true ∧ (i.value = 0 ∨ i.value = 1) then .clamped (some .derate) else .accepted)
          (some t.eco.mode.code) none none)
    ∧ t.eco.autoIdle = s.eco.autoIdle ∧ t.eco.delay = s.eco.delay ∧ t.eco.fuelTotal = s.eco.fuelTotal
    ∧ t.rule.profile = s.rule.profile
    ∧ t = { s with rule := t.rule, vch := t.vch, eco := t.eco, ntc := t.ntc, snd := t.snd, link := t.link } := by
  obtain ⟨range, decided⟩ | ⟨low, high, slow, decided⟩ | ⟨low, high, fast, m, value, decided⟩ :=
    decideMode_cases s.svc.derate s.eco.mode i.value
  · obtain ⟨mode, answered, same, other, rest⟩ := modeAnswered_facts run i (.refused .range) s.eco.mode rfl
    refine ⟨_, workMode_eq run h decided, fun _ => ⟨?_, answered⟩, fun _ v => by omega, fun v => by omega, fun _ => same rfl,
      fun changed => absurd mode changed, rest⟩
    rw [same rfl]
  · obtain ⟨mode, answered, same, other, rest⟩ := modeAnswered_facts run i (.clamped (some .derate)) .economy rfl
    refine ⟨_, workMode_eq run h decided, fun out => by omega, fun _ _ => ⟨mode, answered⟩, fun v => ?_,
      fun kept => same (mode.symm.trans kept), fun changed => ?_, rest⟩
    · rcases v with ⟨off, -⟩ | two | three
      · exact absurd (slow.1.symm.trans off) (by decide)
      · omega
      · omega
    · rw [mode] at changed ⊢
      rw [if_pos slow]
      exact other changed
  · obtain ⟨mode, answered, same, other, rest⟩ := modeAnswered_facts run i .accepted m rfl
    refine ⟨_, workMode_eq run h decided, fun out => by omega, fun on v => absurd ⟨on, v⟩ fast, fun _ => ?_,
      fun kept => same (mode.symm.trans kept), fun changed => ?_, rest⟩
    · rw [mode, ← value]
      exact ⟨rfl, answered⟩
    · rw [mode] at changed ⊢
      rw [if_neg fast]
      exact other changed

theorem economy_autoIdleEnable (run : s.cfg.node = .run) (h : s.itemFor 0x11 = some i) : ∃ t, exec .autoIdleEnable s = .next t
      ∧ (i.value = 0 → t.eco.autoIdle = false ∧ ItemAnswered t i .accepted (some 0) none none)
      ∧ (i.value = 1 → t.eco.autoIdle = true ∧ ItemAnswered t i .accepted (some 1) none none)
      ∧ (i.value ≠ 0 → i.value ≠ 1 → t.eco = s.eco
          ∧ ItemAnswered t i (.refused .range) (some (if s.eco.autoIdle then 1 else 0)) none none)
      ∧ (t.eco.autoIdle = s.eco.autoIdle → t = { s with link := t.link })
      ∧ (t.eco.autoIdle ≠ s.eco.autoIdle →
          t = (State.permitEvent { s.takeItem with eco := { s.eco with autoIdle := decide (i.value = 1) } }).respond i .accepted
            (some i.value) none none)
      ∧ t.eco.mode = s.eco.mode ∧ t.eco.delay = s.eco.delay
      ∧ t = { s with eco := t.eco, ntc := t.ntc, snd := t.snd, link := t.link } := by
  by_cases off : i.value = 0
  · have decided : decideEnable true s.eco.autoIdle i.value = (.accepted, false) := if_pos off
    obtain ⟨on, answered, same, other, rest⟩ := enableAnswered_facts run i .accepted false rfl
    refine ⟨_, autoIdleEnable_eq run h decided, fun _ => ⟨on, answered⟩, fun one => by omega, fun zero => absurd off zero,
      fun kept => same (on.symm.trans kept), fun changed => ?_, rest⟩
    rw [on] at changed
    rw [off]
    exact other changed
  by_cases one : i.value = 1
  · have decided : decideEnable true s.eco.autoIdle i.value = (.accepted, true) := (if_neg off).trans (if_pos one)
    obtain ⟨on, answered, same, other, rest⟩ := enableAnswered_facts run i .accepted true rfl
    refine ⟨_, autoIdleEnable_eq run h decided, fun zero => absurd zero off, fun _ => ⟨on, answered⟩, fun _ other => absurd one other,
      fun kept => same (on.symm.trans kept), fun changed => ?_, rest⟩
    rw [on] at changed
    rw [one]
    exact other changed
  · have decided : decideEnable true s.eco.autoIdle i.value = (.refused .range, s.eco.autoIdle) :=
      (if_neg off).trans (if_neg one)
    obtain ⟨on, answered, same, other, rest⟩ := enableAnswered_facts run i (.refused .range) s.eco.autoIdle rfl
    refine ⟨_, autoIdleEnable_eq run h decided, fun zero => absurd zero off, fun is => absurd is one, fun _ _ => ⟨?_, ?_⟩,
      fun _ => same rfl, fun changed => absurd on changed, rest⟩
    · rw [same rfl]
    · have value : ((bit s.eco.autoIdle : Nat) : Int) = if s.eco.autoIdle then 1 else 0 := by cases s.eco.autoIdle <;> rfl
      rw [value] at answered
      exact answered

/-- A change of LINK after one of ECO and LINK. -/
theorem link_after_eco (frame : u = { s with eco := u.eco, link := u.link }) (h : Touches { link := true } u t) :
    t = { s with eco := t.eco, link := t.link } :=
  calc t = { u with link := t.link } := framed h
    _ = { s with eco := u.eco, link := t.link } := congrArg (fun v : State => { v with link := t.link }) frame
    _ = { s with eco := t.eco, link := t.link } := by rw [h.eco rfl]

/-- Settles O35: each item by its decision and by what the value changes. -/
theorem economyItems : Obligations.EconomyItems := by
  refine ⟨fun s i run h => economy_workMode run h, fun s i run h => economy_autoIdleEnable run h, fun s i n run h hn => ?_⟩
  obtain ⟨delay, waits, still, frame⟩ := changeDelay_facts s n rfl
  have answered := respond_touches (s.takeItem.changeDelay n) i (if (n : Int) = i.value then .accepted else .clamped none)
    (some (n : Int)) none none
  have node : (s.takeItem.changeDelay n).cfg.node = .run := by
    rw [frame]
    exact run
  refine ⟨_, autoIdleDelay_eq run h hn, by rw [answered.eco rfl]; exact delay, respond_answered (takesOffer_run node) _ _ _ _ _,
    ?_, ?_, ?_⟩
  · rw [answered.eco rfl]
    exact waits
  · rw [answered.eco rfl]
    exact still
  · exact link_after_eco frame answered

end Sys2Proof.Laws
end

section
/-! How the economy state moves: its timers, the engine condition, the idle permit, the test of RECOVER and the grant
(R118 to R127). -/

namespace Sys2Proof.Laws

open Sys2Proof.Machine Relation

-- Many short proofs at once would each hold a thread of the checking process.
set_option Elab.async false

variable {s t u : State} {st : EcoState}

/-! ## An entry, again -/

theorem arriveAt_img (s : State) (d : Ms) : (s.arriveAt d).img = s.img := by
  unfold State.img
  rw [arriveAt_image]

/-- The frames of an entry to a state without a request (R130, R131). -/
theorem enterEco_withdrawn (s : State) (st : EcoState) :
    ((s.enterEco st).eco.requested = none → s.eco.requested ≠ none → NoneQueued (s.enterEco st).link .speedRequest)
    ∧ ((s.enterEco st).eco.pumpLimit = none → s.eco.pumpLimit ≠ none → NoneQueued (s.enterEco st).link .pumpLimit) := by
  obtain ⟨-, -, speed, -, pump, -, -⟩ := reform_tells (s.onEco fun _ => ecoEntered s st)
  exact ⟨fun none some => speed (fun e => some (e.symm.trans none)) none, fun none some => pump (fun e => some (e.symm.trans none)) none⟩

theorem enterEco_pumpLimit (s : State) (st : EcoState) : (s.enterEco st).eco.pumpLimit =
    if st = .off then none else some ((ecoEntered s st).formPump s.img.economy s.svc.derate) := by
  rw [enterEco_eco]
  rfl

theorem enterEco_speedGov (s : State) : (s.enterEco .idleLow).eco.speedGov = .idle := by
  rw [enterEco_eco]
  rfl

theorem enterEco_yieldTimer (h : st.requesting = false) : (s.enterEco st).eco.yieldTimer = none := by
  rw [enterEco_eco]
  show (if (st.requesting && s.eco.grant == .foreign) = true then _ else none) = _
  rw [h]
  rfl

/-! ## Work -/

/-- The permit is of what the entries to a state leave (R122). -/
theorem idlePermit_congr (streams : t.streams = s.streams) (image : t.image = s.image)
    (neutral : t.eco.neutralSince = s.eco.neutralSince) (enable : t.eco.autoIdle = s.eco.autoIdle)
    (inhibit : t.eco.idleInhibit = s.eco.idleInhibit) : t.idlePermit = s.idlePermit := by
  unfold State.idlePermit State.usable State.mailbox State.stream State.img
  rw [streams, image, neutral, enable, inhibit]

theorem enterEco_idlePermit (s : State) (st : EcoState) : (s.enterEco st).idlePermit = s.idlePermit := by
  have frame := enterEco_frame s st
  exact idlePermit_congr (by rw [frame]) (by rw [frame]) (by rw [enterEco_keeps]) (by rw [enterEco_keeps]) (by rw [enterEco_keeps])

/-- NEUTRAL_WAIT with its delay timer started. -/
theorem enterNeutralWait_eq (s : State) : s.enterNeutralWait = { s.enterEco .neutralWait with eco :=
    { (s.enterEco .neutralWait).eco with delayTimer := some (after s.now (s.eco.delay * 1000)), delayStart := s.now } } := by
  have delay : (s.enterEco .neutralWait).eco.delay = s.eco.delay := by rw [enterEco_keeps]
  unfold State.enterNeutralWait
  rw [← delay]
  rfl

theorem enterWork_eq (s : State) : s.enterWork =
    if s.idlePermit then (s.enterEco .work).enterNeutralWait else s.enterEco .work := by
  unfold State.enterWork
  dsimp only
  rw [enterEco_idlePermit]

/-- What the entry to NEUTRAL_WAIT gives (R124). -/
theorem enterNeutralWait_facts (s : State) (ht : t = s.enterNeutralWait) : t.eco.state = .neutralWait
    ∧ t.eco.delayTimer = some (after s.now (s.eco.delay * 1000)) ∧ t.eco.delayStart = s.now ∧ t.eco.recoveryTimer = none
    ∧ t.eco.requested = some t.eco.target ∧ t.eco.target = s.eco.formTarget s.img.economy s.svc.derate
    ∧ t.eco.mode = s.eco.mode ∧ t.eco.running = s.eco.running ∧ t.eco.grant = s.eco.grant
    ∧ t = { s with eco := t.eco, link := t.link } := by
  have kept := enterEco_keeps s .neutralWait
  have requested := enterEco_requested s .neutralWait
  have formed := enterEco_formed s .neutralWait
  have frame := enterEco_frame s .neutralWait
  rw [enterNeutralWait_eq] at ht
  generalize s.enterEco .neutralWait = v at *
  rw [ht]
  refine ⟨by rw [kept], rfl, rfl, by rw [kept], requested, formed, by rw [kept], by rw [kept], by rw [kept], ?_⟩
  exact congrArg (fun w : State => { w with eco := { v.eco with
    delayTimer := some (after s.now (s.eco.delay * 1000)), delayStart := s.now } }) frame

/-- What the entry to WORK, and from it to NEUTRAL_WAIT, gives (R124). -/
theorem enterWork_facts (s : State) (ht : t = s.enterWork) : t.eco.state = (if s.idlePermit then .neutralWait else .work)
    ∧ t.eco.recoveryTimer = none ∧ (s.idlePermit = false → t.eco.delayTimer = none)
    ∧ t.eco.requested = some t.eco.target ∧ t.eco.target = s.eco.formTarget s.img.economy s.svc.derate
    ∧ t.eco.mode = s.eco.mode ∧ t.eco.running = s.eco.running ∧ t.eco.grant = s.eco.grant
    ∧ t = { s with eco := t.eco, link := t.link } := by
  have kept := enterEco_keeps s .work
  have requested := enterEco_requested s .work
  have formed := enterEco_formed s .work
  have frame := enterEco_frame s .work
  rw [enterWork_eq] at ht
  generalize s.enterEco .work = v at *
  cases permit : s.idlePermit
  · rw [permit, if_neg (by decide)] at ht
    rw [ht]
    exact ⟨by rw [kept]; rfl, by rw [kept], fun _ => by rw [kept], requested, formed, by rw [kept], by rw [kept], by rw [kept], frame⟩
  · rw [permit, if_pos rfl] at ht
    obtain ⟨state, -, -, recovery, told, target, mode, running, grant, rest⟩ := enterNeutralWait_facts v ht
    have img : v.img = s.img := by
      rw [frame]
      rfl
    have svc : v.svc = s.svc := by rw [frame]
    rw [kept] at target mode running grant
    rw [img, svc] at target
    refine ⟨state, recovery, fun off => absurd off (by decide), told, target, mode, running, grant, ?_⟩
    exact rest.trans (congrArg (fun w : State => { w with eco := t.eco, link := t.link }) frame)

/-! ## The test of RECOVER -/

/-- The engine speed is at the target within the tolerance (R126). -/
def Recovered (s : State) : Prop := (s.eco.target : Int) - s.img.economy.tolerance ≤ (s.mailbox .engineState).speed

theorem recoveryTest_other (h : s.eco.state ≠ .recover) : s.recoveryTest = s := if_neg fun k => h k.1

theorem recoveryTest_below (h : ¬ Recovered s) : s.recoveryTest = s := if_neg fun k => h k.2

theorem recoveryTest_passed (state : s.eco.state = .recover) (h : Recovered s) :
    s.recoveryTest = (s.clearNotice 0x73).enterWork := if_pos ⟨state, h⟩

theorem clearNotice_idlePermit (s : State) (id : Nat) : (s.clearNotice id).idlePermit = s.idlePermit := by
  have touched := clearNotice_touches s id
  have eco := touched.eco rfl
  exact idlePermit_congr (touched.streams rfl) (touched.image rfl) (by rw [eco]) (by rw [eco]) (by rw [eco])

/-- A test that passes enters WORK and clears 0x73 (R126). -/
theorem recoveryTest_facts (state : s.eco.state = .recover) (h : Recovered s) (hu : u = s.recoveryTest) :
    u.eco.state = (if s.idlePermit then .neutralWait else .work) ∧ u.eco.recoveryTimer = none
      ∧ u.ntc = (s.clearNotice 0x73).ntc ∧ u.snd = (s.clearNotice 0x73).snd := by
  rw [recoveryTest_passed state h] at hu
  obtain ⟨entered, recovery, -, -, -, -, -, -, frame⟩ := enterWork_facts (s.clearNotice 0x73) hu
  rw [clearNotice_idlePermit] at entered
  exact ⟨entered, recovery, by rw [frame], by rw [frame]⟩

/-- RECOVER with its timer started. -/
def recovering (s : State) : State := { s.enterEco .recover with eco :=
  { (s.enterEco .recover).eco with recoveryTimer := some (after s.now (s.img.economy.recoveryTimeout.toNat * 1000)) } }

theorem enterRecover_eq (s : State) : s.enterRecover = (recovering s).recoveryTest := by
  have frame := enterEco_frame s .recover
  have now : (s.enterEco .recover).now = s.now := by rw [frame]
  have img : (s.enterEco .recover).img = s.img := by
    unfold State.img
    rw [frame]
  unfold State.enterRecover
  dsimp only
  rw [now, img]
  rfl

/-- RECOVER, with the test made at its entry (R125, R126). -/
theorem enterRecover_facts (permit : s.idlePermit = false) (hu : u = s.enterRecover) :
    ((s.eco.formTarget s.img.economy s.svc.derate : Int) - s.img.economy.tolerance
        ≤ (s.mailbox .engineState).speed → u.eco.state = .work ∧ u.eco.recoveryTimer = none)
    ∧ ((s.mailbox .engineState).speed
        < (s.eco.formTarget s.img.economy s.svc.derate : Int) - s.img.economy.tolerance → u.eco.state = .recover
        ∧ u.eco.recoveryTimer = some (after s.now (s.img.economy.recoveryTimeout.toNat * 1000))) := by
  have frame := enterEco_frame s .recover
  have kept := enterEco_keeps s .recover
  have state : (recovering s).eco.state = .recover := by
    show (s.enterEco .recover).eco.state = _
    rw [kept]
  have recovered : Recovered (recovering s) ↔ (s.eco.formTarget s.img.economy s.svc.derate : Int) - s.img.economy.tolerance
      ≤ (s.mailbox .engineState).speed := by
    have img : (recovering s).img = s.img := by
      show (s.enterEco .recover).img = _
      unfold State.img
      rw [frame]
    have mailbox : (recovering s).mailbox .engineState = s.mailbox .engineState := by
      show (s.enterEco .recover).mailbox _ = _
      unfold State.mailbox State.stream
      rw [frame]
    have target : (recovering s).eco.target = s.eco.formTarget s.img.economy s.svc.derate := enterEco_formed s .recover
    unfold Recovered
    rw [img, mailbox, target]
  have same : (recovering s).idlePermit = s.idlePermit := enterEco_idlePermit s .recover
  rw [enterRecover_eq] at hu
  refine ⟨fun high => ?_, fun low => ?_⟩
  · obtain ⟨entered, recovery, -⟩ := recoveryTest_facts state (recovered.2 high) hu
    rw [same, permit] at entered
    exact ⟨entered, recovery⟩
  · rw [recoveryTest_below fun h => absurd (recovered.1 h) (Int.not_le.2 low)] at hu
    rw [hu]
    exact ⟨state, rfl⟩

/-! ## The permit -/

theorem idlePermit_iff (s : State) : s.idlePermit = true ↔ s.eco.neutralSince ≠ none ∧ s.eco.autoIdle = true
    ∧ s.usable .hydraulicState = true ∧ s.img.economy.warmUp ≤ (s.mailbox .hydraulicState).oil ∧ s.eco.idleInhibit = false := by
  unfold State.idlePermit
  rw [Bool.and_eq_true, Bool.and_eq_true, Bool.and_eq_true, Bool.and_eq_true, Option.isSome_iff_ne_none, decide_eq_true_iff,
    Bool.not_eq_true']
  constructor
  · rintro ⟨⟨⟨neutral, enable⟩, usable, oil⟩, inhibit⟩
    exact ⟨neutral, enable, usable, oil, inhibit⟩
  · rintro ⟨neutral, enable, usable, oil, inhibit⟩
    exact ⟨⟨⟨neutral, enable⟩, usable, oil⟩, inhibit⟩

theorem permitEvent_work (h : s.eco.state = .work) : s.permitEvent = if s.idlePermit then s.enterNeutralWait else s := by
  unfold State.permitEvent
  rw [h]

theorem permitEvent_waits (h : s.eco.state = .neutralWait) : s.permitEvent = if s.idlePermit then s else s.enterWork := by
  unfold State.permitEvent
  rw [h]

theorem permitEvent_idles (h : s.eco.state = .idleLow) : s.permitEvent = if s.idlePermit then s else s.enterRecover := by
  unfold State.permitEvent
  rw [h]

theorem permitEvent_stands_by (h : s.eco.state = .off ∨ s.eco.state = .recover ∨ s.eco.state = .yielded) : s.permitEvent = s := by
  unfold State.permitEvent
  rcases h with h | h | h <;> rw [h]

/-- The permit moves the state among WORK, NEUTRAL_WAIT, IDLE_LOW and RECOVER (R122, R124, R125). -/
theorem permitEvent_facts (s u : State) (hu : u = s.permitEvent) :
      (s.eco.state = .work → s.idlePermit = true → u.eco.state = .neutralWait
        ∧ u.eco.delayTimer = some (after s.now (s.eco.delay * 1000)) ∧ u.eco.delayStart = s.now)
      ∧ (s.eco.state = .neutralWait → s.idlePermit = false → u.eco.state = .work ∧ u.eco.delayTimer = none)
      ∧ (s.eco.state = .idleLow → s.idlePermit = false →
          ((s.eco.formTarget s.img.economy s.svc.derate : Int) - s.img.economy.tolerance
              ≤ (s.mailbox .engineState).speed → u.eco.state = .work ∧ u.eco.recoveryTimer = none)
          ∧ ((s.mailbox .engineState).speed
              < (s.eco.formTarget s.img.economy s.svc.derate : Int) - s.img.economy.tolerance → u.eco.state = .recover
              ∧ u.eco.recoveryTimer = some (after s.now (s.img.economy.recoveryTimeout.toNat * 1000))))
      ∧ ((s.eco.state = .off ∨ s.eco.state = .recover ∨ s.eco.state = .yielded
          ∨ s.eco.state = .work ∧ s.idlePermit = false
          ∨ (s.eco.state = .neutralWait ∨ s.eco.state = .idleLow) ∧ s.idlePermit = true) → u = s) := by
  refine ⟨fun state permit => ?_, fun state permit => ?_, fun state permit => ?_, fun still => ?_⟩
  · rw [permitEvent_work state, permit, if_pos rfl] at hu
    obtain ⟨entered, timer, start, -⟩ := enterNeutralWait_facts s hu
    exact ⟨entered, timer, start⟩
  · rw [permitEvent_waits state, permit, if_neg (by decide)] at hu
    obtain ⟨entered, -, timer, -⟩ := enterWork_facts s hu
    rw [permit] at entered
    exact ⟨entered, timer permit⟩
  · rw [permitEvent_idles state, permit, if_neg (by decide)] at hu
    exact enterRecover_facts permit hu
  · rw [hu]
    rcases still with off | recover | yielded | ⟨state, permit⟩ | ⟨state | state, permit⟩
    · exact permitEvent_stands_by (.inl off)
    · exact permitEvent_stands_by (.inr (.inl recover))
    · exact permitEvent_stands_by (.inr (.inr yielded))
    · rw [permitEvent_work state, permit, if_neg (by decide)]
    · rw [permitEvent_waits state, permit, if_pos rfl]
    · rw [permitEvent_idles state, permit, if_pos rfl]

end Sys2Proof.Laws
end

section
/-! The economy timers, the engine condition and the grant (R118, R120, R123 to R127). -/

namespace Sys2Proof.Laws

open Sys2Proof.Machine Relation

-- Many short proofs at once would each hold a thread of the checking process.
set_option Elab.async false

variable {s t u : State}

/-! ## The engine condition -/

theorem engineRunning_iff (s : State) : s.engineRunning = true ↔ s.usable .engineState = true
    ∧ s.img.economy.runThreshold ≤ (s.mailbox .engineState).speed := by
  unfold State.engineRunning
  rw [Bool.and_eq_true, decide_eq_true_iff]

/-- ECO with the condition formed. -/
def conditionFormed (s : State) : State := { s with eco := { s.eco with running := s.engineRunning } }

theorem engineCondition_eq (s : State) : s.engineCondition =
    if s.engineRunning then (if s.eco.state = .off then (conditionFormed s).enterWork else conditionFormed s)
    else (if s.eco.state = .off then conditionFormed s else (conditionFormed s).enterEco .off) := rfl

theorem conditionFormed_idlePermit (s : State) : (conditionFormed s).idlePermit = s.idlePermit :=
  idlePermit_congr (s := s) rfl rfl rfl rfl rfl

/-- The condition moves ECO into and out of OFF (R118, R123). -/
theorem engineCondition_facts (s u : State) (hu : u = s.engineCondition) : u.eco.running = s.engineRunning
      ∧ (s.engineRunning = true → s.eco.state = .off → u.eco.state = if s.idlePermit then .neutralWait else .work)
      ∧ (s.engineRunning = true → s.eco.state ≠ .off → u.eco = { s.eco with running := true } ∧ u.link = s.link)
      ∧ (s.engineRunning = false → u.eco.state = .off)
      ∧ (s.engineRunning = false → s.eco.state ≠ .off → u.eco.requested = none ∧ u.eco.pumpLimit = none
          ∧ u.eco.delayTimer = none ∧ u.eco.recoveryTimer = none ∧ u.eco.yieldTimer = none
          ∧ u.eco.requestTimer = s.eco.requestTimer ∧ u.eco.secondTimer = s.eco.secondTimer
          ∧ u.eco.reportTimer = s.eco.reportTimer ∧ u.eco.neutralSince = s.eco.neutralSince
          ∧ (s.eco.requested ≠ none → NoneQueued u.link .speedRequest)
          ∧ (s.eco.pumpLimit ≠ none → NoneQueued u.link .pumpLimit)) := by
  rw [engineCondition_eq] at hu
  cases running : s.engineRunning
  · rw [running, if_neg (by decide)] at hu
    by_cases off : s.eco.state = .off
    · rw [if_pos off] at hu
      rw [hu]
      exact ⟨running, fun on => absurd on (by decide), fun on => absurd on (by decide), fun _ => off, fun _ on => absurd off on⟩
    · rw [if_neg off] at hu
      have kept := enterEco_keeps (conditionFormed s) .off
      have requested := enterEco_requested (conditionFormed s) .off
      have pump := enterEco_pumpLimit (conditionFormed s) .off
      have yields := enterEco_yieldTimer (s := conditionFormed s) (st := .off) rfl
      obtain ⟨speedGone, pumpGone⟩ := enterEco_withdrawn (conditionFormed s) .off
      rw [← hu] at kept requested pump yields speedGone pumpGone
      refine ⟨by rw [kept]; exact running, fun on => absurd on (by decide), fun on => absurd on (by decide), fun _ => by rw [kept],
        fun _ _ => ⟨requested, pump, by rw [kept], by rw [kept], yields, by rw [kept]; rfl, by rw [kept]; rfl, by rw [kept]; rfl,
          by rw [kept]; rfl, speedGone requested, pumpGone pump⟩⟩
  · rw [running, if_pos rfl] at hu
    by_cases off : s.eco.state = .off
    · rw [if_pos off] at hu
      obtain ⟨state, -, -, -, -, -, runs, -⟩ := enterWork_facts (conditionFormed s) hu
      rw [conditionFormed_idlePermit] at state
      exact ⟨runs.trans running, fun _ _ => state, fun _ on => absurd off on, fun stopped => absurd stopped (by decide),
        fun stopped => absurd stopped (by decide)⟩
    · rw [if_neg off] at hu
      have eco : u.eco = { s.eco with running := true } := by
        rw [hu, ← running]
        rfl
      exact ⟨by rw [eco], fun _ e => absurd e off, fun _ _ => ⟨eco, by rw [hu]; rfl⟩, fun stopped => absurd stopped (by decide),
        fun stopped => absurd stopped (by decide)⟩

/-! ## The grant -/

theorem readGrant_unusable (h : s.usable .engineGrant = false) : s.readGrant = .none := by
  unfold State.readGrant
  rw [h]
  rfl

theorem readGrant_usable (h : s.usable .engineGrant = true) : s.readGrant =
    if (s.mailbox .engineGrant).grantSource = s.link.address then .own
    else if (s.mailbox .engineGrant).grantSource = 0xFE ∨ (s.mailbox .engineGrant).grantSource = 0xFF then .none
    else .foreign := by
  unfold State.readGrant
  rw [h]
  rfl

theorem readGrant_facts (s : State) : (s.usable .engineGrant = false → s.readGrant = .none)
      ∧ (s.usable .engineGrant = true → ∀ src, src = (s.mailbox .engineGrant).grantSource →
        (src = s.link.address → s.readGrant = .own)
        ∧ (src ≠ s.link.address → (src = 0xFE ∨ src = 0xFF) → s.readGrant = .none)
        ∧ (src ≠ s.link.address → src ≠ 0xFE → src ≠ 0xFF → s.readGrant = .foreign)) := by
  refine ⟨readGrant_unusable, fun usable src hsrc => ?_⟩
  rw [readGrant_usable usable, ← hsrc]
  exact ⟨fun own => if_pos own, fun other free => by rw [if_neg other, if_pos free],
    fun other fe ff => by rw [if_neg other, if_neg (not_or.2 ⟨fe, ff⟩)]⟩

/-- ECO with the grant read and the yield watched. -/
def grantRead (s : State) : State :=
  { s with eco := watchYield s.now s.img.economy { s.eco with grant := s.readGrant } }

theorem ecoGrant_eq (s : State) : s.ecoGrant =
    if s.eco.state = .yielded ∧ s.readGrant ≠ .foreign then (grantRead s).enterWork else grantRead s := rfl

/-- The yield timer of a requesting state as the grant gives it. -/
def yieldWatched (s : State) : Option Ms :=
  if s.readGrant = .foreign then (if s.eco.yieldTimer.isSome then s.eco.yieldTimer
    else some (after s.now s.img.economy.yieldConfirm.toNat)) else none

theorem grantRead_yieldTimer (h : s.eco.state.requesting = true) : (grantRead s).eco.yieldTimer = yieldWatched s := by
  unfold grantRead watchYield yieldWatched
  dsimp only
  rw [h]
  cases grant : s.readGrant
  · rfl
  · rfl
  · cases s.eco.yieldTimer <;> rfl

/-- The grant runs the yield timer and ends YIELDED (R120, R127). -/
theorem ecoGrant_facts (s u : State) (hu : u = s.ecoGrant) : u.eco.grant = s.readGrant
      ∧ (s.eco.state.requesting = true → u.eco.state = s.eco.state ∧ u.eco.yieldTimer = yieldWatched s)
      ∧ (s.eco.state = .yielded → s.readGrant = .foreign → u.eco.state = .yielded)
      ∧ (s.eco.state = .yielded → s.readGrant ≠ .foreign →
          u.eco.state = if s.idlePermit then .neutralWait else .work)
      ∧ (s.eco.state = .off → u.eco.state = .off) := by
  rw [ecoGrant_eq] at hu
  by_cases ends : s.eco.state = .yielded ∧ s.readGrant ≠ .foreign
  · rw [if_pos ends] at hu
    obtain ⟨state, -, -, -, -, -, -, grant, -⟩ := enterWork_facts (grantRead s) hu
    have permit : (grantRead s).idlePermit = s.idlePermit := idlePermit_congr (s := s) rfl rfl rfl rfl rfl
    rw [permit] at state
    exact ⟨grant, fun requests => absurd (ends.1 ▸ requests) (by decide), fun _ foreign => absurd foreign ends.2, fun _ _ => state,
      fun off => absurd (ends.1.symm.trans off) (by decide)⟩
  · rw [if_neg ends] at hu
    rw [hu]
    exact ⟨rfl, fun requests => ⟨rfl, grantRead_yieldTimer requests⟩, fun yielded _ => yielded,
      fun yielded other => absurd ⟨yielded, other⟩ ends, fun off => off⟩

/-! ## The timers -/

theorem idleDelayExpiry_eq {d : Ms} (h : s.eco.delayTimer = some d) :
    exec .idleDelayExpiry s = .next ((s.arriveAt d).enterEco .idleLow) := by
  show execIdleDelayExpiry s = _
  unfold execIdleDelayExpiry
  rw [h]

theorem yieldTimerExpiry_eq {d : Ms} (h : s.eco.yieldTimer = some d) :
    exec .yieldTimerExpiry s = .next ((s.arriveAt d).enterEco .yielded) := by
  show execYieldTimerExpiry s = _
  unfold execYieldTimerExpiry
  rw [h]

/-- The recovery that took too long, told with Nt and the engine speed (R126). -/
def recoveryTold (s : State) (d : Ms) : State :=
  (s.arriveAt d).raiseNotice 0x73 none (.recovery s.eco.target (s.mailbox .engineState).speed)

theorem recoveryTimerExpiry_eq {d : Ms} (h : s.eco.recoveryTimer = some d) :
    exec .recoveryTimerExpiry s = .next (recoveryTold s d).enterWork := by
  have mailbox : (s.arriveAt d).mailbox .engineState = s.mailbox .engineState := by
    unfold State.mailbox State.stream
    rw [arriveAt_streams]
  show execRecoveryTimerExpiry s = _
  unfold execRecoveryTimerExpiry recoveryTold
  rw [h]
  dsimp only
  rw [arriveAt_eco, mailbox]

theorem catalogue_recovery (image : s.image.isSome = true) : s.catalogue 0x73 = some (.caution, .display) := by
  have held : s.image.isNone = false := by rw [Option.isNone_eq_false_iff]; exact image
  unfold State.catalogue
  rw [held]
  rfl

theorem recoveryTold_touches (s : State) (d : Ms) : Touches (noticeBlocks.or { now := true }) s (recoveryTold s d) :=
  ((arriveAt_touches s d).mono rfl).trans ((raiseNotice_touches _ _ _ _).mono rfl)

/-- What the end of the recovery timer gives (R124, R126). -/
theorem recoveryEnd_facts (s : State) (d : Ms) (ht : t = (recoveryTold s d).enterWork) :
    t.eco.state = (if s.idlePermit then .neutralWait else .work) ∧ t.eco.recoveryTimer = none
    ∧ t.eco.requested = some t.eco.target ∧ t.eco.target = s.eco.formTarget s.img.economy s.svc.derate
    ∧ t.eco.mode = s.eco.mode
    ∧ t = { s.arriveAt d with eco := t.eco, ntc := t.ntc, snd := t.snd, link := t.link }
    ∧ t.ntc = (recoveryTold s d).ntc ∧ t.snd = (recoveryTold s d).snd := by
  have touched := recoveryTold_touches s d
  have eco := touched.eco rfl
  have permit : (recoveryTold s d).idlePermit = s.idlePermit :=
    idlePermit_congr (touched.streams rfl) (touched.image rfl) (by rw [eco]) (by rw [eco]) (by rw [eco])
  have img : (recoveryTold s d).img = s.img := by
    unfold State.img
    rw [touched.image rfl]
  obtain ⟨state, recovery, -, requested, target, mode, -, -, frame⟩ := enterWork_facts (recoveryTold s d) ht
  rw [permit] at state
  rw [eco, img, touched.svc rfl] at target
  rw [eco] at mode
  have told : Touches ecoBlocks (s.arriveAt d) t := by
    rw [ht]
    exact ((raiseNotice_touches _ _ _ _).mono rfl).trans (enterWork_touches _)
  exact ⟨state, recovery, requested, target, mode, framed told, by rw [frame], by rw [frame]⟩

/-- Settles O36: the timers, then each event that moves the state. -/
theorem economyTimersMove : Obligations.EconomyTimersMove := by
  refine ⟨fun s d timer => ⟨_, idleDelayExpiry_eq timer, ?_⟩, fun s d timer => ⟨_, yieldTimerExpiry_eq timer, ?_⟩,
    fun s d timer => ⟨_, recoveryTimerExpiry_eq timer, ?_⟩, engineRunning_iff, engineCondition_facts, fun s u d hu => ?_,
    idlePermit_iff, permitEvent_facts, fun s u state hu => ⟨fun high => recoveryTest_facts state high hu, fun low => ?_⟩,
    readGrant_facts, ecoGrant_facts, fun s e => ⟨rfl, rfl⟩, fun s => recoveryTest_other, fun s => ⟨?_, fun same => ?_, fun other => ?_⟩,
    fun s e a c => ?_⟩
  · have kept := enterEco_keeps (s.arriveAt d) .idleLow
    refine ⟨by rw [kept], by rw [kept], by rw [kept], ?_, enterEco_speedGov _, ?_, enterEco_frame _ _⟩
    · rw [enterEco_requested, arriveAt_img]
      rfl
    · rw [kept, arriveAt_eco]
  · have kept := enterEco_keeps (s.arriveAt d) .yielded
    have none := enterEco_requested (s.arriveAt d) .yielded
    obtain ⟨withdrawn, -⟩ := enterEco_withdrawn (s.arriveAt d) .yielded
    rw [arriveAt_eco] at withdrawn
    refine ⟨by rw [kept], by rw [kept], by rw [kept], enterEco_yieldTimer rfl, none, ?_, withdrawn none, ?_, enterEco_frame _ _⟩
    · rw [enterEco_pumpLimit]
      rfl
    · rw [kept, arriveAt_eco]
  · obtain ⟨state, recovery, requested, target, mode, frame, ntc, snd⟩ := recoveryEnd_facts s d rfl
    refine ⟨state, recovery, requested, target, mode, frame, ⟨_, rfl, ntc, snd⟩, catalogue_recovery, fun run image ordered => ?_⟩
    have touched := arriveAt_touches s d
    have listed := catalogue_recovery (s := s.arriveAt d) (by rw [arriveAt_image]; exact image)
    obtain ⟨r, mem, id, detail, -⟩ := raiseNotice_holds (sv := none)
      (d := .recovery s.eco.target (s.mailbox .engineState).speed) (arriveAt_run run) listed
      (by rw [arriveAt_ntc]; exact (noticesOrdered_iff s).1 ordered)
    rw [ntc]
    exact ⟨r, mem, id, detail⟩
  · rw [hu, formNeutral_eq]
    split
    · rfl
    · exact (takeTimestamp_touches _).eco rfl
  · rw [hu]
    exact recoveryTest_below (Int.not_le.2 low)
  · exact (reform_target s).trans (by rw [reform_eco]; rfl)
  · exact if_pos same
  · exact if_neg other
  · refine ⟨fun run role => ?_, fun run role => ?_, fun run role => ?_, fun run role => ?_, fun out role => ?_, fun out role => ?_⟩
    all_goals unfold State.streamEvent
    · rw [(inRun_iff s).2 run, role]
      rfl
    · rw [(inRun_iff s).2 run, role]
      rfl
    · rw [(inRun_iff s).2 run, role]
      rfl
    · rw [(inRun_iff s).2 run]
      rcases role with role | role | role | role <;> rw [role] <;> rfl
    · rw [if_pos (by rw [Bool.not_eq_true', ← Bool.not_eq_true, inRun_iff]; exact out), if_pos role]
      rfl
    · rw [if_pos (by rw [Bool.not_eq_true', ← Bool.not_eq_true, inRun_iff]; exact out), if_neg role]

end Sys2Proof.Laws
end

section
/-! What STM does: an arrival, the four timers of an entry, the stream-fault notice and the readers of a role (R25 to R35). -/

namespace Sys2Proof.Laws

open Sys2Proof.Machine Relation

-- Many short proofs at once would each hold a thread of the checking process.
set_option Elab.async false

variable {s t u : State} {e e' : Stream} {f : RxFrame}

/-! ## The notice and the readers -/

theorem tellFault_told (s : State) (e e' : Stream) : FaultTold s (s.tellFault e e') e e' := by
  refine ⟨fun same => if_pos same, fun c new other => ?_, fun ended was => ?_⟩
  · unfold State.tellFault
    rw [if_neg (fun same => other (same.symm.trans new)), new]
  · unfold State.tellFault
    rw [if_neg (fun same => was (same.symm.trans ended)), ended]

theorem tellFault_out (out : s.inRun = false) (e e' : Stream) : s.tellFault e e' = s := by
  unfold State.tellFault
  refine (ite_eq_left_iff).2 fun _ => ?_
  split
  · exact raiseNotice_out out _ _ _
  · exact clearNotice_out out _

theorem streamEvent_out (out : s.inRun = false) (e : Stream) (a c : Bool) :
    s.streamEvent e a c = if e.role = .engineGrant then s.holdGrant else s := by
  unfold State.streamEvent
  rw [out]
  rfl

theorem streamEvent_grant (run : s.inRun = true) (role : e.role = .engineGrant) (a c : Bool) :
    s.streamEvent e a c = s.ecoGrant := by
  unfold State.streamEvent
  rw [run, role]
  rfl

theorem anyOrder_touches {b : Blocks} (threads : List (List (State → State))) (s : State)
    (touches : ∀ thread ∈ threads, ∀ event ∈ thread, ∀ t, Touches b t (event t)) :
    Touches (b.or { freeCount := true }) s (anyOrder threads s) := by
  have left : b.le (b.or { freeCount := true }) = true := by simp [Blocks.le, Blocks.or]
  refine anyOrder_keeps (P := fun t => Touches (b.or { freeCount := true }) s t) (fun t n h => h.trans ?_) threads s
    (fun thread h event k t kept => kept.trans ((touches thread h event k t).mono left)) (.refl _ s)
  constructor <;> intro none
  case freeCount => simp [Blocks.or] at none
  all_goals rfl

/-- The blocks in which the readers of a role show (R34). -/
def readerBlocks : Blocks :=
  { freeCount := true, lim := true, rule := true, vch := true, eco := true, svc := true, ntc := true, snd := true, link := true }

theorem streamEvent_touches (s : State) (e : Stream) (a c : Bool) : Touches readerBlocks s (s.streamEvent e a c) := by
  unfold State.streamEvent
  refine .ite (.ite ((holdGrant_touches s).mono rfl) (.refl _ s)) ?_
  split
  · refine .ite ((anyOrder_touches (b := limitBlocks) _ s (slewEvents_iff.2 ⟨fun t => evaluateLimits_touches t _, fun t => ?_⟩)).mono rfl)
      (.refl _ s)
    exact (rebuild_touches t).mono rfl
  · exact (Touches.ite ((ecoEngineArrival_touches s e).mono rfl) ((ecoEngineState_touches s e).mono rfl)).trans
      ((rebuild_touches _).mono rfl)
  · exact (ecoGrant_touches s).mono rfl
  · exact ((ecoHydraulic_touches s _).mono rfl).trans ((rebuild_touches _).mono rfl)
  · exact .ite ((takeDisplay_touches s).mono rfl) (.refl _ s)
  all_goals exact .refl _ s

/-- A state event without an arrival reaches neither LIM nor SVC (R34, R54, R133). -/
theorem streamEvent_timer_touches (s : State) (e : Stream) (c : Bool) : Touches ruleBlocks s (s.streamEvent e false c) := by
  unfold State.streamEvent
  refine .ite (.ite ((holdGrant_touches s).mono rfl) (.refl _ s)) ?_
  split
  · exact .refl _ s
  · exact ((ecoEngineState_touches s e).mono rfl).trans ((rebuild_touches _).mono rfl)
  · exact (ecoGrant_touches s).mono rfl
  · exact ((ecoHydraulic_touches s _).mono rfl).trans ((rebuild_touches _).mono rfl)
  · exact .ite ((takeDisplay_touches s).mono rfl) (.refl _ s)
  all_goals exact .refl _ s

/-- No reader changes the limit set. -/
theorem streamEvent_set (s : State) (e : Stream) (a c : Bool) : (s.streamEvent e a c).lim.set = s.lim.set := by
  cases a with
  | false => rw [(streamEvent_timer_touches s e c).lim rfl]
  | true =>
    by_cases run : s.inRun = true
    · by_cases slew : e.role = .slewAngle
      · rw [streamEvent_slew ((inRun_iff s).1 run) slew, if_pos rfl]
        have moved := (slewEvents_records s).1.1
        unfold LimitsMoved at moved
        rw [moved]
      · have touches : Touches { readerBlocks with lim := false } s (s.streamEvent e true c) := by
          unfold State.streamEvent
          refine .ite (.ite ((holdGrant_touches s).mono rfl) (.refl _ s)) ?_
          split
          · rename_i role
            exact absurd role slew
          · exact ((ecoEngineArrival_touches s e).mono rfl).trans ((rebuild_touches _).mono rfl)
          · exact (ecoGrant_touches s).mono rfl
          · exact ((ecoHydraulic_touches s _).mono rfl).trans ((rebuild_touches _).mono rfl)
          · exact .ite ((takeDisplay_touches s).mono rfl) (.refl _ s)
          all_goals exact .refl _ s
        rw [touches.lim rfl]
    · rw [streamEvent_out (by simpa using run)]
      split <;> rfl

theorem agree_address (h : AgreeOutsideLimits s t) : t.link.address = s.link.address := by
  obtain ⟨-, -, -, -, -, -, -, link⟩ := h
  rw [link]

theorem readGrant_congr (streams : t.streams = s.streams) (address : t.link.address = s.link.address) :
    t.readGrant = s.readGrant := by
  unfold State.readGrant State.usable State.mailbox State.stream
  rw [streams, address]

theorem ecoGrant_address (s : State) : s.ecoGrant.link.address = s.link.address := by
  rw [ecoGrant_eq]
  split
  · exact agree_address (s := grantRead s) (acts_agree (enterWork_acts (grantRead s)))
  · rfl

/-- A grant event leaves the grant as it then reads (R120). -/
theorem streamEvent_readGrant (role : e.role = .engineGrant) (a c : Bool) :
    (s.streamEvent e a c).eco.grant = (s.streamEvent e a c).readGrant := by
  by_cases run : s.inRun = true
  · rw [streamEvent_grant run role, (ecoGrant_facts s _ rfl).1,
      readGrant_congr ((ecoGrant_touches s).streams rfl) (ecoGrant_address s)]
  · rw [streamEvent_out (by simpa using run), if_pos role]
    rfl

/-! ## The timers -/

/-- An entry has changed by a timer: the others stand. -/
theorem changeEntry_timer {d : Ms} (s : State) (e e' : Stream) (number : e'.number = e.number) (changed : (e'.state != e.state) = true)
    (ht : t = (s.arriveAt d).changeEntry e e' false) :
    ∃ u, t.now = (s.arriveAt d).now ∧ t.streams = s.streams.map (fun x => if x.number = e.number then e' else x)
      ∧ FaultTold ((s.arriveAt d).setEntry e') u e e' ∧ t = u.streamEvent e' false true
      ∧ t.cfg = s.cfg ∧ t.image = s.image ∧ t.pose = s.pose ∧ t.hold = s.hold ∧ t.lim = s.lim ∧ t.svc = s.svc := by
  have event : t = (((s.arriveAt d).setEntry e').tellFault e e').streamEvent e' false true := by
    rw [ht, ← changed]
    rfl
  have kept : Touches ruleBlocks ((s.arriveAt d).setEntry e') t := by
    rw [event]
    exact ((tellFault_touches _ e e').mono rfl).trans (streamEvent_timer_touches _ e' true)
  refine ⟨_, kept.now rfl, ?_, tellFault_told _ e e', event, ?_, ?_, ?_, ?_, ?_, ?_⟩
  · rw [kept.streams rfl, ← number, ← arriveAt_streams s d]
    rfl
  · rw [kept.cfg rfl, ← arriveAt_cfg s d]
    rfl
  · rw [kept.image rfl, ← arriveAt_image s d]
    rfl
  · rw [kept.pose rfl, ← arriveAt_pose s d]
    rfl
  · rw [kept.hold rfl, ← arriveAt_hold s d]
    rfl
  · rw [kept.lim rfl, ← arriveAt_lim s d]
    rfl
  · rw [kept.svc rfl, ← arriveAt_svc s d]
    rfl

theorem timersRun_iff (s : State) (e : Stream) : s.timersRun e = true ↔
    s.cfg.node = .join ∨ s.cfg.node = .run ∨ s.cfg.node = .quiet ∧ e.frozen = false := by
  unfold State.timersRun State.streamsRun
  simp [or_assoc]

theorem lateTimerExpiry_eq {n : Nat} (runs : s.timersRun e = true) (found : s.entry n = some e) (fresh : e.state = .fresh) :
    exec (.lateTimerExpiry n) s = .next ((s.arriveAt (lateEnd e)).changeEntry e (turnLate e) false) := by
  show execLateTimerExpiry n s = _
  unfold execLateTimerExpiry
  rw [found]
  dsimp only
  rw [runs, fresh]
  rfl

theorem staleTimerExpiry_eq {n : Nat} (runs : s.timersRun e = true) (found : s.entry n = some e) (late : e.state = .late) :
    exec (.staleTimerExpiry n) s = .next ((s.arriveAt (staleEnd e)).changeEntry e (turnStale e) false) := by
  show execStaleTimerExpiry n s = _
  unfold execStaleTimerExpiry
  rw [found]
  dsimp only
  rw [runs, late]
  rfl

theorem recoveryWindowExpiry_eq {n : Nat} (runs : s.timersRun e = true) (found : s.entry n = some e)
    (recovering : e.state = .recovering) :
    exec (.recoveryWindowExpiry n) s = .next ((s.arriveAt (windowEnd e)).changeEntry e (turnStaleAgain e) false) := by
  show execRecoveryWindowExpiry n s = _
  unfold execRecoveryWindowExpiry
  rw [found]
  dsimp only
  rw [runs, recovering]
  rfl

theorem absenceWatchExpiry_eq {n : Nat} {d : Ms} (run : s.cfg.node = .run) (found : s.entry n = some e)
    (never : e.state = .neverSeen) (watch : e.absence = some d) :
    exec (.absenceWatchExpiry n) s = .next ((s.arriveAt d).changeEntry e (turnStale e) false) := by
  show execAbsenceWatchExpiry n s = _
  unfold execAbsenceWatchExpiry
  rw [found]
  dsimp only
  rw [watch, (inRun_iff s).2 run, never]
  rfl

theorem turnLate_eq (e : Stream) : turnLate e = { e with
    state := .late, faultCause := if e.role.isAngle && e.mailbox.status == .failed then some .failed else none } := rfl

theorem turnStale_eq {c : FaultCause}
    (h : faultAfter e { e with state := .stale, staleEpisodes := sat16 e.staleEpisodes, absence := none } = some c) :
    turnStale e = { e with state := .stale, staleEpisodes := sat16 e.staleEpisodes, absence := none, faultCause := some c } := by
  unfold turnStale withFault
  rw [h]

/-- A recovery that ends keeps the cause of its episode (R31, R32, R35). -/
theorem turnStaleAgain_eq (h : e.state = .recovering) : turnStaleAgain e = { e with state := .stale } := by
  unfold turnStaleAgain withFault faultAfter
  rw [h]

/-- Settles O18: each timer by the change it makes, with the notice and the readers after it. -/
theorem streamTimersAge : Obligations.StreamTimersAge := by
  refine ⟨timersRun_iff, fun s n e e' runs found fresh he => ?_, fun s n e e' runs found late he => ?_,
    fun s n e e' runs found recovering he => ?_, fun s n e e' d run found never watch he => ?_⟩
  · have same : turnLate e = e' := he.symm
    obtain ⟨u, facts⟩ := changeEntry_timer s e e' (by rw [he]) (by rw [he, fresh]; rfl) rfl
    exact ⟨_, u, by rw [lateTimerExpiry_eq runs found fresh, same]; rfl, facts⟩
  · have same : turnStale e = e' := (turnStale_eq (by unfold faultAfter; rw [late])).trans he.symm
    obtain ⟨u, facts⟩ := changeEntry_timer s e e' (by rw [he]) (by rw [he, late]; rfl) rfl
    exact ⟨_, u, by rw [staleTimerExpiry_eq runs found late, same]; rfl, facts⟩
  · have same : turnStaleAgain e = e' := (turnStaleAgain_eq recovering).trans he.symm
    obtain ⟨u, now, streams, ⟨stands, -, -⟩, event, kept⟩ :=
      changeEntry_timer s e e' (by rw [he]) (by rw [he, recovering]; rfl) rfl
    rw [stands (by rw [he])] at event
    exact ⟨_, by rw [recoveryWindowExpiry_eq runs found recovering, same]; rfl, now, streams, event, kept⟩
  · have same : turnStale e = e' := (turnStale_eq (by unfold faultAfter; rw [never])).trans he.symm
    obtain ⟨u, facts⟩ := changeEntry_timer s e e' (by rw [he]) (by rw [he, never]; rfl) rfl
    exact ⟨_, u, by rw [absenceWatchExpiry_eq run found never watch, same], facts⟩

end Sys2Proof.Laws
end

section
/-! The arrival of a stream frame: the entry it makes, and what else changes with it (R25 to R35). -/

namespace Sys2Proof.Laws

open Sys2Proof.Machine Relation

-- Many short proofs at once would each hold a thread of the checking process.
set_option Elab.async false

variable {s t u : State} {e e' : Stream} {f : RxFrame} {begins gap : Bool} {now : Ms} {data : List Byte}

/-- What an arrival leaves of the state, whether its entry alone changes or its readers follow too. -/
theorem arrived_frame (number : e'.number = e.number)
    (ht : t = s.takeFrame.setEntry e' ∨ t = s.takeFrame.changeEntry e e' true) :
    t.streams = s.streams.map (fun x => if x.number = e.number then e' else x)
      ∧ t.now = s.now ∧ t.cfg = s.cfg ∧ t.image = s.image ∧ t.pose = s.pose ∧ t.hold = s.hold ∧ t.lim.set = s.lim.set
      ∧ (s.cfg.node = .join → t = { s with
          streams := t.streams, eco := { s.eco with grant := t.eco.grant }, link := t.link }) := by
  obtain ⟨v, hv⟩ : ∃ v, v = s.takeFrame.setEntry e' := ⟨_, rfl⟩
  have frame : v = { s with streams := v.streams, link := v.link } := by
    rw [hv]
    exact framed ((takeFrame_touches s).mono (b := { streams := true, link := true }) rfl |>.trans ((setEntry_touches _ e').mono rfl))
  have streams : v.streams = s.streams.map (fun x => if x.number = e.number then e' else x) := by
    rw [hv, ← number]
    rfl
  rw [← hv] at ht
  rcases ht with rfl | changed
  · refine ⟨streams, ?_, ?_, ?_, ?_, ?_, ?_, fun _ => ?_⟩
    case refine_7 =>
      rw [show t.eco = s.eco by rw [frame]]
      exact frame
    all_goals rw [frame]
  · have told : Touches noticeBlocks v (v.tellFault e e') := tellFault_touches v e e'
    have event : t = (v.tellFault e e').streamEvent e' true (e'.state != e.state) := by
      rw [changed, hv]
      rfl
    have kept : Touches readerBlocks v t := by
      rw [event]
      exact (told.mono rfl).trans (streamEvent_touches _ e' true _)
    refine ⟨(kept.streams rfl).trans streams, ?_, ?_, ?_, ?_, ?_, ?_, fun join => ?_⟩
    · rw [kept.now rfl, frame]
    · rw [kept.cfg rfl, frame]
    · rw [kept.image rfl, frame]
    · rw [kept.pose rfl, frame]
    · rw [kept.hold rfl, frame]
    · rw [event, streamEvent_set, told.lim rfl, frame]
    · have out : v.inRun = false := by
        rw [frame]
        show (s.cfg.node == .run) = false
        rw [join]
        rfl
      rw [tellFault_out out, streamEvent_out out] at event
      have grant : t = { v with eco := { v.eco with grant := t.eco.grant } } := by
        rw [event]
        split <;> rfl
      exact
        calc t = { v with eco := { v.eco with grant := t.eco.grant } } := grant
          _ = { s with streams := v.streams, eco := { s.eco with grant := t.eco.grant }, link := v.link } := by rw [frame]
          _ = { s with streams := t.streams, eco := { s.eco with grant := t.eco.grant }, link := t.link } := by
            rw [kept.streams rfl, show t.link = v.link by rw [grant]]

/-- Whether an arrival begins a recovery (R31, R32; log 16). -/
def Begins (now : Ms) (e : Stream) (begins : Bool) : Prop :=
  begins = true ↔ e.state = .stale ∨ e.state = .recovering ∧ 2 * e.period + 1 < elapsed now e.recoveryStart

theorem windowOver_iff (now : Ms) (e : Stream) :
    windowOver now e = true ↔ e.state = .recovering ∧ 2 * e.period + 1 < elapsed now e.recoveryStart := by
  unfold windowOver
  rw [Bool.and_eq_true, beq_iff_eq, decide_eq_true_iff]

/-- An arrival that begins a recovery finds its entry STALE (R31, R32). -/
theorem asArrivalFinds_begins (h : Begins now e true) : asArrivalFinds now e = { e with state := .stale } := by
  unfold asArrivalFinds
  rcases h.1 rfl with stale | ends
  · rw [if_neg (fun w => absurd (stale.symm.trans ((windowOver_iff now e).1 w).1) (by decide))]
    rw [← stale]
  · rw [if_pos ((windowOver_iff now e).2 ends), turnStaleAgain_eq ends.1]

theorem asArrivalFinds_goesOn (h : Begins now e false) : asArrivalFinds now e = e :=
  if_neg fun w => absurd (h.2 (.inr ((windowOver_iff now e).1 w))) (by decide)

theorem not_stale_of_goesOn (h : Begins now e false) : e.state ≠ .stale := fun stale => absurd (h.2 (.inl stale)) (by decide)

/-- The entry that begins a recovery (R31, R32). -/
theorem acceptArrival_begins : acceptArrival now data gap { e with state := .stale } = { e with
    state := .recovering, mailbox := readPayload e.role data, arrival := now, lastSeq := some (payloadSeq data)
    recoveryStart := now, absence := none, gaps := if gap then sat16 e.gaps else e.gaps } := rfl

/-- The entry that is FRESH after its arrival (R29 to R32). -/
theorem acceptArrival_goesOn (h : e.state ≠ .stale) : acceptArrival now data gap e = { e with
    state := .fresh, mailbox := readPayload e.role data, arrival := now, lastSeq := some (payloadSeq data), absence := none
    gaps := if gap then sat16 e.gaps else e.gaps
    faultCause := if e.role.isAngle && (readPayload e.role data).status == .failed then some .failed else none } := by
  unfold acceptArrival
  have fresh : stateAfterArrival e.state = .fresh := by
    cases state : e.state
    case stale => exact absurd state h
    all_goals rfl
  rw [fresh]
  rfl

/-! ## The sequence check -/

theorem checkSequence_first (none : e.lastSeq = none) (q : BitVec 4) : checkSequence e q = .accepted := by
  unfold checkSequence
  rw [none]

theorem checkSequence_stale (stale : e.state = .stale) (q : BitVec 4) : checkSequence e q = .accepted := by
  unfold checkSequence
  cases e.lastSeq with
  | none => rfl
  | some l => exact if_pos stale

theorem checkSequence_follows {l q : BitVec 4} (other : e.state ≠ .stale) (last : e.lastSeq = some l) :
    checkSequence e q = if q = l then .duplicate else if q = l + 1 then .accepted else .gap := by
  have zero : q - l = 0 ↔ q = l := by bv_omega
  have one : q - l = 1 ↔ q = l + 1 := by bv_omega
  unfold checkSequence
  rw [last]
  dsimp only
  rw [if_neg other]
  simp only [zero, one]

/-! ## The arrival -/

theorem arrive_short (short : data.length < roleLength e.role) :
    s.arrive e data = s.setEntry { e with malformed := sat16 e.malformed } := if_pos short

theorem arrive_whole (whole : roleLength e.role ≤ data.length) : s.arrive e data =
    if checkSequence (asArrivalFinds s.now e) (payloadSeq data) = .duplicate then s.setEntry { e with duplicates := sat16 e.duplicates }
    else s.changeEntry e (acceptArrival s.now data
      (checkSequence (asArrivalFinds s.now e) (payloadSeq data) == .gap) (asArrivalFinds s.now e)) true := by
  unfold State.arrive
  rw [if_neg (by omega)]
  dsimp only
  cases checkSequence (asArrivalFinds s.now e) (payloadSeq data) <;> rfl

theorem streamFrameArrival_eq (h : s.headFor .stm = some f) (found : matchingEntry s.streams f = some e) :
    exec .streamFrameArrival s = .next (if s.streamsRun then s.takeFrame.arrive e f.data else s.takeFrame) := by
  show execStreamFrameArrival s = _
  unfold execStreamFrameArrival
  rw [h]
  dsimp only
  rw [show s.takeFrame.streams = s.streams from rfl, found]
  rfl

theorem streamFrameArrival_elsewhere (h : s.headFor .stm = some f) (out : s.streamsRun = false) :
    exec .streamFrameArrival s = .next s.takeFrame := by
  show execStreamFrameArrival s = _
  unfold execStreamFrameArrival
  rw [h]
  dsimp only
  rw [show s.takeFrame.streamsRun = s.streamsRun from rfl, out]
  split <;> rfl

theorem streamsRun_iff (s : State) : s.streamsRun = true ↔ s.cfg.node = .join ∨ s.cfg.node = .run := by
  unfold State.streamsRun
  rw [Bool.or_eq_true, beq_iff_eq, beq_iff_eq]

/-- What the sequence check makes of an arrival that goes on (R26). -/
theorem sequence_goesOn (h : Begins now e false) (q : BitVec 4) :
    (checkSequence (asArrivalFinds now e) q = .duplicate ↔ e.lastSeq = some q)
    ∧ (e.lastSeq = none → checkSequence (asArrivalFinds now e) q = .accepted)
    ∧ ∀ l, e.lastSeq = some l → q ≠ l → (checkSequence (asArrivalFinds now e) q == .gap) = !decide (q = l + 1) := by
  rw [asArrivalFinds_goesOn h]
  refine ⟨?_, fun none => checkSequence_first none q, fun l last other => ?_⟩
  · cases last : e.lastSeq with
    | none => rw [checkSequence_first last]; simp
    | some l =>
      rw [checkSequence_follows (not_stale_of_goesOn h) last, Option.some.injEq, eq_comm (a := l)]
      split
      · rename_i same
        exact ⟨fun _ => same, fun _ => rfl⟩
      · rename_i other
        refine ⟨fun taken => ?_, fun same => absurd same other⟩
        split at taken <;> cases taken
  · rw [checkSequence_follows (not_stale_of_goesOn h) last, if_neg other]
    by_cases next : q = l + 1
    · rw [if_pos next, decide_eq_true next]
      rfl
    · rw [if_neg next, decide_eq_false next]
      rfl

/-- What an accepted arrival makes of its entry (R27, R29 to R32). -/
theorem accepted_entry (h : Begins now e begins)
    (he : e' = acceptArrival now data (checkSequence (asArrivalFinds now e) (payloadSeq data) == .gap) (asArrivalFinds now e))
    (accepted : e.lastSeq ≠ some (payloadSeq data) ∨ begins = true) :
    (e'.number = e.number ∧ e'.role = e.role ∧ e'.source = e.source ∧ e'.kind = e.kind ∧ e'.period = e.period
        ∧ e'.staleMult = e.staleMult)
      ∧ (e'.mailbox = readPayload e.role data ∧ e'.arrival = now ∧ e'.lastSeq = some (payloadSeq data)
        ∧ e'.duplicates = e.duplicates ∧ e'.malformed = e.malformed ∧ e'.staleEpisodes = e.staleEpisodes
        ∧ e'.absence = none ∧ e'.frozen = e.frozen)
      ∧ (begins = true → e'.gaps = e.gaps ∧ e'.state = .recovering ∧ e'.recoveryStart = now ∧ e'.faultCause = e.faultCause)
      ∧ (begins = false → e'.state = .fresh ∧ e'.recoveryStart = e.recoveryStart ∧ e'.faultCause =
          if e.role.isAngle && e'.mailbox.status == .failed then some .failed else none)
      ∧ (begins = false → ∀ l, e.lastSeq = some l →
          e'.gaps = if payloadSeq data = l + 1 then e.gaps else min 65535 (e.gaps + 1))
      ∧ (e.lastSeq = none → e'.gaps = e.gaps) := by
  cases begins with
  | true =>
    have taken : checkSequence (asArrivalFinds now e) (payloadSeq data) = .accepted := by
      rw [asArrivalFinds_begins h]
      exact checkSequence_stale rfl _
    rw [taken, asArrivalFinds_begins h, acceptArrival_begins] at he
    rw [he]
    exact ⟨⟨rfl, rfl, rfl, rfl, rfl, rfl⟩, ⟨rfl, rfl, rfl, rfl, rfl, rfl, rfl, rfl⟩, fun _ => ⟨rfl, rfl, rfl, rfl⟩,
      fun no => absurd no (by decide), fun no => absurd no (by decide), fun _ => rfl⟩
  | false =>
    obtain ⟨-, first, follows⟩ := sequence_goesOn h (payloadSeq data)
    have other : e.lastSeq ≠ some (payloadSeq data) := accepted.resolve_right (by decide)
    obtain ⟨g, hg⟩ : ∃ g, g = (checkSequence (asArrivalFinds now e) (payloadSeq data) == .gap) := ⟨_, rfl⟩
    rw [← hg, asArrivalFinds_goesOn h, acceptArrival_goesOn (not_stale_of_goesOn h)] at he
    have gaps : e'.gaps = if g then sat16 e.gaps else e.gaps := by rw [he]
    refine ⟨?_, ?_, fun no => absurd no (by decide), fun _ => ?_, fun _ l last => ?_, fun none => ?_⟩
    · rw [he]
      exact ⟨rfl, rfl, rfl, rfl, rfl, rfl⟩
    · rw [he]
      exact ⟨rfl, rfl, rfl, rfl, rfl, rfl, rfl, rfl⟩
    · rw [he]
      exact ⟨rfl, rfl, rfl⟩
    · rw [gaps, hg, follows l last fun same => other (same ▸ last)]
      by_cases next : payloadSeq data = l + 1
      · rw [if_pos next, decide_eq_true next]
        rfl
      · rw [if_neg next, decide_eq_false next]
        rfl
    · rw [gaps, hg, first none]
      rfl

/-- A repeat, which no recovery begins with (R26). -/
theorem duplicate_iff (h : Begins now e begins) (q : BitVec 4) :
    checkSequence (asArrivalFinds now e) q = .duplicate ↔ e.lastSeq = some q ∧ begins = false := by
  cases begins with
  | true =>
    rw [asArrivalFinds_begins h, checkSequence_stale rfl]
    simp
  | false =>
    rw [(sequence_goesOn h q).1]
    simp

/-- Settles O17: outside JOIN and RUN the frame leaves alone; there it is malformed, a repeat, or accepted. -/
theorem streamArrivalTaken : Obligations.StreamArrivalTaken := by
  refine ⟨fun s f join run h => ?_, fun s f e begins runs h found hb => ?_⟩
  · refine streamFrameArrival_elsewhere h ?_
    rw [← Bool.not_eq_true, streamsRun_iff]
    exact not_or.2 ⟨join, run⟩
  have begin : Begins s.now e begins := hb
  have exec : exec .streamFrameArrival s = .next (s.takeFrame.arrive e f.data) := by
    rw [streamFrameArrival_eq h found, if_pos ((streamsRun_iff s).2 runs)]
  have repeated := duplicate_iff begin (payloadSeq f.data)
  by_cases short : f.data.length < roleLength e.role
  · rw [arrive_short short] at exec
    obtain ⟨streams, now, cfg, image, pose, hold, set, join⟩ :=
      arrived_frame (s := s) (e' := { e with malformed := sat16 e.malformed }) (e := e) rfl (.inl rfl)
    exact ⟨_, _, exec, streams, now, cfg, image, pose, hold, set, ⟨rfl, rfl, rfl, rfl, rfl, rfl⟩, fun _ => ⟨rfl, rfl⟩,
      fun whole => absurd short (by omega), fun whole => absurd short (by omega), join⟩
  have whole : roleLength e.role ≤ f.data.length := Nat.le_of_not_lt short
  rw [arrive_whole whole, show s.takeFrame.now = s.now from rfl] at exec
  by_cases same : e.lastSeq = some (payloadSeq f.data) ∧ begins = false
  · rw [if_pos (repeated.2 same)] at exec
    obtain ⟨streams, now, cfg, image, pose, hold, set, join⟩ :=
      arrived_frame (s := s) (e' := { e with duplicates := sat16 e.duplicates }) (e := e) rfl (.inl rfl)
    refine ⟨_, _, exec, streams, now, cfg, image, pose, hold, set, ⟨rfl, rfl, rfl, rfl, rfl, rfl⟩, fun no => absurd no short,
      fun _ _ _ => ⟨rfl, rfl⟩, fun _ accepted => ?_, join⟩
    rcases accepted with other | begun
    · exact absurd same.1 other
    · exact absurd (begun.symm.trans same.2) (by decide)
  rw [if_neg fun taken => same (repeated.1 taken)] at exec
  have accepted : e.lastSeq ≠ some (payloadSeq f.data) ∨ begins = true := by
    by_cases last : e.lastSeq = some (payloadSeq f.data)
    · exact .inr (by simpa using fun no => same ⟨last, no⟩)
    · exact .inl last
  obtain ⟨e', he⟩ : ∃ e', e' = acceptArrival s.now f.data
    (checkSequence (asArrivalFinds s.now e) (payloadSeq f.data) == .gap) (asArrivalFinds s.now e) := ⟨_, rfl⟩
  obtain ⟨ids, ⟨mailbox, arrival, lastSeq, duplicates, malformed, episodes, absence, frozen⟩, begun, goesOn, gaps, first⟩ :=
    accepted_entry begin he accepted
  obtain ⟨streams, now, cfg, image, pose, hold, set, join⟩ := arrived_frame (s := s) ids.1 (.inr rfl)
  refine ⟨s.takeFrame.changeEntry e e' true, e', exec.trans (by rw [he]), streams, now, cfg, image, pose, hold, set, ids,
    fun no => absurd no short, fun _ last goes => absurd ⟨last, goes⟩ same, fun _ _ => ?_, join⟩
  exact ⟨mailbox, arrival, lastSeq, duplicates, malformed, episodes, absence, frozen,
    ⟨_, tellFault_told _ e e', rfl⟩, begun, goesOn, gaps, first,
    fun role => streamEvent_readGrant (ids.2.1.trans role) true _⟩

end Sys2Proof.Laws
end

section
/-! What LINK makes of a received frame: a clash of address, a full queue, and the queue as it settles (R174 to R177). -/

namespace Sys2Proof.Laws

open Sys2Proof.Machine Relation

-- Many short proofs at once would each hold a thread of the checking process.
set_option Elab.async false

variable {s t : State} {f : RxFrame}

/-! ## The receive queue as it settles -/

/-- A head that its block is still to take stays (R176, R177). -/
theorem settleRx_stands {streams : List Stream} {fs : List RxFrame} {taken : Nat} (head : ∀ h, fs.head? = some h →
    rxOwner streams h ≠ .nobody ∧ rxOwner streams h ≠ .tooShort ∧ (rxOwner streams h = .setting → taken < itemCount h)) :
    (settleRx streams fs taken).1 = fs ∧ (settleRx streams fs taken).2.2 = 0 := by
  cases fs with
  | nil => exact ⟨rfl, rfl⟩
  | cons f fs =>
    obtain ⟨owned, whole, items⟩ := head f rfl
    unfold settleRx
    split
    · exact absurd ‹_› owned
    · exact absurd ‹_› whole
    · rw [if_pos (items ‹_›)]
      exact ⟨rfl, rfl⟩
    · exact ⟨rfl, rfl⟩

theorem settleRx_nobody {streams : List Stream} (taken : Nat) (h : rxOwner streams f = .nobody) :
    settleRx streams [f] taken = ([], 0, 0) := by
  unfold settleRx
  rw [h]
  rfl

theorem settleRx_tooShort {streams : List Stream} (taken : Nat) (h : rxOwner streams f = .tooShort) :
    settleRx streams [f] taken = ([], 0, 1) := by
  unfold settleRx
  rw [h]
  rfl

theorem settleRx_noItem {streams : List Stream} (taken : Nat) (h : rxOwner streams f = .setting) (none : itemCount f = 0) :
    settleRx streams [f] taken = ([], 0, 0) := by
  unfold settleRx
  rw [h, none]
  rfl

theorem enqueue_room (room : s.link.rx.length < 16) :
    (s.enqueue f).link.rx = (settleRx s.streams (s.link.rx ++ [f]) s.link.itemsTaken).1
    ∧ (s.enqueue f).link.malformed =
        satAdd 65535 s.link.malformed (settleRx s.streams (s.link.rx ++ [f]) s.link.itemsTaken).2.2 := by
  unfold State.enqueue
  rw [if_pos room]
  exact ⟨rfl, rfl⟩

/-! ## A clash -/

/-- LINK with a clash counted (R175). -/
def clashCounted (s : State) : State := { s with link := { s.link with clashes := min 65535 (s.link.clashes + 1) } }

theorem clash_run (run : s.cfg.node = .run) : s.clash f =
    (clashCounted s).raiseNotice 0x71 none (.clash f.kind f.destination (min 65535 (s.link.clashes + 1))) := by
  unfold State.clash
  simp only [onLink_cfg, run]
  rfl

theorem clash_marks (waits : s.cfg.node = .recordRead ∨ s.cfg.node = .join) : s.clash f = { s with link := { s.link with
    clashes := min 65535 (s.link.clashes + 1), clashMark := some (f.kind, f.destination) } } := by
  unfold State.clash
  rcases waits with node | node <;> simp only [onLink_cfg, node] <;> rfl

theorem clash_counts (node : s.cfg.node = .store ∨ s.cfg.node = .quiet) : s.clash f = clashCounted s := by
  unfold State.clash
  rcases node with node | node <;> simp only [onLink_cfg, node] <;> rfl

theorem offerFrame_rx (node : NodeState) (cls : TxClass) (f : TxFrame) (l : LinkUnit) : (offerFrame node cls f l).1.rx = l.rx := by
  obtain ⟨n, e⟩ | ⟨g, _, _, _, _, e⟩ | ⟨_, e⟩ | ⟨_, e⟩ := offerFrame_cases node cls f l <;> rw [e]
  · exact setClass_rx _ _ _
  · obtain ⟨-, e⟩ | ⟨-, n, e⟩ := joinClass_cases cls f l <;> rw [e]
    · exact setClass_rx _ _ _
    · rw [setClass_rx, setClass_rx]

/-- NTC takes nothing from the receive queue. -/
theorem noticeActs_rx (h : NoticeActs s t) : t.link.rx = s.link.rx := by
  induction h with
  | refl => rfl
  | @tail u _ _ act ih =>
    cases act with
    | offer cls k dst data lane => exact (offerFrame_rx _ _ _ _).trans ih
    | sound _ => rw [(sound_touches u _).link rfl]; exact ih
    | ntc => exact ih

theorem catalogue_clash (image : s.image.isSome = true) : s.catalogue 0x71 = some (.warning, .display) := by
  unfold State.catalogue
  rw [Option.isNone_eq_false_iff.2 image]
  rfl

theorem raiseNotice_clashes (id : Nat) (v : Option Severity) (d : Detail) :
    (s.raiseNotice id v d).link.clashes = s.link.clashes := by
  obtain ⟨-, -, -, -, -, -, -, link⟩ := noticeActs_agree (raiseNotice_noticeActs s id v d)
  rw [link]

theorem framed_notices {u : State} (h : Touches noticeBlocks u t) (hu : u = { s with link := u.link }) :
    t = { s with ntc := t.ntc, snd := t.snd, link := t.link } :=
  calc t = { u with ntc := t.ntc, snd := t.snd, link := t.link } := framed h
    _ = { s with ntc := t.ntc, snd := t.snd, link := t.link } :=
      congrArg (fun v : State => { v with ntc := t.ntc, snd := t.snd, link := t.link }) hu

/-- A clash in every state that receives (R175). -/
theorem clash_facts (receives : receivesIn s.cfg.node = true) (ht : t = s.clash f) :
    t.link.clashes = min 65535 (s.link.clashes + 1) ∧ t.link.rx = s.link.rx
      ∧ t = { s with ntc := t.ntc, snd := t.snd, link := t.link } := by
  have node : s.cfg.node = .run ∨ (s.cfg.node = .recordRead ∨ s.cfg.node = .join) ∨ (s.cfg.node = .store ∨ s.cfg.node = .quiet) := by
    cases node : s.cfg.node
    case startRead | configFault => rw [node] at receives; cases receives
    all_goals simp
  rcases node with run | waits | rests
  · rw [clash_run run] at ht
    have link : t.link.rx = s.link.rx := by rw [ht]; exact noticeActs_rx (s := clashCounted s) (raiseNotice_noticeActs _ _ _ _)
    refine ⟨by rw [ht, raiseNotice_clashes]; rfl, link, framed_notices (u := clashCounted s) ?_ rfl⟩
    rw [ht]
    exact raiseNotice_touches _ _ _ _
  · rw [ht, clash_marks waits]
    exact ⟨rfl, rfl, rfl⟩
  · rw [ht, clash_counts rests]
    exact ⟨rfl, rfl, rfl⟩

/-! ## A received frame -/

/-- Settles O16: a frame is ignored, a clash, another station's, dropped, or queued. -/
theorem frameReceivedJudged : Obligations.FrameReceivedJudged := by
  intro f s
  refine ⟨_, rfl, fun ignored => ?_, fun extended data receives => ?_⟩
  · refine if_neg fun taken => ?_
    rw [Bool.and_eq_true, Bool.and_eq_true, Bool.not_eq_true'] at taken
    obtain ⟨⟨extended, data⟩, receives⟩ := taken
    rcases ignored with plain | remote | deaf
    · exact absurd (extended.symm.trans plain) (by decide)
    · exact absurd (data.symm.trans remote) (by decide)
    · exact absurd (receives.symm.trans deaf) (by decide)
  have taken : (if f.extended && !f.remote && receivesIn s.cfg.node then s.receive (rxOfBus f) else s) = s.receive (rxOfBus f) := by
    rw [extended, data, receives]
    rfl
  rw [taken]
  refine ⟨fun own => ?_, fun other elsewhere nobody => ?_, fun other here => ?_⟩
  · have clash : s.receive (rxOfBus f) = s.clash (rxOfBus f) := if_pos own
    rw [clash]
    obtain ⟨count, rx, frame⟩ := clash_facts (f := rxOfBus f) receives rfl
    refine ⟨count, rx, frame, fun waits => by rw [clash_marks waits], fun n x hn hx => ⟨fun run => ?_, fun waits => ?_, fun rests => ?_⟩⟩
    · have told : s.clash (rxOfBus f) = State.raiseNotice { s with link := { s.link with clashes := n } } 0x71 none x := by
        rw [clash_run run, hx, hn]
        rfl
      refine ⟨told, fun image => ⟨catalogue_clash image, fun ordered => ?_⟩⟩
      rw [told]
      obtain ⟨r, mem, id, detail, -⟩ := raiseNotice_holds (s := { s with link := { s.link with clashes := n } }) (sv := none) (d := x)
        run (catalogue_clash image) ((noticesOrdered_iff s).1 ordered)
      exact ⟨r, mem, id, detail⟩
    · rw [clash_marks waits, hn]
    · rw [clash_counts rests, hn]
      rfl
  · unfold State.receive
    rw [if_neg other, if_neg (not_or.2 ⟨elsewhere, nobody⟩)]
  · have queued : s.receive (rxOfBus f) = s.enqueue (rxOfBus f) := by
      unfold State.receive
      rw [if_neg other, if_pos here]
    rw [queued]
    refine ⟨fun full => if_neg (by omega), fun room head => ?_, fun empty nobody => ?_, fun empty short => ?_, fun empty setting none => ?_⟩
    · obtain ⟨rx, malformed⟩ := enqueue_room (f := rxOfBus f) room
      obtain ⟨stands, zero⟩ := settleRx_stands head
      rw [rx, malformed, stands, zero]
      exact ⟨rfl, rfl⟩
    all_goals
      obtain ⟨rx, malformed⟩ := enqueue_room (s := s) (f := rxOfBus f) (by rw [empty]; decide)
      rw [empty, List.nil_append] at rx malformed
      rw [rx, malformed]
    · rw [settleRx_nobody _ nobody]
      exact ⟨rfl, rfl⟩
    · rw [settleRx_tooShort _ short]
      exact ⟨rfl, rfl⟩
    · rw [settleRx_noItem _ setting none]
      exact ⟨rfl, rfl⟩

end Sys2Proof.Laws
end

section
/-! The replies of several frames and the queries that begin them (R38, R76, R77, R152, R180). -/

namespace Sys2Proof.Laws

open Sys2Proof.Machine Relation

-- Many short proofs at once would each hold a thread of the checking process.
set_option Elab.async false

variable {s t : State} {f : TxFrame} {o : ReplyOwner} {dst : Byte} {n : Nat} {rest : List Nat} {q : RxFrame}

/-! ## The frames still to come -/

/-- The frames that the three replies have left (R38, R76, R152). -/
def framesLeft (s : State) : Nat :=
  (s.stmReply.elim 0 (·.todo.length)) + (s.rule.reply.elim 0 (·.todo.length)) + (s.svc.reply.elim 0 (·.todo.length))

theorem reply_plain : TxKind.statsReply ≠ .pose ∧ TxKind.statsReply ≠ .guidance := by decide

/-- A reply with its next frame offered: the block keeps the rest, LINK has what the offer leaves. -/
def offeredNext (s : State) (o : ReplyOwner) (dst : Byte) (rest : List Nat) (l : LinkUnit) : State :=
  { s.setReply o (some ⟨dst, rest⟩) with link := l }

/-- The frame of a reply for one number, formed now. -/
def nextFrame (s : State) (o : ReplyOwner) (dst : Byte) (n : Nat) : TxFrame :=
  ⟨.statsReply, dst, s.replyFrame o n, s.now, false, some o⟩

theorem framesLeft_next (h : s.replyOf o = some ⟨dst, n :: rest⟩) (l : LinkUnit) :
    framesLeft (offeredNext s o dst rest l) + 1 = framesLeft s := by
  obtain ⟨left, hl⟩ : ∃ left : Option ListReply → Nat, left = fun r => r.elim 0 (·.todo.length) := ⟨_, rfl⟩
  have more : left (some ⟨dst, n :: rest⟩) = left (some ⟨dst, rest⟩) + 1 := by rw [hl]; rfl
  have count : ∀ u : State, framesLeft u = left u.stmReply + left u.rule.reply + left u.svc.reply := fun u => by rw [hl]; rfl
  rw [count, count]
  cases o with
  | stm =>
    rw [show s.stmReply = some ⟨dst, n :: rest⟩ from h, more]
    show left (some ⟨dst, rest⟩) + left s.rule.reply + left s.svc.reply + 1 = _
    omega
  | rule =>
    rw [show s.rule.reply = some ⟨dst, n :: rest⟩ from h, more]
    show left s.stmReply + left (some ⟨dst, rest⟩) + left s.svc.reply + 1 = _
    omega
  | svc =>
    rw [show s.svc.reply = some ⟨dst, n :: rest⟩ from h, more]
    show left s.stmReply + left s.rule.reply + left (some ⟨dst, rest⟩) + 1 = _
    omega

/-! ## A delivery -/

theorem deliver_none (h : s.replyOf o = none) (fuel : Nat) : deliver fuel o s = s := by
  cases fuel with
  | zero => rfl
  | succ fuel =>
    unfold deliver
    rw [h]

theorem deliver_ends (h : s.replyOf o = some ⟨dst, []⟩) (fuel : Nat) : deliver (fuel + 1) o s = s.setReply o none := by
  unfold deliver
  rw [h]

theorem deliver_next {l : LinkUnit} {told : Option ReplyOwner} (h : s.replyOf o = some ⟨dst, n :: rest⟩)
    (offered : offerFrame s.cfg.node .background (nextFrame s o dst n) s.link = (l, told)) (fuel : Nat) :
    deliver (fuel + 1) o s = told.elim (offeredNext s o dst rest l) fun o' => deliver fuel o' (offeredNext s o dst rest l) := by
  conv_lhs => unfold deliver
  rw [h]
  dsimp only
  have frame : { s.frame .statsReply dst (s.replyFrame o n) with reply := some o } = nextFrame s o dst n := rfl
  rw [frame, offered]
  cases told <;> rfl

/-- Fuel beyond the frames left changes nothing. -/
theorem deliver_fuel : ∀ {fuel fuel' : Nat} {o : ReplyOwner} {s : State}, framesLeft s < fuel → framesLeft s < fuel' →
    deliver fuel o s = deliver fuel' o s
  | 0, _, _, _, low, _ => absurd low (Nat.not_lt_zero _)
  | _, 0, _, _, _, low => absurd low (Nat.not_lt_zero _)
  | fuel + 1, fuel' + 1, o, s, low, low' => by
    match reply : s.replyOf o with
    | none => rw [deliver_none reply, deliver_none reply]
    | some ⟨dst, []⟩ => rw [deliver_ends reply, deliver_ends reply]
    | some ⟨dst, n :: rest⟩ =>
      obtain ⟨⟨l, told⟩, offered⟩ : ∃ r, offerFrame s.cfg.node .background (nextFrame s o dst n) s.link = r := ⟨_, rfl⟩
      have less := framesLeft_next reply l
      rw [deliver_next reply offered, deliver_next reply offered]
      cases told with
      | none => rfl
      | some o' => exact deliver_fuel (by omega) (by omega)

theorem report_fuel {fuel : Nat} (few : framesLeft s < fuel) (small : framesLeft s < 64) (o : Option ReplyOwner) :
    (o.elim s fun o => deliver fuel o s) = s.report o := by
  cases o with
  | none => rfl
  | some o => exact deliver_fuel few small

/-! ## BACKGROUND makes room -/

/-- LINK with BACKGROUND changed and an overflow counted (R180). -/
def backgroundFull (l : LinkUnit) (fs : List TxFrame) : LinkUnit :=
  { l with background := fs, overflows := min 65535 (l.overflows + 1) }

/-- The offer to a full BACKGROUND: the first frame that no attempt holds leaves, and its reply is told (R180). -/
theorem joinBackground_full {l : LinkUnit} (full : l.background.length = 8) (f : TxFrame) :
    ∃ before g rest, l.background = before ++ g :: rest ∧ (∀ x ∈ before, x.current = true ∧ l.onWire = true)
      ∧ ((g.current = true → l.onWire = false) ∨ rest = [])
      ∧ joinClass .background f l = (backgroundFull l (before ++ rest ++ [f]), g.reply) := by
  have ne : classOf l .background ≠ [] := by
    intro none
    rw [show l.background = [] from none] at full
    cases full
  obtain ⟨before, g, rest, split, held, free, dropped⟩ := dropFirst_eq l.onWire ne
  exact ⟨before, g, rest, split, held, free, joinClass_full (Nat.le_of_eq full.symm) dropped⟩

theorem reply_joins (run : s.cfg.node = .run) (o : ReplyOwner) (dst : Byte) (n : Nat) :
    offerFrame s.cfg.node .background (nextFrame s o dst n) s.link = joinClass .background (nextFrame s o dst n) s.link :=
  offerFrame_joins (takesOffer_run run) (.inr (oddSequence_plain reply_plain)) (.inl rfl)

theorem report_room (run : s.cfg.node = .run) (h : s.replyOf o = some ⟨dst, n :: rest⟩) (room : s.link.background.length < 8) :
    s.report (some o) = offeredNext s o dst rest
      { s.link with background := s.link.background ++ [nextFrame s o dst n] } :=
  deliver_next h ((reply_joins run o dst n).trans (joinClass_room room)) 63

theorem report_full (run : s.cfg.node = .run) (h : s.replyOf o = some ⟨dst, n :: rest⟩) (full : s.link.background.length = 8)
    (few : framesLeft s ≤ 61) : ∃ before g tail, s.link.background = before ++ g :: tail
      ∧ (∀ x ∈ before, x.current = true ∧ s.link.onWire = true) ∧ ((g.current = true → s.link.onWire = false) ∨ tail = [])
      ∧ s.report (some o) = (offeredNext s o dst rest
          (backgroundFull s.link (before ++ tail ++ [nextFrame s o dst n]))).report g.reply := by
  obtain ⟨before, g, tail, split, held, free, joined⟩ := joinBackground_full full (nextFrame s o dst n)
  refine ⟨before, g, tail, split, held, free, ?_⟩
  have less := framesLeft_next h (backgroundFull s.link (before ++ tail ++ [nextFrame s o dst n]))
  rw [show s.report (some o) = deliver 64 o s from rfl, deliver_next h ((reply_joins run o dst n).trans joined)]
  exact report_fuel (by omega) (by omega) g.reply

theorem offeredNext_eq (s : State) (o : ReplyOwner) (dst : Byte) (rest : List Nat) (l : LinkUnit) :
    offeredNext s o dst rest l = State.setReply { s with link := l } o (some ⟨dst, rest⟩) := by
  cases o <;> rfl

/-! ## A reply begins -/

/-- LINK with the frames of a reply left to it (R180). -/
def leftToLink (l : LinkUnit) (o : ReplyOwner) : LinkUnit :=
  { l with background := l.background.map fun f => if f.reply = some o then { f with reply := none } else f }

theorem leftToLink_length (l : LinkUnit) (o : ReplyOwner) : (leftToLink l o).background.length = l.background.length :=
  List.length_map _

theorem abandonReply_eq (s : State) (o : ReplyOwner) :
    s.abandonReply o = { s.setReply o none with link := leftToLink s.link o } := by
  cases o <;> rfl

/-- The reply that a query begins with its first frame. -/
def replyBegun (s : State) (o : ReplyOwner) (dst : Byte) (data : List Byte) (todo : List Nat) : State :=
  ((s.abandonReply o).setReply o (some ⟨dst, todo⟩)).offerBackground ⟨.statsReply, dst, data, s.now, false, some o⟩

theorem replyBegun_room (run : s.cfg.node = .run) (room : s.link.background.length < 8) (o : ReplyOwner) (dst : Byte)
    (data : List Byte) (todo : List Nat) (ht : t = replyBegun s o dst data todo) :
    t = { s.setReply o (some ⟨dst, todo⟩) with link := t.link } ∧ Queued t.link .background .statsReply dst data := by
  obtain ⟨v, hv⟩ : ∃ v, v = (s.abandonReply o).setReply o (some ⟨dst, todo⟩) := ⟨_, rfl⟩
  have frame : v = { s.setReply o (some ⟨dst, todo⟩) with link := leftToLink s.link o } := by
    rw [hv, abandonReply_eq]
    cases o <;> rfl
  have node : v.cfg.node = .run := by
    rw [frame]
    cases o <;> exact run
  have free : v.link.background.length < 8 := by
    rw [frame]
    exact (leftToLink_length s.link o).trans_lt room
  unfold replyBegun at ht
  rw [← hv] at ht
  refine ⟨?_, ?_⟩
  · rw [ht, offerBackground_room free, frame]
  · rw [ht]
    exact offerBackground_queued (s := v) (f := ⟨.statsReply, dst, data, s.now, false, some o⟩) (takesOffer_run node) reply_plain free

theorem beginReply_first (s : State) (o : ReplyOwner) (dst : Byte) (data : List Byte) (todo : List Nat) :
    s.beginReply o dst (some data) todo = replyBegun s o dst data todo := by
  cases o <;> rfl

theorem beginReply_next (s : State) (o : ReplyOwner) (dst : Byte) (n : Nat) (rest : List Nat) :
    s.beginReply o dst none (n :: rest) = replyBegun s o dst (s.replyFrame o n) rest := by
  cases o <;> rfl

/-! ## The queries -/

theorem ruleStats_eq (h : s.headFor .ruleStats = some q) : exec .ruleStats s = .next (if s.inRun then
    s.takeFrame.beginReply .rule q.source (some (ruleHeader s)) (s.img.rules.map (·.index) ++ [32]) else s.takeFrame) := by
  show execRuleStats s = _
  unfold execRuleStats
  rw [h]
  rfl

theorem ruleStatsClear_eq (h : s.headFor .ruleStatsClear = some q) : exec .ruleStatsClear s = .next (if s.inRun then
    State.offerBackground (if keyEngineRunning (s.rule.key.getD 0) then s.takeFrame
        else { s.takeFrame with rule := { s.rule with hits := List.replicate 33 0 } })
      (s.frame .statsReply q.source (replyData 4 [byteOf (bit (keyEngineRunning (s.rule.key.getD 0)))]))
    else s.takeFrame) := by
  show execRuleStatsClear s = _
  unfold execRuleStatsClear
  rw [h]
  dsimp only
  rw [show s.takeFrame.rule = s.rule from rfl]
  cases keyEngineRunning (s.rule.key.getD 0) <;> rfl

theorem streamStats_eq (h : s.headFor .streamStats = some q) : exec .streamStats s = .next (if s.inRun then
    s.takeFrame.beginReply .stm q.source none (s.streams.map (·.number)) else s.takeFrame) := by
  show execStreamStats s = _
  unfold execStreamStats
  rw [h]
  rfl

theorem itemTable_eq (h : s.headFor .itemTable = some q) : exec .itemTable s = .next (if s.inRun then
    s.takeFrame.beginReply .svc q.source none (s.svc.items.map (·.config.number)) else s.takeFrame) := by
  show execItemTable s = _
  unfold execItemTable
  rw [h]
  rfl

/-- A query outside RUN leaves the receive queue and no more. -/
theorem discarded_query {c : Instr} {u : State} (out : s.cfg.node ≠ .run)
    (h : exec c s = .next (if s.inRun then u else s.takeFrame)) :
    ∃ t, exec c s = .next t ∧ t = { s with link := t.link } ∧ t.link.background = s.link.background := by
  refine ⟨s.takeFrame, ?_, takeFrame_eq s, rfl⟩
  rw [h, if_neg (by rwa [inRun_iff])]

/-- The reply to a query has begun: the frames that LINK took first stand in its queue alone. -/
theorem begun_query {c : Instr} {o : ReplyOwner} {dst : Byte} {data : List Byte} {todo : List Nat} (run : s.cfg.node = .run)
    (room : s.link.background.length < 8)
    (h : exec c s = .next (if s.inRun then replyBegun s.takeFrame o dst data todo else s.takeFrame)) :
    ∃ t, exec c s = .next t ∧ Queued t.link .background .statsReply dst data
      ∧ t = { s.setReply o (some ⟨dst, todo⟩) with link := t.link } := by
  obtain ⟨frame, queued⟩ := replyBegun_room (s := s.takeFrame) run room o dst data todo rfl
  refine ⟨_, by rw [h, if_pos ((inRun_iff s).2 run)], queued, ?_⟩
  rw [frame]
  cases o <;> rfl

/-- The clear of the rule counts, refused while the key's engine runs (R77). -/
theorem ruleStatsClear_run {u : State} {r : Byte} (run : s.cfg.node = .run) (h : s.headFor .ruleStatsClear = some q)
    (room : s.link.background.length < 8)
    (hu : u = if keyEngineRunning (s.rule.key.getD 0) then s else { s with rule := { s.rule with hits := List.replicate 33 0 } })
    (hr : r = if keyEngineRunning (s.rule.key.getD 0) then 1 else 0) :
    ∃ t, exec .ruleStatsClear s = .next t ∧ t = { s with rule := t.rule, link := t.link } ∧ t.rule = u.rule
      ∧ Queued t.link .background .statsReply q.source (replyData 4 [r]) := by
  obtain ⟨v, hv⟩ : ∃ v, v = { u with link := s.takeFrame.link } := ⟨_, rfl⟩
  obtain ⟨f, hf⟩ : ∃ f, f = s.frame .statsReply q.source (replyData 4 [r]) := ⟨_, rfl⟩
  have frame : u = { s with rule := u.rule } := by
    rw [hu]
    split <;> rfl
  have node : v.cfg.node = .run := by
    rw [hv, frame]
    exact run
  have free : v.link.background.length < 8 := by
    rw [hv]
    exact room
  have does : exec .ruleStatsClear s = .next (v.offerBackground f) := by
    rw [ruleStatsClear_eq h, if_pos ((inRun_iff s).2 run), hv, hf, hu, hr]
    cases keyEngineRunning (s.rule.key.getD 0)
    · rfl
    · rw [if_pos rfl, if_pos rfl, if_pos rfl]
      conv_lhs => rw [takeFrame_eq s]
      rfl
  refine ⟨_, does, ?_, ?_, ?_⟩
  · rw [offerBackground_room free, hv, frame]
  · rw [offerBackground_room free, hv]
  · have queued := offerBackground_queued (s := v) (f := f) (takesOffer_run node) (by rw [hf]; exact reply_plain) free
    rw [hf] at queued ⊢
    exact queued

/-- The first frame of the reply of STM and of SVC is the first entry's and the first item's. -/
theorem replyFrame_first_stream {e : Stream} {es : List Stream} (h : s.streams = e :: es) :
    s.replyFrame .stm e.number = streamFrame e := by
  have found : (e :: es).find? (fun x => x.number == e.number) = some e := List.find?_cons_of_pos (beq_self_eq_true e.number)
  unfold State.replyFrame
  dsimp only
  rw [h, found]
  rfl

theorem replyFrame_first_item {i : ServiceItem} {is : List ServiceItem} (h : s.svc.items = i :: is) :
    s.replyFrame .svc i.config.number = itemFrame s.svc i := by
  have found : (i :: is).find? (fun x => x.config.number == i.config.number) = some i :=
    List.find?_cons_of_pos (beq_self_eq_true i.config.number)
  unfold State.replyFrame
  dsimp only
  rw [h, found]
  rfl

theorem replyFrame_entry {e : Stream} (h : s.entry n = some e) : s.replyFrame .stm n = streamFrame e := by
  unfold State.entry at h
  unfold State.replyFrame
  dsimp only
  rw [h]
  rfl

theorem replyFrame_item {i : ServiceItem} (h : s.svc.itemOf n = some i) : s.replyFrame .svc n = itemFrame s.svc i := by
  have found : (s.svc.items.find? fun i => i.config.number == n) = some i := by
    rw [← h]
    unfold Svc.itemOf
    refine congrArg (fun p => List.find? p s.svc.items) (funext fun j => ?_)
    rw [Bool.eq_iff_iff, beq_iff_eq, beq_iff_eq]
    exact Int.ofNat_inj.symm
  unfold State.replyFrame
  dsimp only
  rw [found]
  rfl

theorem byteOf_bit (b : Bool) : byteOf (bit b) = if b then 1 else 0 := by cases b <;> rfl

/-- An offer to BACKGROUND that joins the class (R178, R180). -/
theorem offerBackground_joins (takes : takesOffer s.cfg.node f.kind = true)
    (thin : s.link.thinning = false ∨ oddSequence f = false)
    (new : periodic .background f.kind = false ∨ ∀ g ∈ s.link.background, g.kind ≠ f.kind) :
    (s.link.background.length < 8 →
        s.offerBackground f = { s with link := { s.link with background := s.link.background ++ [f] } })
      ∧ (s.link.background.length = 8 → ∃ u before g after, s.link.background = before ++ g :: after
          ∧ (∀ x ∈ before, x.current = true ∧ s.link.onWire = true)
          ∧ ((g.current = true → s.link.onWire = false) ∨ after = [])
          ∧ u = { s with link := { s.link with
              background := before ++ after ++ [f], overflows := min 65535 (s.link.overflows + 1) } }
          ∧ s.offerBackground f = u.report g.reply) := by
  have joins : offerFrame s.cfg.node .background f s.link = joinClass .background f s.link := offerFrame_joins takes thin new
  refine ⟨fun room => ?_, fun full => ?_⟩
  · rw [offerBackground_room room, joins, joinClass_room (show (classOf s.link .background).length < capacity .background from room)]
    rfl
  · obtain ⟨before, g, rest, split, held, free, joined⟩ := joinBackground_full full f
    refine ⟨_, before, g, rest, split, held, free, rfl, ?_⟩
    unfold State.offerBackground
    dsimp only
    rw [joins, joined]
    rfl

/-- Settles O42: the queries, LINK's reports, and the frames byte by byte. -/
theorem queriesReply : Obligations.QueriesReply := by
  refine ⟨fun s q run h room => ?_, fun s q run h room => ?_, fun s q out => ⟨fun h => discarded_query out (ruleStats_eq h),
      fun h => discarded_query out (ruleStatsClear_eq h), fun h => discarded_query out (streamStats_eq h),
      fun h => discarded_query out (itemTable_eq h)⟩, fun s q e es run h room streams => ?_, fun s q i is run h room items => ?_,
    fun s q run h items => ?_, fun s o => ⟨rfl, fun none => deliver_none none 64, fun dst last => deliver_ends last 63,
      fun dst n rest f run left hf => ⟨fun room => ?_, fun full few => ?_⟩⟩,
    fun s f takes thin new => offerBackground_joins takes thin new,
    fun s => ⟨rfl, rfl, rfl, fun r => ⟨rfl, rfl, rfl⟩, fun n e => replyFrame_entry, fun n => rfl, fun n i => replyFrame_item⟩,
    fun e => rfl, fun s k w key winner => ?_, fun s n => ?_, fun r => rfl, fun v i => ?_, rfl, rfl⟩
  · have does := ruleStats_eq h
    rw [beginReply_first] at does
    exact begun_query run room does
  · obtain ⟨t, does, frame, rule, queued⟩ := ruleStatsClear_run run h room rfl rfl
    refine ⟨t, does, frame, fun ⟨k, key, on⟩ => ?_, fun still => ?_⟩
    · have running : keyEngineRunning (s.rule.key.getD 0) = true := by rw [key]; exact on
      rw [running] at rule queued
      exact ⟨rule, queued⟩
    · have stopped : keyEngineRunning (s.rule.key.getD 0) = false := by
        cases key : s.rule.key with
        | none => rfl
        | some k => exact still k key
      rw [stopped] at rule queued
      exact ⟨rule, queued⟩
  · have does := streamStats_eq h
    rw [streams, List.map_cons, beginReply_next, replyFrame_first_stream (s := s.takeFrame) streams] at does
    exact begun_query run room does
  · have does := itemTable_eq h
    rw [items, List.map_cons, beginReply_next, replyFrame_first_item (s := s.takeFrame) items] at does
    exact begun_query run room does
  · have does := itemTable_eq h
    rw [items, if_pos ((inRun_iff s).2 run)] at does
    refine ⟨s.takeFrame.abandonReply .svc, does, ?_, ?_⟩
    · rw [abandonReply_eq]
      rfl
    · rw [abandonReply_eq]
      exact leftToLink_length _ _
  · rw [report_room run left room, offeredNext_eq, hf]
    rfl
  · obtain ⟨before, g, tail, split, held, free, reported⟩ := report_full run left full few
    refine ⟨_, before, g, tail, split, held, free, rfl, ?_⟩
    rw [reported, offeredNext_eq, hf]
    rfl
  · unfold ruleHeader
    rw [key, winner]
    rfl
  · unfold ruleFrame
    rw [byteOf_bit]
    by_cases wins : s.rule.winner = some n
    · rw [if_pos wins, wins, beq_self_eq_true]
      rfl
    · rw [if_neg wins, show (s.rule.winner == some n) = false from beq_eq_false_iff_ne.2 wins]
      rfl
  · unfold itemFrame
    rw [byteOf_bit, byteOf_bit]
    rfl

end Sys2Proof.Laws
end

section
/-! The pose period: the record that the computation writes, what its consumers leave alone, and the POSE and GUIDANCE frames
(R11 to R17, R60, R181). -/

namespace Sys2Proof.Laws

open Sys2Proof.Machine Relation

-- Many short proofs at once would each hold a thread of the checking process.
set_option Elab.async false

variable {s t u v : State}

/-! ## What a reply and a cycle leave alone -/

theorem setReply_rule (s : State) (o : ReplyOwner) (r : Option ListReply) :
    (s.setReply o r).rule = { s.rule with reply := (s.setReply o r).rule.reply } := by
  cases o <;> rfl

/-- What a delivery changes of RULE is the reply in progress. -/
theorem deliver_rule : ∀ (n : Nat) (o : ReplyOwner) (s : State),
    (deliver n o s).rule = { s.rule with reply := (deliver n o s).rule.reply }
  | 0, _, _ => rfl
  | n + 1, o, s => by
    unfold deliver
    split
    · rfl
    · exact setReply_rule s o none
    · dsimp only
      split
      · exact setReply_rule s o _
      · rw [deliver_rule n _ _]
        dsimp only
        rw [setReply_rule s o]

theorem report_rule (s : State) (o : Option ReplyOwner) :
    (s.report o).rule = { s.rule with reply := (s.report o).rule.reply } := by
  cases o with
  | none => rfl
  | some o => exact deliver_rule _ o s

theorem evaluate_mode (s : State) (p : ServiceItem → Bool) : (s.evaluate p).eco.mode = s.eco.mode := by
  rw [evaluate_eq, formDerate_mode, (risesTold_touches s p).eco rfl]
  rfl

/-- A cycle leaves the profile and the work mode. -/
theorem countCycle_settings (s : State) :
    s.countCycle.rule.profile = s.rule.profile ∧ s.countCycle.eco.mode = s.eco.mode := by
  by_cases h : s.svc.cycles < 4294967295
  · rw [countCycle_eq h]
    refine ⟨?_, evaluate_mode (cycleAdded s) _⟩
    have rule : (cycleEvaluated s).rule = s.rule := (evaluate_touches (cycleAdded s) _).rule rfl
    show ((cycleEvaluated s).offerBackground (cycleFrame s)).rule.profile = _
    unfold State.offerBackground
    dsimp only
    rw [report_rule]
    show (cycleEvaluated s).rule.profile = _
    rw [rule]
  · rw [countCycle_full (Nat.not_lt.1 h)]
    exact ⟨rfl, rfl⟩

/-! ## The consumers -/

/-- What the consumers of a computation leave alone (R16). -/
structure PoseStands (s t : State) : Prop where
  pose : t.pose = s.pose
  set : t.lim.set = s.lim.set
  profile : t.rule.profile = s.rule.profile
  mode : t.eco.mode = s.eco.mode
  seconds : t.svc.engineSeconds = s.svc.engineSeconds
  cfg : t.cfg = s.cfg
  image : t.image = s.image
  streams : t.streams = s.streams
  hold : t.hold = s.hold

theorem PoseStands.refl (s : State) : PoseStands s s := ⟨rfl, rfl, rfl, rfl, rfl, rfl, rfl, rfl, rfl⟩

theorem PoseStands.trans (h : PoseStands s t) (k : PoseStands t u) : PoseStands s u :=
  ⟨k.pose.trans h.pose, k.set.trans h.set, k.profile.trans h.profile, k.mode.trans h.mode, k.seconds.trans h.seconds,
    k.cfg.trans h.cfg, k.image.trans h.image, k.streams.trans h.streams, k.hold.trans h.hold⟩

theorem offer_stands (s : State) (cls : TxClass) (k : TxKind) (dst : Byte) (data : List Byte) :
    PoseStands s (s.offer cls k dst data) := ⟨rfl, rfl, rfl, rfl, rfl, rfl, rfl, rfl, rfl⟩

theorem rebuild_poseStands (s : State) : PoseStands s s.rebuild where
  pose := (rebuild_touches s).pose rfl
  set := by rw [(rebuild_touches s).lim rfl]
  profile := agree_profile (rebuild_agrees s)
  mode := agree_mode (rebuild_agrees s)
  seconds := by rw [(rebuild_touches s).svc rfl]
  cfg := (rebuild_touches s).cfg rfl
  image := (rebuild_touches s).image rfl
  streams := (rebuild_touches s).streams rfl
  hold := (rebuild_touches s).hold rfl

theorem evaluateLimits_stands (s : State) (p : Limit → Bool) : PoseStands s (s.evaluateLimits p) where
  pose := (evaluateLimits_touches s p).pose rfl
  set := evaluateLimits_set s p
  profile := agree_profile (acts_agree (evaluateLimits_acts s p))
  mode := agree_mode (acts_agree (evaluateLimits_acts s p))
  seconds := by rw [(evaluateLimits_touches s p).svc rfl]
  cfg := (evaluateLimits_touches s p).cfg rfl
  image := (evaluateLimits_touches s p).image rfl
  streams := (evaluateLimits_touches s p).streams rfl
  hold := (evaluateLimits_touches s p).hold rfl

theorem digStep_stands (s : State) : PoseStands s s.digStep := by
  have touched := digStep_touches s
  obtain ⟨⟨d, z, done⟩, step⟩ : ∃ r, r = detectorStep s.img.service s.poseUsable s.pose.record.slewValid s.pose.record.p3Height
    s.pose.record.slew s.svc.detector s.svc.psi0 := ⟨_, rfl⟩
  obtain ⟨profile, mode, seconds⟩ : s.digStep.rule.profile = s.rule.profile ∧ s.digStep.eco.mode = s.eco.mode
      ∧ s.digStep.svc.engineSeconds = s.svc.engineSeconds := by
    rw [digStep_eq step]
    cases done with
    | false => exact ⟨rfl, rfl, rfl⟩
    | true =>
      obtain ⟨profile, mode⟩ := countCycle_settings (detected s d z)
      exact ⟨profile, mode, (countCycle_keeps (detected s d z)).2.2.1⟩
  exact ⟨touched.pose rfl, by rw [touched.lim rfl], profile, mode, seconds, touched.cfg rfl, touched.image rfl, touched.streams rfl,
    touched.hold rfl⟩

theorem poseConsumers_stand (s : State) : PoseStands s (anyOrder poseConsumers s) := by
  refine anyOrder_keeps (P := PoseStands s) (fun t n h => h.trans ⟨rfl, rfl, rfl, rfl, rfl, rfl, rfl, rfl, rfl⟩) _ _ ?_ (.refl s)
  have events : ∀ thread ∈ poseConsumers, ∀ event ∈ thread, ∀ t, PoseStands t (event t) := by
    simp only [poseConsumers, List.mem_cons, List.not_mem_nil, or_false, forall_eq_or_imp, forall_eq]
    exact ⟨fun t => (evaluateLimits_stands t _).trans (offer_stands _ _ _ _ _), rebuild_poseStands, digStep_stands,
      fun t => offer_stands t _ _ _ _⟩
  exact fun thread mem event inside t h => h.trans (events thread mem event inside t)

/-! ## The record -/

theorem computePose_arriveAt (s : State) (d : Ms) :
    (s.arriveAt d).computePose = { s.computePose with time := (s.arriveAt d).now } := by
  unfold State.arriveAt
  split <;> rfl

/-- The quality, line by line (R13). -/
theorem quality_facts (s : State) :
    (s.quality = .invalid ↔ ∃ r ∈ linkRoles, s.usable r = false)
    ∧ (s.quality = .held ↔ (∀ r ∈ linkRoles, s.usable r = true) ∧ ∃ r ∈ linkRoles, s.streamState r = .late)
    ∧ (s.quality = .degraded ↔ (∀ r ∈ linkRoles, s.usable r = true ∧ s.streamState r ≠ .late)
        ∧ ∃ r ∈ linkRoles, (s.mailbox r).status = .degraded)
    ∧ (s.quality = .good ↔ ∀ r ∈ linkRoles, s.usable r = true ∧ s.streamState r ≠ .late ∧ (s.mailbox r).status ≠ .degraded) := by
  have unusable : (linkRoles.any fun r => !s.usable r) = true ↔ ∃ r ∈ linkRoles, s.usable r = false := by simp
  have late : (linkRoles.any fun r => s.streamState r == .late) = true ↔ ∃ r ∈ linkRoles, s.streamState r = .late := by simp
  have degraded : (linkRoles.any fun r => (s.mailbox r).status == .degraded) = true
      ↔ ∃ r ∈ linkRoles, (s.mailbox r).status = .degraded := by simp
  have usable_of : (¬ ∃ r ∈ linkRoles, s.usable r = false) → ∀ r ∈ linkRoles, s.usable r = true := fun none r mem => by
    by_contra other
    exact none ⟨r, mem, by simpa using other⟩
  unfold State.quality
  simp only [unusable, late, degraded]
  split
  · rename_i bad
    obtain ⟨r, mem, no⟩ := id bad
    have never : ∀ {P : Prop}, s.usable r = true → P := fun yes => absurd (yes.symm.trans no) (by decide)
    exact ⟨⟨fun _ => bad, fun _ => rfl⟩, ⟨fun e => (by cases e), fun h => never (h.1 r mem)⟩,
      ⟨fun e => (by cases e), fun h => never (h.1 r mem).1⟩, ⟨fun e => (by cases e), fun h => never (h r mem).1⟩⟩
  rename_i whole
  have usable := usable_of whole
  split
  · rename_i aged
    obtain ⟨r, mem, yes⟩ := id aged
    exact ⟨⟨fun e => (by cases e), fun h => absurd h whole⟩, ⟨fun _ => ⟨usable, aged⟩, fun _ => rfl⟩,
      ⟨fun e => (by cases e), fun h => absurd yes (h.1 r mem).2⟩, ⟨fun e => (by cases e), fun h => absurd yes (h r mem).2.1⟩⟩
  rename_i fresh
  have notLate : ∀ r ∈ linkRoles, s.streamState r ≠ .late := fun r mem yes => fresh ⟨r, mem, yes⟩
  split
  · rename_i worn
    obtain ⟨r, mem, yes⟩ := id worn
    exact ⟨⟨fun e => (by cases e), fun h => absurd h whole⟩, ⟨fun e => (by cases e), fun h => absurd h.2 fresh⟩,
      ⟨fun _ => ⟨fun r mem => ⟨usable r mem, notLate r mem⟩, worn⟩, fun _ => rfl⟩,
      ⟨fun e => (by cases e), fun h => absurd yes (h r mem).2.2⟩⟩
  · rename_i sound
    exact ⟨⟨fun e => (by cases e), fun h => absurd h whole⟩, ⟨fun e => (by cases e), fun h => absurd h.2 fresh⟩,
      ⟨fun e => (by cases e), fun h => absurd h.2 sound⟩,
      ⟨fun _ r mem => ⟨usable r mem, notLate r mem, fun yes => sound ⟨r, mem, yes⟩⟩, fun _ => rfl⟩⟩

/-- The coordinates that a computation writes (R14). -/
theorem computePose_points (s : State) : (s.quality = .invalid → s.computePose = { s.pose.record with
      sequence := s.pose.record.sequence + 1, quality := s.quality, time := s.now, slew := s.psi, slewValid := s.slewValid })
    ∧ (s.quality ≠ .invalid → s.computePose = { computePoints s.img.geometry (pitch (s.mailbox .boomAngle).angle s.img.geometry.offset1)
        (pitch (s.mailbox .armAngle).angle s.img.geometry.offset2) (pitch (s.mailbox .bucketAngle).angle s.img.geometry.offset3)
        s.pose.record with
      sequence := s.pose.record.sequence + 1, quality := s.quality, time := s.now, slew := s.psi, slewValid := s.slewValid }) := by
  unfold State.computePose
  dsimp only
  constructor
  · intro bad
    rw [if_pos bad]
  · intro good
    rw [if_neg good]
    rfl

theorem computePose_sequence (s : State) : s.computePose.sequence = s.pose.record.sequence + 1 := by
  obtain ⟨keeps, computes⟩ := computePose_points s
  by_cases bad : s.quality = .invalid
  · rw [keeps bad]
  · rw [computes bad]

theorem posePeriodExpiry_eq {d : Ms} (h : s.pose.timer = some d) : exec .posePeriodExpiry s = .next (anyOrder poseConsumers
    { s.arriveAt d with pose := ⟨(s.arriveAt d).computePose, some (after d 20)⟩ }) := by
  show execPosePeriodExpiry s = _
  unfold execPosePeriodExpiry
  rw [h]

/-! ## The two frames -/

theorem offer_thinned {k : TxKind} (run : s.cfg.node = .run) (thin : s.link.thinning = true) (cls : TxClass) (dst : Byte)
    (data : List Byte) (odd : oddSequence (s.frame k dst data) = true) :
    s.offer cls k dst data = { s with link := { s.link with thinned := min 65535 (s.link.thinned + 1) } } := by
  have offered := offerFrame_thinned (cls := cls) (f := s.frame k dst data) (takesOffer_run run) thin odd
  unfold State.offer State.onLink
  dsimp only
  rw [offered]
  rfl

theorem offer_unthinned {k : TxKind} (run : s.cfg.node = .run) (cls : TxClass) (dst : Byte) (data : List Byte)
    (even : s.link.thinning = false ∨ oddSequence (s.frame k dst data) = false) :
    Queued (s.offer cls k dst data).link cls k dst data :=
  offerFrame_queued (f := s.frame k dst data) (takesOffer_run run) even

theorem poseFrame_odd (s : State) : oddSequence (s.frame .pose 0xFF (poseData s.pose.record))
    = (s.pose.record.sequence.toNat % 2 == 1) := rfl

theorem guidanceFrame_odd (s : State) : oddSequence (s.frame .guidance 0xFF (guidanceData s))
    = (s.pose.record.sequence.toNat % 2 == 1) := rfl

/-- The margin that GUIDANCE carries (R60). -/
def marginCarried (r : LimitRecord) : Int :=
  if r.state = .off ∨ r.state = .fault then 32767 else clampInt (-32768) 32766 (r.margin.getD 0)

theorem guidanceMargin_eq (r : LimitRecord) : guidanceMargin r = be2 (marginCarried r) := by
  unfold guidanceMargin marginCarried saturate
  cases r.state
  case off => rw [if_pos (.inl rfl)]
  case fault => rw [if_pos (.inr rfl)]
  all_goals rw [if_neg (by decide)]

theorem marginCarried_bounds (r : LimitRecord) : -32768 ≤ marginCarried r ∧ marginCarried r ≤ 32767 := by
  unfold marginCarried
  split
  · exact ⟨by decide, by decide⟩
  · obtain ⟨low, high⟩ := clampInt_bounds (lo := -32768) (hi := 32766) (r.margin.getD 0) (by decide)
    exact ⟨low, high.trans (by decide)⟩

theorem s16At_congr {x y : List Byte} {n m : Nat} (high : byteAt x n = byteAt y m) (low : byteAt x (n + 1) = byteAt y (m + 1)) :
    s16At x n = s16At y m := by
  unfold s16At u16At
  rw [high, low]

/-- Five two-byte fields behind a byte, then five bytes. -/
theorem guidance_layout (x : Byte) (m : Limit → Int) (b : Limit → Byte) (l : Limit) (data : List Byte)
    (h : data = [x] ++ (Limit.all.flatMap fun l => be2 (m l)) ++ Limit.all.map b) : data.length = 16 ∧ byteAt data 0 = x
      ∧ byteAt data (1 + 2 * l.num) = byteAt (be2 (m l)) 0 ∧ byteAt data (1 + 2 * l.num + 1) = byteAt (be2 (m l)) 1
      ∧ byteAt data (11 + l.num) = b l := by
  have bytes : data = [x, byteAt (be2 (m .floor)) 0, byteAt (be2 (m .floor)) 1, byteAt (be2 (m .ceiling)) 0, byteAt (be2 (m .ceiling)) 1,
      byteAt (be2 (m .reach)) 0, byteAt (be2 (m .reach)) 1, byteAt (be2 (m .slewLeft)) 0, byteAt (be2 (m .slewLeft)) 1,
      byteAt (be2 (m .slewRight)) 0, byteAt (be2 (m .slewRight)) 1, b .floor, b .ceiling, b .reach, b .slewLeft, b .slewRight] := h
  rw [bytes]
  cases l <;> exact ⟨rfl, rfl, rfl, rfl, rfl⟩

/-- GUIDANCE carries the margin of each limit, then its state (R60, 10.7). -/
theorem guidanceData_fields (s : State) (l : Limit) : (guidanceData s).length = 16
    ∧ byteAt (guidanceData s) 0 = s.pose.record.sequence
    ∧ s16At (guidanceData s) (1 + 2 * l.num) = marginCarried (s.lim.records.get l)
    ∧ byteAt (guidanceData s) (11 + l.num) = byteOf (limitStateCode (s.lim.records.get l).state) := by
  obtain ⟨length, first, high, low, state⟩ := guidance_layout s.pose.record.sequence (fun l => marginCarried (s.lim.records.get l))
    (fun l => byteOf (limitStateCode (s.lim.records.get l).state)) l (guidanceData s) (by
      unfold guidanceData
      simp only [guidanceMargin_eq])
  obtain ⟨least, most⟩ := marginCarried_bounds (s.lim.records.get l)
  exact ⟨length, first, (s16At_congr high low).trans (s16At_be2 least most), state⟩

/-- Settles O15: the record first, then its consumers in any order, then the two frames. -/
theorem posePeriodComputes : Obligations.PosePeriodComputes := by
  refine ⟨fun s d h => ?_, fun s d => posePeriodExpiry_eq, ⟨_, by simp [poseConsumers], List.mem_singleton_self _⟩,
    ⟨_, List.mem_cons_self .., List.mem_singleton_self _⟩, fun s run even => ?_, fun s run thin odd => ?_, fun r => ?_,
    fun s l r hr => ?_⟩
  · obtain ⟨v, hv⟩ : ∃ v : State, v = { s.arriveAt d with pose := ⟨(s.arriveAt d).computePose, some (after d 20)⟩ } := ⟨_, rfl⟩
    obtain ⟨t, ht⟩ : ∃ t, t = anyOrder poseConsumers v := ⟨_, rfl⟩
    have stands : PoseStands v t := by rw [ht]; exact poseConsumers_stand v
    have record : t.pose.record = { s.computePose with time := (s.arriveAt d).now } := by
      rw [stands.pose, hv, ← computePose_arriveAt]
    obtain ⟨invalid, held, degraded, good⟩ := quality_facts s
    obtain ⟨keeps, computes⟩ := computePose_points s
    have quality : t.pose.record.quality = s.quality := by rw [record]; rfl
    have set : t.lim.set = s.lim.set := by rw [stands.set, hv]; simp
    refine ⟨t, by rw [posePeriodExpiry_eq h, ← hv, ht], by rw [stands.pose, hv], ?_, by rw [record], by rw [record]; rfl,
      by rw [record]; rfl, by rw [quality]; exact invalid, by rw [quality]; exact held, by rw [quality]; exact degraded,
      by rw [quality]; exact good, fun bad => ?_, fun usable => ⟨_, rfl, ?_⟩, set, ?_, ?_, ?_, ?_, ?_, ?_, ?_⟩
    · rw [record]
      exact computePose_sequence s
    · rw [record, keeps (quality ▸ bad)]
      exact ⟨rfl, rfl, rfl, rfl, rfl, rfl⟩
    · rw [record, computes (quality ▸ usable)]
      exact ⟨rfl, rfl, rfl, rfl, rfl, rfl⟩
    · rw [stands.profile, hv]; simp
    · rw [stands.mode, hv]; simp
    · rw [stands.seconds, hv]; simp
    · rw [stands.cfg, hv]; simp
    · rw [stands.image, hv]; simp
    · rw [stands.streams, hv]; simp
    · rw [stands.hold, hv]; simp
  · have plain : s.link.thinning = false ∨ (s.pose.record.sequence.toNat % 2 == 1) = false := by
      rcases even with off | even
      · exact .inl off
      · exact .inr (by rw [even]; rfl)
    exact ⟨offer_unthinned run _ _ _ plain, offer_unthinned run _ _ _ plain⟩
  · have one : (s.pose.record.sequence.toNat % 2 == 1) = true := by rw [odd]; rfl
    exact ⟨offer_thinned run thin _ _ _ one, offer_thinned run thin _ _ _ one⟩
  · unfold poseData
    cases r.quality <;> cases r.slewValid <;> rfl
  · obtain ⟨length, sequence, margin, state⟩ := guidanceData_fields s l
    rw [← hr] at margin state
    refine ⟨length, sequence, fun off => by rw [margin]; exact if_pos off, fun on sound m some => ?_, ?_⟩
    · rw [margin]
      unfold marginCarried
      rw [if_neg (not_or.2 ⟨on, sound⟩), some]
      rfl
    · rw [state]
      cases r.state <;> rfl

end Sys2Proof.Laws
end

section
/-! The current frame and what takes its place; what NTC and the reports of replies leave of LINK (R179 to R184). -/

namespace Sys2Proof.Laws

open Sys2Proof.Machine Relation

-- Many short proofs at once would each hold a thread of the checking process.
set_option Elab.async false

variable {s t : State} {l l' : LinkUnit} {cls : TxClass} {f g : TxFrame} {fs : List TxFrame}

/-! ## The first current frame -/

/-- A list is cut at its first current frame. -/
theorem split_current (h : fs.find? (·.current) = some f) :
    f.current = true ∧ ∃ before rest, fs = before ++ f :: rest ∧ ∀ g ∈ before, g.current = false := by
  refine ⟨List.find?_some h, ?_⟩
  obtain ⟨-, before, rest, e, free⟩ := List.find?_eq_some_iff_append.1 h
  exact ⟨before, rest, e, fun g mem => by simpa using free g mem⟩

theorem settleCurrent_split {before rest : List TxFrame} (r : Option TxFrame) (current : f.current = true)
    (free : ∀ g ∈ before, g.current = false) : settleCurrent r (before ++ f :: rest) = before ++ r.toList ++ rest := by
  induction before with
  | nil =>
    show settleCurrent r (f :: rest) = _
    unfold settleCurrent
    rw [current]
    rfl
  | cons x xs ih =>
    show settleCurrent r (x :: (xs ++ f :: rest)) = _
    unfold settleCurrent
    rw [free x List.mem_cons_self, ih fun g mem => free g (List.mem_cons_of_mem x mem)]
    rfl

theorem find_placed {before rest : List TxFrame} (current : f.current = true) (free : ∀ g ∈ before, g.current = false) :
    (before ++ f :: rest).find? (·.current) = some f := by
  rw [List.find?_append, List.find?_eq_none.2 fun g mem => by rw [free g mem]; decide, List.find?_cons_of_pos current]
  rfl

/-- The current frame by the classes' ranks (R182). -/
theorem currentFrame_iff : currentFrame l = some (cls, f) ↔ (classOf l cls).find? (·.current) = some f
    ∧ (cls ≠ .urgent → l.urgent.find? (·.current) = none) ∧ (cls = .background → l.normal.find? (·.current) = none) := by
  unfold currentFrame
  cases u : l.urgent.find? (·.current) with
  | some x => cases cls <;> simp [classOf, u]
  | none =>
    cases n : l.normal.find? (·.current) with
    | some x => cases cls <;> simp [classOf, u, n]
    | none => cases b : l.background.find? (·.current) <;> cases cls <;> simp [classOf, u, n, b]

/-- With no current frame no frame is current. -/
theorem none_current (h : currentFrame l = none) (c : TxClass) : ∀ f ∈ classOf l c, f.current = false := by
  have none := currentFrame_none.1 h c
  rw [currentKinds_eq_nil] at none
  exact fun f mem => by simpa using List.find?_eq_none.1 none f mem

theorem no_current (h : ∀ c, ∀ f ∈ classOf l c, f.current = false) : currentFrame l = none := by
  rw [currentFrame_none]
  intro c
  rw [currentKinds_eq_nil]
  exact List.find?_eq_none.2 fun f mem => by rw [h c f mem]; decide

theorem currentFrame_congr (h : ∀ c, classOf l' c = classOf l c) : currentFrame l' = currentFrame l := by
  unfold currentFrame
  rw [show l'.urgent = l.urgent from h .urgent, show l'.normal = l.normal from h .normal,
    show l'.background = l.background from h .background]

/-- The class of the current frame with that frame replaced, or gone. -/
theorem settled_class (h : currentFrame l = some (cls, f)) (r : Option TxFrame) : ∃ before rest,
    classOf l cls = before ++ f :: rest ∧ (∀ g ∈ before, g.current = false)
      ∧ settleCurrent r (classOf l cls) = before ++ r.toList ++ rest := by
  obtain ⟨current, before, rest, e, free⟩ := split_current (currentFrame_class h)
  exact ⟨before, rest, e, free, by rw [e, settleCurrent_split r current free]⟩

/-- LINK with its current frame replaced, or gone. -/
theorem settled_givesPlace (h : currentFrame l = some (cls, f)) (r : Option TxFrame) (same : ∀ c, classOf l' c = classOf l c) :
    GivesPlace l (setClass l' cls (settleCurrent r (classOf l cls))) cls f r.toList := by
  obtain ⟨before, rest, e, free, settled⟩ := settled_class h r
  exact ⟨before, rest, e, free, by rw [classOf_setClass, settled], fun c other => by rw [classOf_setClass_ne _ _ other, same c]⟩

/-- A frame put in the place of the current one is current in its turn. -/
theorem currentFrame_settled (h : currentFrame l = some (cls, f)) (same : ∀ c, classOf l' c = classOf l c)
    (current : g.current = true) : currentFrame (setClass l' cls (settleCurrent (some g) (classOf l cls))) = some (cls, g) := by
  obtain ⟨before, rest, -, free, settled⟩ := settled_class h (some g)
  obtain ⟨-, urgent, normal⟩ := currentFrame_iff.1 h
  rw [currentFrame_iff, classOf_setClass, settled]
  refine ⟨?_, fun other => ?_, fun lane => ?_⟩
  · rw [Option.toList_some, List.append_assoc]
    exact find_placed current free
  · rw [show (setClass l' cls _).urgent = classOf (setClass l' cls _) .urgent from rfl, classOf_setClass_ne _ _ (Ne.symm other), same]
    exact urgent other
  · rw [show (setClass l' cls _).normal = classOf (setClass l' cls _) .normal from rfl,
      classOf_setClass_ne _ _ (by rw [lane]; decide), same]
    exact normal lane

/-! ## The end of an attempt -/

/-- LINK off the wire, with nothing held beside (R179). -/
def offWire (l : LinkUnit) : LinkUnit := { l with onWire := false, beside := none }

theorem attemptOver_held (h : currentFrame l = some (cls, f)) (beside : l.beside = some g) :
    attemptOver l = setClass (offWire l) cls (settleCurrent (some { g with current := true }) (classOf l cls)) := by
  unfold attemptOver
  rw [h, beside]
  rfl

theorem attemptOver_alone (h : l.beside = none ∨ currentFrame l = none) : attemptOver l = offWire l := by
  unfold attemptOver
  rcases h with h | h <;> rw [h]
  · rfl
  · cases l.beside <;> rfl

/-- What the end of an attempt leaves: the frames of one class may differ, and no attempt stands (R179). -/
theorem attemptOver_eq (l : LinkUnit) : attemptOver l = { l with
    urgent := (attemptOver l).urgent, normal := (attemptOver l).normal, background := (attemptOver l).background
    thinning := (attemptOver l).thinning, onWire := false, beside := none } := by
  by_cases alone : l.beside = none ∨ currentFrame l = none
  · rw [attemptOver_alone alone]
    rfl
  · obtain ⟨held, current⟩ := not_or.1 alone
    obtain ⟨g, beside⟩ := Option.ne_none_iff_exists'.1 held
    obtain ⟨⟨cls, f⟩, h⟩ := Option.ne_none_iff_exists'.1 current
    rw [attemptOver_held h beside]
    exact setClass_eq _ _ _

theorem attemptOver_facts (l : LinkUnit) : (l.beside = none → ∀ c, classOf (attemptOver l) c = classOf l c)
    ∧ (∀ x h, currentFrame l = some x → l.beside = some h → GivesPlace l (attemptOver l) x.1 x.2 [{ h with current := true }])
    ∧ (∀ x h, currentFrame l = some x → l.beside = some h → currentFrame (attemptOver l) = some (x.1, { h with current := true }))
    ∧ (∀ x, currentFrame l = some x → l.beside = none → currentFrame (attemptOver l) = some x) := by
  refine ⟨fun alone c => by rw [attemptOver_alone (.inl alone)]; cases c <;> rfl, fun x h current beside => ?_,
    fun x h current beside => ?_, fun x current alone => ?_⟩
  · rw [attemptOver_held current beside]
    exact settled_givesPlace current _ fun c => by cases c <;> rfl
  · rw [attemptOver_held current beside]
    exact currentFrame_settled current (fun c => by cases c <;> rfl) rfl
  · rw [attemptOver_alone (.inl alone)]
    exact (currentFrame_congr fun c => by cases c <;> rfl).trans current

/-! ## Notices and LINK -/

theorem offerFrame_onWire (node : NodeState) (cls : TxClass) (f : TxFrame) (l : LinkUnit) :
    (offerFrame node cls f l).1.onWire = l.onWire := by
  obtain ⟨n, e⟩ | ⟨g, _, _, _, _, e⟩ | ⟨_, e⟩ | ⟨_, e⟩ := offerFrame_cases node cls f l <;> rw [e]
  · exact setClass_onWire _ _ _
  · obtain ⟨-, e⟩ | ⟨-, n, e⟩ := joinClass_cases cls f l <;> rw [e]
    · exact setClass_onWire _ _ _
    · rw [setClass_onWire, setClass_onWire]

/-- NTC ends no attempt. -/
theorem noticeActs_onWire (h : NoticeActs s t) : t.link.onWire = s.link.onWire := by
  induction h with
  | refl => rfl
  | @tail u _ _ act ih =>
    cases act with
    | offer cls k dst data lane => exact (offerFrame_onWire _ _ _ _).trans ih
    | sound _ => rw [(sound_touches u _).link rfl]; exact ih
    | ntc => exact ih

/-- What LINK keeps of its health and its counts while blocks offer and withdraw. -/
structure HealthStands (l l' : LinkUnit) : Prop where
  state : l'.state = l.state
  failures : l'.failures = l.failures
  failedAttempts : l'.failedAttempts = l.failedAttempts
  silentHold : l'.silentHold = l.silentHold
  ageDiscards : l'.ageDiscards = l.ageDiscards

theorem HealthStands.trans {m : LinkUnit} (h : HealthStands l l') (k : HealthStands l' m) : HealthStands l m :=
  ⟨k.state.trans h.state, k.failures.trans h.failures, k.failedAttempts.trans h.failedAttempts, k.silentHold.trans h.silentHold,
    k.ageDiscards.trans h.ageDiscards⟩

theorem noticeActs_health (h : NoticeActs s t) : HealthStands s.link t.link := by
  obtain ⟨-, -, -, -, -, -, -, link⟩ := noticeActs_agree h
  rw [link]
  exact ⟨rfl, rfl, rfl, rfl, rfl⟩

/-! ## The reports of replies -/

/-- LINK after reports of replies: BACKGROUND alone has changed, its overflows counted, by frames that no attempt has been made
of (R180). -/
structure BackgroundMoved (l l' : LinkUnit) : Prop where
  frame : l' = { l with background := l'.background, overflows := l'.overflows }
  fresh : (∀ f ∈ l.background, f.current = false) → ∀ f ∈ l'.background, f.current = false

theorem BackgroundMoved.refl (l : LinkUnit) : BackgroundMoved l l := ⟨rfl, id⟩

theorem BackgroundMoved.trans {m : LinkUnit} (h : BackgroundMoved l l') (k : BackgroundMoved l' m) : BackgroundMoved l m := by
  refine ⟨?_, fun fresh => k.fresh (h.fresh fresh)⟩
  have frame := k.frame
  rw [h.frame] at frame
  exact frame

theorem BackgroundMoved.health (h : BackgroundMoved l l') : HealthStands l l' := by
  rw [h.frame]
  exact ⟨rfl, rfl, rfl, rfl, rfl⟩

/-- The offer of a reply's frame: not taken, with room, or to a full class. -/
theorem replyOffer_cases (node : NodeState) (f : TxFrame) (kind : f.kind = .statsReply) (l : LinkUnit) :
    offerFrame node .background f l = (l, none)
    ∨ (l.background.length < 8 ∧ offerFrame node .background f l = ({ l with background := l.background ++ [f] }, none))
    ∨ (8 ≤ l.background.length ∧ ∃ fs told, (∀ x ∈ fs, x ∈ l.background) ∧
        offerFrame node .background f l = ({ l with background := fs ++ [f], overflows := sat16 l.overflows }, told)) := by
  cases takes : takesOffer node f.kind with
  | false => exact .inl (offerFrame_notTaken takes)
  | true =>
    have joins := offerFrame_joins (cls := .background) (l := l) takes (.inr (oddSequence_plain (by rw [kind]; decide)))
      (.inl (by rw [kind]; rfl))
    by_cases room : l.background.length < 8
    · exact .inr (.inl ⟨room, joins.trans (joinClass_room room)⟩)
    · have ne : classOf l .background ≠ [] := by
        intro none
        rw [show l.background = [] from none] at room
        exact room (by decide)
      obtain ⟨before, g, rest, split, -, -, dropped⟩ := dropFirst_eq l.onWire ne
      refine .inr (.inr ⟨Nat.le_of_not_lt room, before ++ rest, g.reply, fun x mem => ?_,
        joins.trans (joinClass_full (Nat.le_of_not_lt room) dropped)⟩)
      rw [show l.background = before ++ g :: rest from split]
      rcases List.mem_append.1 mem with early | late
      · exact List.mem_append_left _ early
      · exact List.mem_append_right _ (List.mem_cons_of_mem g late)

theorem replyOffer_moved (node : NodeState) (f : TxFrame) (kind : f.kind = .statsReply) (fresh : f.current = false) (l : LinkUnit) :
    BackgroundMoved l (offerFrame node .background f l).1 := by
  obtain e | ⟨-, e⟩ | ⟨-, fs, told, sub, e⟩ := replyOffer_cases node f kind l <;> rw [e]
  · exact .refl l
  · refine ⟨rfl, fun free x mem => ?_⟩
    rcases List.mem_append.1 mem with old | new
    · exact free x old
    · rw [List.mem_singleton.1 new]
      exact fresh
  · refine ⟨rfl, fun free x mem => ?_⟩
    rcases List.mem_append.1 mem with old | new
    · exact free x (sub x old)
    · rw [List.mem_singleton.1 new]
      exact fresh

theorem setReply_link (s : State) (o : ReplyOwner) (r : Option ListReply) : (s.setReply o r).link = s.link := by
  cases o <;> rfl

theorem deliver_moved : ∀ (fuel : Nat) (o : ReplyOwner) (s : State), BackgroundMoved s.link (deliver fuel o s).link
  | 0, _, s => .refl s.link
  | fuel + 1, o, s => by
    match reply : s.replyOf o with
    | none =>
      rw [deliver_none reply]
      exact .refl s.link
    | some ⟨dst, []⟩ =>
      rw [deliver_ends reply, setReply_link]
      exact .refl s.link
    | some ⟨dst, n :: rest⟩ =>
      obtain ⟨⟨l, told⟩, offered⟩ : ∃ r, offerFrame s.cfg.node .background (nextFrame s o dst n) s.link = r := ⟨_, rfl⟩
      have moved := replyOffer_moved s.cfg.node (nextFrame s o dst n) rfl rfl s.link
      rw [offered] at moved
      rw [deliver_next reply offered]
      cases told with
      | none => exact moved
      | some o' => exact moved.trans (deliver_moved fuel o' (offeredNext s o dst rest l))

theorem report_moved (s : State) (o : Option ReplyOwner) : BackgroundMoved s.link (s.report o).link := by
  cases o with
  | none => exact .refl s.link
  | some o => exact deliver_moved _ o s

theorem reports_moved : ∀ (os : List ReplyOwner) (s : State), BackgroundMoved s.link (s.reports os).link
  | [], s => .refl s.link
  | o :: os, s => (report_moved s (some o)).trans (reports_moved os (s.report (some o)))

/-- With room a report adds a frame at most, behind the others. -/
theorem report_adds (room : s.link.background.length < 8) (o : Option ReplyOwner) :
    ∃ added, added.length ≤ 1 ∧ (s.report o).link.background = s.link.background ++ added := by
  match o with
  | none => exact ⟨[], Nat.zero_le _, (List.append_nil _).symm⟩
  | some o =>
    match reply : s.replyOf o with
    | none => exact ⟨[], Nat.zero_le _, by rw [show s.report (some o) = deliver 64 o s from rfl, deliver_none reply, List.append_nil]⟩
    | some ⟨dst, []⟩ =>
      exact ⟨[], Nat.zero_le _, by
        rw [show s.report (some o) = deliver 64 o s from rfl, deliver_ends reply, setReply_link, List.append_nil]⟩
    | some ⟨dst, n :: rest⟩ =>
      obtain e | ⟨-, e⟩ | ⟨full, -⟩ := replyOffer_cases s.cfg.node (nextFrame s o dst n) rfl s.link
      · exact ⟨[], Nat.zero_le _, by
          rw [show s.report (some o) = deliver 64 o s from rfl, deliver_next reply e, List.append_nil]; rfl⟩
      · exact ⟨[nextFrame s o dst n], Nat.le_refl _, by
          rw [show s.report (some o) = deliver 64 o s from rfl, deliver_next reply e]; rfl⟩
      · omega

theorem reports_add : ∀ (os : List ReplyOwner) {s : State}, s.link.background.length + os.length ≤ 8 →
    ∃ added, (s.reports os).link.background = s.link.background ++ added
  | [], s, _ => ⟨[], (List.append_nil _).symm⟩
  | o :: os, s, room => by
    obtain ⟨one, few, first⟩ := report_adds (s := s) (by rw [List.length_cons] at room; omega) (some o)
    obtain ⟨more, later⟩ := reports_add os (s := s.report (some o)) (by
      rw [first, List.length_append]
      rw [List.length_cons] at room
      omega)
    exact ⟨one ++ more, by rw [← List.append_assoc, ← first, ← later]; rfl⟩

end Sys2Proof.Laws
end

section
/-! The selection of a frame, the count of a failure and the judgement of the current frame (R182 to R184). -/

namespace Sys2Proof.Laws

open Sys2Proof.Machine Relation

-- Many short proofs at once would each hold a thread of the checking process.
set_option Elab.async false

variable {s t : State} {l l' : LinkUnit} {cls : TxClass} {f g : TxFrame} {fs : List TxFrame} {node : NodeState} {now : Ms}

/-! ## Discards by age -/

/-- The frames of a class that its age limit leaves (R182). -/
def youngOf (now : Ms) (l : LinkUnit) (cls : TxClass) : List TxFrame :=
  (classOf l cls).filter fun f => elapsed now f.queued ≤ ageLimit cls

/-- The frames of a class past its age limit (R182). -/
def oldOf (now : Ms) (l : LinkUnit) (cls : TxClass) : List TxFrame :=
  (classOf l cls).filter fun f => ageLimit cls < elapsed now f.queued

theorem oldOf_length (now : Ms) (l : LinkUnit) (cls : TxClass) :
    (oldOf now l cls).length = (classOf l cls).length - (youngOf now l cls).length := by
  have split := List.length_eq_length_filter_add (l := classOf l cls) (fun f => decide (elapsed now f.queued ≤ ageLimit cls))
  have old : oldOf now l cls = (classOf l cls).filter fun f => !decide (elapsed now f.queued ≤ ageLimit cls) :=
    List.filter_congr fun f _ => by rw [← decide_not]; exact decide_eq_decide.2 (Nat.not_le).symm
  rw [old]
  unfold youngOf
  omega

/-- A class with no current frame loses its old frames (R182). -/
theorem ageClass_eq (idle : ∀ f ∈ classOf l cls, f.current = false) : ageClass now cls l =
    (setClass { l with ageDiscards := satAdd 65535 l.ageDiscards (oldOf now l cls).length } cls (youngOf now l cls),
      (oldOf now l cls).filterMap (·.reply)) := by
  have old : (classOf l cls).filter (fun f => !f.current && tooOld now cls f) = oldOf now l cls :=
    List.filter_congr fun f mem => by rw [idle f mem]; rfl
  have young : (classOf l cls).filter (fun f => f.current || !tooOld now cls f) = youngOf now l cls :=
    List.filter_congr fun f mem => by
      rw [idle f mem, Bool.false_or]
      unfold tooOld
      rw [← decide_not]
      exact decide_eq_decide.2 Nat.not_lt
  unfold ageClass
  dsimp only
  rw [old, young]

/-- LINK with the old frames of every class discarded. -/
def aged (now : Ms) (l : LinkUnit) : LinkUnit := { l with
  urgent := youngOf now l .urgent, normal := youngOf now l .normal, background := youngOf now l .background
  thinning := (setClass l .normal (youngOf now l .normal)).thinning
  ageDiscards := min 65535 (l.ageDiscards
    + ((oldOf now l .urgent).length + (oldOf now l .normal).length + (oldOf now l .background).length)) }

/-- The frames that a selection discards, by the classes' ranks (R182; log 57). -/
def discarded (now : Ms) (l : LinkUnit) : List TxFrame := oldOf now l .urgent ++ oldOf now l .normal ++ oldOf now l .background

theorem ageAll_eq (idle : currentFrame l = none) : ageAll now l = (aged now l, (discarded now l).filterMap (·.reply)) := by
  have free := none_current idle
  have urgent := ageClass_eq (now := now) (cls := .urgent) (l := l) (free .urgent)
  obtain ⟨a, ha⟩ : ∃ a, a = (ageClass now .urgent l).1 := ⟨_, rfl⟩
  have normal := ageClass_eq (now := now) (cls := .normal) (l := a) (by
    rw [ha, urgent]
    exact free .normal)
  obtain ⟨b, hb⟩ : ∃ b, b = (ageClass now .normal a).1 := ⟨_, rfl⟩
  have background := ageClass_eq (now := now) (cls := .background) (l := b) (by
    rw [hb, normal, ha, urgent]
    exact free .background)
  have normalClass : classOf a .normal = classOf l .normal := by rw [ha, urgent]; rfl
  have backgroundClass : classOf b .background = classOf l .background := by rw [hb, normal, ha, urgent]; rfl
  have oldNormal : oldOf now a .normal = oldOf now l .normal := by unfold oldOf; rw [normalClass]
  have youngNormal : youngOf now a .normal = youngOf now l .normal := by unfold youngOf; rw [normalClass]
  have oldBackground : oldOf now b .background = oldOf now l .background := by unfold oldOf; rw [backgroundClass]
  have youngBackground : youngOf now b .background = youngOf now l .background := by unfold youngOf; rw [backgroundClass]
  rw [oldNormal, youngNormal] at normal
  rw [oldBackground, youngBackground] at background
  unfold ageAll
  dsimp only
  rw [← ha, ← hb, background, hb, normal, ha, urgent]
  unfold discarded
  rw [List.filterMap_append, List.filterMap_append]
  refine Prod.ext ?_ rfl
  show _ = aged now l
  unfold aged
  have count : satAdd 65535 (satAdd 65535 (satAdd 65535 l.ageDiscards (oldOf now l .urgent).length) (oldOf now l .normal).length)
      (oldOf now l .background).length = min 65535 (l.ageDiscards
        + ((oldOf now l .urgent).length + (oldOf now l .normal).length + (oldOf now l .background).length)) := by
    unfold satAdd
    omega
  rw [← count]
  rfl

/-! ## The choice -/

theorem selectable_urgent (h : l.urgent = f :: fs) : selectable node l .urgent = true := by
  unfold selectable
  rw [h]
  rfl

theorem choose_urgent (h : l.urgent = f :: fs) :
    startAttempt (chooseFrame node l) = { l with urgent := { f with current := true } :: fs, onWire := true, probe := false } := by
  have chosen : chooseFrame node l = { l with urgent := { f with current := true } :: fs } := by
    unfold chooseFrame
    rw [if_pos (selectable_urgent h), h]
    rfl
  rw [chosen]
  rfl

theorem choose_normal (urgent : l.urgent = []) (h : l.normal = f :: fs) : startAttempt (chooseFrame node l) =
    { setClass l .normal ({ f with current := true } :: fs) with onWire := true, probe := false } := by
  have chosen : chooseFrame node l = setClass l .normal ({ f with current := true } :: fs) := by
    unfold chooseFrame selectable
    simp only [urgent, h]
    rfl
  have current : currentFrame (setClass l .normal ({ f with current := true } :: fs)) = some (.normal, { f with current := true }) :=
    currentFrame_iff.2 ⟨rfl, fun _ => (congrArg (List.find? (·.current)) urgent).trans rfl, fun no => by cases no⟩
  rw [chosen]
  unfold startAttempt
  rw [current]
  rfl

theorem choose_background (urgent : l.urgent = []) (normal : l.normal = []) (h : l.background = f :: fs)
    (well : node = .run → l.state = .active) : startAttempt (chooseFrame node l) =
      { l with background := { f with current := true } :: fs, onWire := true, probe := false } := by
  have free : (node == .run && l.state != .active) = false := by
    by_cases run : node = .run
    · rw [well run]
      cases node <;> rfl
    · rw [show (node == NodeState.run) = false by simpa using run]
      rfl
  have chosen : chooseFrame node l = setClass l .background ({ f with current := true } :: fs) := by
    unfold chooseFrame selectable
    simp only [urgent, normal, h, free]
    rfl
  have current : currentFrame (setClass l .background ({ f with current := true } :: fs))
      = some (.background, { f with current := true }) :=
    currentFrame_iff.2 ⟨rfl, fun _ => (congrArg (List.find? (·.current)) urgent).trans rfl,
      fun _ => (congrArg (List.find? (·.current)) normal).trans rfl⟩
  rw [chosen]
  unfold startAttempt
  rw [current]
  rfl

theorem startAttempt_none (h : currentFrame l = none) : startAttempt l = l := by
  unfold startAttempt
  rw [h]
  rfl

theorem choose_nothing (urgent : l.urgent = []) (normal : l.normal = [])
    (h : l.background = [] ∨ node = .run ∧ l.state ≠ .active) (idle : ∀ f ∈ l.background, f.current = false) :
    startAttempt (chooseFrame node l) = l := by
  have none : selectable node l .background = false := by
    unfold selectable
    rcases h with empty | ⟨run, ill⟩
    · rw [empty]
      rfl
    · rw [show (node == NodeState.run) = true by simpa using run, show (l.state != LinkState.active) = true by simpa using ill]
      exact Bool.and_false _
  have chosen : chooseFrame node l = l := by
    have noUrgent : selectable node l .urgent = false := by unfold selectable; rw [urgent]; rfl
    have noNormal : selectable node l .normal = false := by unfold selectable; rw [normal]; rfl
    unfold chooseFrame
    rw [none, noUrgent, noNormal]
    rfl
  rw [chosen]
  refine startAttempt_none (no_current fun c => ?_)
  cases c
  · rw [show classOf l .urgent = [] from urgent]
    exact fun _ mem => (nomatch mem)
  · rw [show classOf l .normal = [] from normal]
    exact fun _ mem => (nomatch mem)
  · exact idle

theorem anySelectable_iff (node : NodeState) (l : LinkUnit) : anySelectable node l = true ↔
    l.urgent ≠ [] ∨ l.normal ≠ [] ∨ l.background ≠ [] ∧ (node = .run → l.state = .active) := by
  have nonempty : ∀ fs : List TxFrame, (!fs.isEmpty) = true ↔ fs ≠ [] := fun fs => by cases fs <;> simp
  unfold anySelectable selectable
  rw [Bool.or_eq_true, Bool.or_eq_true, nonempty, nonempty, Bool.and_eq_true, nonempty, or_assoc]
  simp [imp_iff_not_or]

/-! ## A selection -/

/-- The state after the discards of a selection, before the reports. -/
def discards (s : State) : State := { s with link := aged s.now s.link }

/-- The state after the discards and their reports (log 57). -/
def selecting (s : State) : State := (discards s).reports ((discarded s.now s.link).filterMap (·.reply))

theorem attempt_selects (idle : currentFrame s.link = none) (some : anySelectable s.cfg.node s.link = true) :
    s.attempt = { selecting s with link := startAttempt (chooseFrame s.cfg.node (selecting s).link) } := by
  unfold State.attempt State.select
  rw [idle, some]
  simp only [Option.isSome_none, Bool.not_true, Bool.or_self, Bool.false_eq_true, if_false]
  rw [ageAll_eq idle]
  rfl

theorem attempt_idle (h : currentFrame s.link ≠ none ∨ anySelectable s.cfg.node s.link = false) :
    s.attempt = { s with link := startAttempt s.link } := by
  have stands : s.select = s := by
    refine if_pos ?_
    rw [Bool.or_eq_true]
    rcases h with current | none
    · exact .inl (Option.ne_none_iff_isSome.1 current)
    · exact .inr (by rw [none]; rfl)
  unfold State.attempt
  rw [stands]
  rfl

theorem reports_foldl : ∀ (fs : List TxFrame) (s : State),
    s.reports (fs.filterMap (·.reply)) = fs.foldl (fun (v : State) f => v.report f.reply) s
  | [], _ => rfl
  | f :: fs, s => by
    rw [List.foldl_cons]
    cases reply : f.reply with
    | none =>
      rw [List.filterMap_cons_none reply]
      exact reports_foldl fs s
    | some o =>
      rw [List.filterMap_cons_some reply]
      exact reports_foldl fs (s.report (some o))

theorem selecting_touches (s : State) : Touches replyBlocks s (selecting s) :=
  (withLink_touches s _).trans (reports_touches _ _)

theorem selecting_moved (s : State) : BackgroundMoved (aged s.now s.link) (selecting s).link := by
  unfold selecting
  exact reports_moved _ (discards s)

/-! ## A failure counted -/

/-- LINK with a failure counted. -/
def failureCounted (l : LinkUnit) : LinkUnit :=
  { l with failures := min 65535 (l.failures + 1), failedAttempts := min 65535 (l.failedAttempts + 1) }

theorem countFailure_eq (now : Ms) (l : LinkUnit) : countFailure now l =
    if l.state = .silent ∨ 64 ≤ l.failures + 1 then
      { failureCounted l with state := .silent, silentHold := some (after now 1000), probe := false }
    else if 16 ≤ l.failures + 1 then { failureCounted l with state := .suspect } else failureCounted l := by
  have many : ∀ n, n ≤ 65535 → (n ≤ sat16 l.failures ↔ n ≤ l.failures + 1) := fun n low => by
    unfold sat16 satAdd
    omega
  have silent : (l.state == LinkState.silent || decide (64 ≤ sat16 l.failures)) = true ↔ l.state = .silent ∨ 64 ≤ l.failures + 1 := by
    rw [Bool.or_eq_true, beq_iff_eq, decide_eq_true_iff, many 64 (by decide)]
  unfold countFailure
  dsimp only
  exact if_congr silent rfl (if_congr (many 16 (by decide)) rfl rfl)

theorem countFailure_facts (now : Ms) (l : LinkUnit) : (countFailure now l).failures = min 65535 (l.failures + 1)
    ∧ (countFailure now l).failedAttempts = min 65535 (l.failedAttempts + 1)
    ∧ (l.state = .active → l.failures + 1 < 16 → (countFailure now l).state = .active)
    ∧ (l.state ≠ .silent → 16 ≤ l.failures + 1 → l.failures + 1 < 64 → (countFailure now l).state = .suspect)
    ∧ ((l.state = .silent ∨ 64 ≤ l.failures + 1) → (countFailure now l).state = .silent
        ∧ (countFailure now l).silentHold = some (after now 1000))
    ∧ countFailure now l = { l with
        failures := min 65535 (l.failures + 1), failedAttempts := min 65535 (l.failedAttempts + 1)
        state := (countFailure now l).state, silentHold := (countFailure now l).silentHold, probe := (countFailure now l).probe } := by
  rw [countFailure_eq]
  by_cases quiet : l.state = .silent ∨ 64 ≤ l.failures + 1
  · rw [if_pos quiet]
    refine ⟨rfl, rfl, fun active few => ?_, fun other _ few => ?_, fun _ => ⟨rfl, rfl⟩, rfl⟩
    · rcases quiet with silent | many
      · exact absurd (active.symm.trans silent) (by decide)
      · omega
    · rcases quiet with silent | many
      · exact absurd silent other
      · omega
  · rw [if_neg quiet]
    by_cases many : 16 ≤ l.failures + 1
    · rw [if_pos many]
      exact ⟨rfl, rfl, fun _ few => absurd many (by omega), fun _ _ _ => rfl, fun no => absurd no quiet, rfl⟩
    · rw [if_neg many]
      exact ⟨rfl, rfl, fun active _ => active, fun _ no => absurd no many, fun no => absurd no quiet, rfl⟩

/-! ## The judgement -/

theorem judgeCurrent_none (h : currentFrame s.link = none) : s.judgeCurrent = s := by
  unfold State.judgeCurrent ageCurrent
  rw [h]
  rfl

theorem judgeCurrent_young (h : currentFrame s.link = some (cls, f)) (young : elapsed s.now f.queued ≤ ageLimit cls) :
    s.judgeCurrent = s := by
  have stays : tooOld s.now cls f = false := decide_eq_false (Nat.not_lt.2 young)
  unfold State.judgeCurrent ageCurrent
  rw [h]
  dsimp only
  rw [stays]
  rfl

/-- LINK with the current frame discarded by age (R182). -/
def currentAged (l : LinkUnit) (cls : TxClass) : LinkUnit :=
  setClass { l with ageDiscards := min 65535 (l.ageDiscards + 1) } cls (settleCurrent none (classOf l cls))

theorem judgeCurrent_old (h : currentFrame s.link = some (cls, f)) (old : ageLimit cls < elapsed s.now f.queued) :
    s.judgeCurrent = State.report { s with link := currentAged s.link cls } f.reply := by
  have leaves : tooOld s.now cls f = true := decide_eq_true old
  unfold State.judgeCurrent ageCurrent
  rw [h]
  dsimp only
  rw [leaves]
  rfl

theorem judgeCurrent_facts (s : State) : (currentFrame s.link = none → s.judgeCurrent = s)
    ∧ ∀ x, currentFrame s.link = some x → (elapsed s.now x.2.queued ≤ ageLimit x.1 → s.judgeCurrent = s)
      ∧ (ageLimit x.1 < elapsed s.now x.2.queued → ∃ u : State, u = { s with link := u.link }
          ∧ GivesPlace s.link u.link x.1 x.2 []
          ∧ u.link = { s.link with
              urgent := u.link.urgent, normal := u.link.normal, background := u.link.background
              thinning := u.link.thinning, ageDiscards := min 65535 (s.link.ageDiscards + 1) }
          ∧ s.judgeCurrent = u.report x.2.reply) := by
  refine ⟨judgeCurrent_none, fun ⟨cls, f⟩ h => ⟨judgeCurrent_young h, fun old => ?_⟩⟩
  refine ⟨{ s with link := currentAged s.link cls }, rfl, ?_, ?_, judgeCurrent_old h old⟩
  · exact settled_givesPlace h none fun c => by cases c <;> rfl
  · exact setClass_eq { s.link with ageDiscards := min 65535 (s.link.ageDiscards + 1) } cls _

/-- What a judgement leaves of LINK (R182). -/
theorem judgeCurrent_link (s : State) : s.judgeCurrent.link.state = s.link.state ∧ s.judgeCurrent.link.failures = s.link.failures
    ∧ s.judgeCurrent.link.failedAttempts = s.link.failedAttempts ∧ s.judgeCurrent.link.silentHold = s.link.silentHold
    ∧ s.judgeCurrent.link.onWire = s.link.onWire ∧ s.judgeCurrent.link.probe = s.link.probe := by
  match h : currentFrame s.link with
  | none =>
    rw [judgeCurrent_none h]
    exact ⟨rfl, rfl, rfl, rfl, rfl, rfl⟩
  | some (cls, f) =>
    by_cases young : elapsed s.now f.queued ≤ ageLimit cls
    · rw [judgeCurrent_young h young]
      exact ⟨rfl, rfl, rfl, rfl, rfl, rfl⟩
    · rw [judgeCurrent_old h (Nat.lt_of_not_le young)]
      have moved := (report_moved { s with link := currentAged s.link cls } f.reply).frame
      rw [moved]
      unfold currentAged
      dsimp only
      rw [setClass_eq]
      exact ⟨rfl, rfl, rfl, rfl, rfl, rfl⟩

theorem judgeCurrent_touches (s : State) : Touches replyBlocks s s.judgeCurrent :=
  (withLink_touches s _).trans (report_touches _ _)

end Sys2Proof.Laws
end

section
/-! The outcomes of a transmit attempt (R152, R179 to R184). -/

namespace Sys2Proof.Laws

open Sys2Proof.Machine Relation

-- Many short proofs at once would each hold a thread of the checking process.
set_option Elab.async false

variable {s t u : State} {l l' : LinkUnit} {cls : TxClass} {f g : TxFrame} {fs : List TxFrame}

/-! ## The start of an attempt -/

theorem transmitAttemptStart_may (may : s.mayAttempt = true) : exec .transmitAttemptStart s = .next s.attempt := by
  show execTransmitAttemptStart s = _
  unfold execTransmitAttemptStart
  rw [may]
  rfl

theorem mayAttempt_iff (s : State) : s.mayAttempt = true ↔
    (s.cfg.node = .configFault ∨ s.cfg.node = .run ∨ s.cfg.node = .store ∨ s.cfg.node = .quiet)
      ∧ s.link.onWire = false ∧ (s.link.state = .silent → s.link.probe = true) := by
  have node : attemptsIn s.cfg.node = true ↔
      s.cfg.node = .configFault ∨ s.cfg.node = .run ∨ s.cfg.node = .store ∨ s.cfg.node = .quiet := by
    cases s.cfg.node <;> decide
  unfold State.mayAttempt
  rw [Bool.and_eq_true, Bool.and_eq_true, Bool.or_eq_true, node, Bool.not_eq_true', bne_iff_ne, and_assoc, ← imp_iff_not_or]

/-- What a selection chooses, from what the reports have left (R182). -/
theorem selected_facts (idle : currentFrame s.link = none) {w : State} (hw : w = selecting s) {x : LinkUnit}
    (hx : x = startAttempt (chooseFrame s.cfg.node w.link)) :
    w.link.urgent = youngOf s.now s.link .urgent ∧ w.link.normal = youngOf s.now s.link .normal
      ∧ x.ageDiscards = (aged s.now s.link).ageDiscards
      ∧ (∀ f fs, youngOf s.now s.link .urgent = f :: fs →
          x = { w.link with urgent := { f with current := true } :: fs, onWire := true, probe := false })
      ∧ (∀ f fs, youngOf s.now s.link .urgent = [] → youngOf s.now s.link .normal = f :: fs → x = { w.link with
          normal := { f with current := true } :: fs, thinning := x.thinning, onWire := true, probe := false })
      ∧ (∀ f fs, youngOf s.now s.link .urgent = [] → youngOf s.now s.link .normal = [] → w.link.background = f :: fs →
          (s.cfg.node = .run → s.link.state = .active) →
          x = { w.link with background := { f with current := true } :: fs, onWire := true, probe := false })
      ∧ (youngOf s.now s.link .urgent = [] → youngOf s.now s.link .normal = [] →
          (w.link.background = [] ∨ s.cfg.node = .run ∧ s.link.state ≠ .active) → x = w.link) := by
  have moved := selecting_moved s
  rw [← hw] at moved
  have urgent : w.link.urgent = youngOf s.now s.link .urgent := by rw [moved.frame]; rfl
  have normal : w.link.normal = youngOf s.now s.link .normal := by rw [moved.frame]; rfl
  have state : w.link.state = s.link.state := by rw [moved.frame]; rfl
  have discards : w.link.ageDiscards = (aged s.now s.link).ageDiscards := moved.health.ageDiscards
  have fresh : ∀ f ∈ w.link.background, f.current = false :=
    moved.fresh fun f mem => none_current idle .background f (List.mem_of_mem_filter mem)
  have first : ∀ f fs, youngOf s.now s.link .urgent = f :: fs →
      x = { w.link with urgent := { f with current := true } :: fs, onWire := true, probe := false } :=
    fun f fs h => by rw [hx, choose_urgent (urgent.trans h)]
  have second : ∀ f fs, youngOf s.now s.link .urgent = [] → youngOf s.now s.link .normal = f :: fs → x = { w.link with
      normal := { f with current := true } :: fs, thinning := x.thinning, onWire := true, probe := false } :=
    fun f fs none h => by rw [hx, choose_normal (urgent.trans none) (normal.trans h)]; rfl
  have third : ∀ f fs, youngOf s.now s.link .urgent = [] → youngOf s.now s.link .normal = [] → w.link.background = f :: fs →
      (s.cfg.node = .run → s.link.state = .active) →
      x = { w.link with background := { f with current := true } :: fs, onWire := true, probe := false } :=
    fun f fs noUrgent noNormal h well => by
      rw [hx, choose_background (urgent.trans noUrgent) (normal.trans noNormal) h fun run => state.trans (well run)]
  have nothing : youngOf s.now s.link .urgent = [] → youngOf s.now s.link .normal = [] →
      (w.link.background = [] ∨ s.cfg.node = .run ∧ s.link.state ≠ .active) → x = w.link :=
    fun noUrgent noNormal h => by
      rw [hx, choose_nothing (urgent.trans noUrgent) (normal.trans noNormal) (by rw [state]; exact h) fresh]
  refine ⟨urgent, normal, ?_, first, second, third, nothing⟩
  rw [← discards]
  cases hu : youngOf s.now s.link .urgent with
  | cons f fs => rw [first f fs hu]
  | nil =>
    cases hn : youngOf s.now s.link .normal with
    | cons f fs => rw [second f fs hu hn]
    | nil =>
      by_cases well : s.cfg.node = .run → s.link.state = .active
      · cases hb : w.link.background with
        | cons f fs => rw [third f fs hu hn hb well]
        | nil => rw [nothing hu hn (.inl hb)]
      · rw [nothing hu hn (.inr (by simpa using well))]

/-- Where only frames of BACKGROUND belong to replies, its head stays the head while the discards are reported (R182). -/
theorem selecting_background (plain : ∀ g ∈ s.link.urgent ++ s.link.normal, g.reply = none) (bound : s.link.background.length ≤ 8)
    (h : youngOf s.now s.link .background = f :: fs) : ∃ more, (selecting s).link.background = f :: more := by
  have silent : ∀ {gs : List TxFrame}, (∀ g ∈ gs, g.reply = none) → gs.filterMap (·.reply) = [] := fun none =>
    List.filterMap_eq_nil_iff.2 none
  have told : (discarded s.now s.link).filterMap (·.reply) = (oldOf s.now s.link .background).filterMap (·.reply) := by
    unfold discarded
    rw [List.filterMap_append, List.filterMap_append,
      silent (gs := oldOf s.now s.link .urgent) fun g mem => plain g (List.mem_append_left _ (List.mem_of_mem_filter mem)),
      silent (gs := oldOf s.now s.link .normal) fun g mem => plain g (List.mem_append_right _ (List.mem_of_mem_filter mem))]
    rfl
  have few := List.length_filterMap_le (·.reply) (oldOf s.now s.link .background)
  have count := oldOf_length s.now s.link .background
  have less : (youngOf s.now s.link .background).length ≤ s.link.background.length := List.length_filter_le _ _
  obtain ⟨added, grown⟩ := reports_add ((oldOf s.now s.link .background).filterMap (·.reply)) (s := discards s) (by
    show (youngOf s.now s.link .background).length + _ ≤ 8
    rw [show classOf s.link .background = s.link.background from rfl] at count
    omega)
  refine ⟨fs ++ added, ?_⟩
  unfold selecting
  rw [told, grown]
  show youngOf s.now s.link .background ++ added = _
  rw [h]
  rfl

/-- The third clause of O48: a selection (R182). -/
theorem transmitAttemptStart_selects (s : State) (us ns bs : List TxFrame) (n : Nat) (may : s.mayAttempt = true)
    (idle : currentFrame s.link = none) (chance : anySelectable s.cfg.node s.link = true)
    (hu : us = youngOf s.now s.link .urgent) (hn : ns = youngOf s.now s.link .normal) (hb : bs = youngOf s.now s.link .background)
    (count : n = (s.link.urgent.length - us.length) + (s.link.normal.length - ns.length)
      + (s.link.background.length - bs.length)) :
    ∃ t, exec .transmitAttemptStart s = .next t ∧ t.link.ageDiscards = min 65535 (s.link.ageDiscards + n)
      ∧ t = { s with stmReply := t.stmReply, rule := t.rule, svc := t.svc, link := t.link }
      ∧ (n = 0 → t = { s with link := t.link })
      ∧ (∀ f fs, us = f :: fs → t.link.onWire = true ∧ t.link.urgent = { f with current := true } :: fs ∧ t.link.normal = ns)
      ∧ (∀ f fs, us = [] → ns = f :: fs → t.link.onWire = true ∧ t.link.urgent = []
          ∧ t.link.normal = { f with current := true } :: fs)
      ∧ (∀ f fs, us = [] → ns = [] → bs = f :: fs → (∀ g ∈ s.link.urgent ++ s.link.normal, g.reply = none) →
          s.link.background.length ≤ 8 → t.link.urgent = [] ∧ t.link.normal = []
          ∧ (s.cfg.node = .run → s.link.state ≠ .active → t.link.onWire = false ∧ currentFrame t.link = none)
          ∧ (s.cfg.node ≠ .run ∨ s.link.state = .active →
              t.link.onWire = true ∧ currentFrame t.link = some (.background, { f with current := true })))
      ∧ ∃ u w : State, u = { s with link := u.link }
        ∧ u.link = { s.link with
            urgent := us, normal := ns, background := bs, thinning := u.link.thinning, ageDiscards := t.link.ageDiscards }
        ∧ w = (discarded s.now s.link).foldl (fun (v : State) f => v.report f.reply) u
        ∧ w.link.urgent = us ∧ w.link.normal = ns ∧ t = { w with link := t.link }
        ∧ (∀ f fs, us = f :: fs → t.link =
            { w.link with urgent := { f with current := true } :: fs, onWire := true, probe := false })
        ∧ (∀ f fs, us = [] → ns = f :: fs → t.link =
            { w.link with
              normal := { f with current := true } :: fs, thinning := t.link.thinning, onWire := true, probe := false })
        ∧ (∀ f fs, us = [] → ns = [] → w.link.background = f :: fs → (s.cfg.node = .run → s.link.state = .active) →
            t.link = { w.link with background := { f with current := true } :: fs, onWire := true, probe := false })
        ∧ (us = [] → ns = [] → (w.link.background = [] ∨ s.cfg.node = .run ∧ s.link.state ≠ .active) → t = w) := by
  obtain ⟨-, off, -⟩ := (mayAttempt_iff s).1 may
  obtain ⟨w, hw⟩ : ∃ w, w = selecting s := ⟨_, rfl⟩
  obtain ⟨x, hx⟩ : ∃ x, x = startAttempt (chooseFrame s.cfg.node w.link) := ⟨_, rfl⟩
  obtain ⟨urgent, normal, discards, first, second, third, nothing⟩ := selected_facts idle hw hx
  rw [← hu] at urgent first second third nothing
  rw [← hn] at normal second third nothing
  have moved := selecting_moved s
  rw [← hw] at moved
  have gone : (discarded s.now s.link).length = n := by
    unfold discarded
    rw [List.length_append, List.length_append, oldOf_length, oldOf_length, oldOf_length, count, hu, hn, hb]
    rfl
  have counted : (aged s.now s.link).ageDiscards = min 65535 (s.link.ageDiscards + n) := by
    unfold discarded at gone
    rw [List.length_append, List.length_append] at gone
    unfold aged
    rw [← gone]
  have does : exec .transmitAttemptStart s = .next { w with link := x } := by
    rw [transmitAttemptStart_may may, attempt_selects idle chance, ← hw, ← hx]
  have touched : Touches replyBlocks s w := by rw [hw]; exact selecting_touches s
  have frame : ({ w with link := x } : State) = { s with stmReply := w.stmReply, rule := w.rule, svc := w.svc, link := x } :=
    congrArg (fun v : State => { v with link := x }) (framed touched)
  refine ⟨{ w with link := x }, does, discards.trans counted, frame, fun zero => ?_, fun f fs h => ?_, fun f fs none h => ?_,
    fun f fs noUrgent noNormal h plain bound => ?_, Laws.discards s, w, rfl, ?_, ?_, urgent, normal, rfl, first, second, third,
    fun noUrgent noNormal h => ?_⟩
  · have quiet : w = Laws.discards s := by
      rw [hw]
      unfold selecting
      rw [List.eq_nil_of_length_eq_zero (gone.trans zero)]
      rfl
    rw [quiet]
    rfl
  · show x.onWire = true ∧ x.urgent = _ ∧ x.normal = ns
    rw [first f fs h]
    exact ⟨rfl, rfl, normal⟩
  · show x.onWire = true ∧ x.urgent = [] ∧ x.normal = _
    rw [second f fs none h]
    exact ⟨rfl, urgent.trans none, rfl⟩
  · obtain ⟨more, head⟩ := selecting_background plain bound (hb.symm.trans h)
    rw [← hw] at head
    show x.urgent = [] ∧ x.normal = [] ∧ (_ → _ → x.onWire = false ∧ currentFrame x = none)
      ∧ (_ → x.onWire = true ∧ currentFrame x = _)
    have noUrgentNow : w.link.urgent = [] := urgent.trans noUrgent
    have noNormalNow : w.link.normal = [] := normal.trans noNormal
    have fresh : ∀ f ∈ w.link.background, f.current = false :=
      moved.fresh fun f mem => none_current idle .background f (List.mem_of_mem_filter mem)
    by_cases well : s.cfg.node = .run → s.link.state = .active
    · rw [third f more noUrgent noNormal head well]
      refine ⟨noUrgentNow, noNormalNow, fun run ill => absurd (well run) ill, fun _ => ⟨rfl, currentFrame_iff.2 ⟨rfl, fun _ => ?_, fun _ => ?_⟩⟩⟩
      · show w.link.urgent.find? _ = none
        rw [noUrgentNow]
        rfl
      · show w.link.normal.find? _ = none
        rw [noNormalNow]
        rfl
    · have ill : s.cfg.node = .run ∧ s.link.state ≠ .active := by simpa using well
      rw [nothing noUrgent noNormal (.inr ill)]
      refine ⟨noUrgentNow, noNormalNow, fun _ _ => ⟨?_, no_current fun c => ?_⟩, fun free => ?_⟩
      · rw [moved.frame]
        exact off
      · cases c
        · rw [show classOf w.link .urgent = [] from noUrgentNow]
          exact fun _ mem => (nomatch mem)
        · rw [show classOf w.link .normal = [] from noNormalNow]
          exact fun _ mem => (nomatch mem)
        · exact fresh
      · rcases free with out | active
        · exact absurd ill.1 out
        · exact absurd active ill.2
  · show aged s.now s.link = _
    rw [hu, hn, hb]
    show aged s.now s.link = ({ s.link with
      urgent := youngOf s.now s.link .urgent, normal := youngOf s.now s.link .normal
      background := youngOf s.now s.link .background, thinning := (aged s.now s.link).thinning
      ageDiscards := x.ageDiscards } : LinkUnit)
    rw [discards]
    rfl
  · rw [hw]
    exact reports_foldl _ _
  · show { w with link := x } = w
    rw [nothing noUrgent noNormal h]

/-! ## The ends of an attempt -/

/-- LINK well again, off the wire (R183). -/
def wellAgain (l : LinkUnit) : LinkUnit :=
  { l with onWire := false, beside := none, failures := 0, state := .active, silentHold := none, probe := false }

theorem transmitSuccess_eq (on : s.link.onWire = true) : exec .transmitSuccess s = .next
    (if s.link.state = .active then State.report { s with link := (attemptSucceeded s.link).1 } (attemptSucceeded s.link).2
      else State.clearNotice (State.report { s with link := (attemptSucceeded s.link).1 } (attemptSucceeded s.link).2) 0x72) := by
  show execTransmitSuccess s = _
  unfold execTransmitSuccess
  rw [on]
  rfl

theorem attemptSucceeded_current (h : currentFrame l = some (cls, f)) : attemptSucceeded l = (setClass (wellAgain l) cls
    (settleCurrent (l.beside.map fun b => { b with current := false }) (classOf l cls)), f.reply) := by
  unfold attemptSucceeded
  rw [h]
  rfl

theorem attemptSucceeded_none (h : currentFrame l = none) : attemptSucceeded l = (wellAgain l, none) := by
  unfold attemptSucceeded
  rw [h]
  rfl

theorem attemptSucceeded_health (l : LinkUnit) : (attemptSucceeded l).1.failures = 0 ∧ (attemptSucceeded l).1.state = .active
    ∧ (attemptSucceeded l).1.failedAttempts = l.failedAttempts := by
  match h : currentFrame l with
  | none =>
    rw [attemptSucceeded_none h]
    exact ⟨rfl, rfl, rfl⟩
  | some (cls, f) =>
    rw [attemptSucceeded_current h]
    dsimp only
    rw [setClass_eq]
    exact ⟨rfl, rfl, rfl⟩

/-- The blocks of LINK's reports and of its notice. -/
def outcomeBlocks : Blocks := replyBlocks.or noticeBlocks

theorem framed_outcome (h : Touches outcomeBlocks s t) : t = { s with
    stmReply := t.stmReply, rule := t.rule, svc := t.svc, ntc := t.ntc, snd := t.snd, link := t.link } := framed h

theorem transmitSuccess_facts (on : s.link.onWire = true) : ∃ t, exec .transmitSuccess s = .next t ∧ t.link.failures = 0
    ∧ t.link.state = .active ∧ t.link.failedAttempts = s.link.failedAttempts
    ∧ t = { s with stmReply := t.stmReply, rule := t.rule, svc := t.svc, ntc := t.ntc, snd := t.snd, link := t.link } := by
  obtain ⟨v, hv⟩ : ∃ v : State, v = State.report { s with link := (attemptSucceeded s.link).1 } (attemptSucceeded s.link).2 := ⟨_, rfl⟩
  obtain ⟨failures, state, attempts⟩ := attemptSucceeded_health s.link
  have health := (report_moved { s with link := (attemptSucceeded s.link).1 } (attemptSucceeded s.link).2).health
  rw [← hv] at health
  have touched : Touches outcomeBlocks s v := by
    rw [hv]
    exact ((withLink_touches s _).trans (report_touches _ _)).mono rfl
  have cleared := noticeActs_health (clearNotice_noticeActs v 0x72)
  refine ⟨_, by rw [transmitSuccess_eq on, ← hv], ?_⟩
  split
  · exact ⟨health.failures.trans failures, health.state.trans state, health.failedAttempts.trans attempts, framed_outcome touched⟩
  · exact ⟨cleared.failures.trans (health.failures.trans failures), cleared.state.trans (health.state.trans state),
      cleared.failedAttempts.trans (health.failedAttempts.trans attempts),
      framed_outcome (touched.trans ((clearNotice_touches v 0x72).mono rfl))⟩

theorem transmitSuccess_current (on : s.link.onWire = true) (h : currentFrame s.link = some (cls, f)) :
    ∃ u : State, u = { s with link := u.link }
      ∧ GivesPlace s.link u.link cls f (s.link.beside.map fun b => { b with current := false }).toList
      ∧ u.link = { s.link with
          urgent := u.link.urgent, normal := u.link.normal, background := u.link.background, thinning := u.link.thinning
          onWire := false, beside := none, failures := 0, state := .active, silentHold := none, probe := false }
      ∧ exec .transmitSuccess s =
          .next (if s.link.state = .active then u.report f.reply else (u.report f.reply).clearNotice 0x72)
      ∧ (s.link.state = .active → f.reply = none → exec .transmitSuccess s = .next u) := by
  have succeeded := attemptSucceeded_current h
  have does : exec .transmitSuccess s = _ := transmitSuccess_eq on
  refine ⟨{ s with link := (attemptSucceeded s.link).1 }, rfl, ?_, ?_, ?_, fun active none => ?_⟩
  · rw [succeeded]
    exact settled_givesPlace h _ fun c => by cases c <;> rfl
  · show (attemptSucceeded s.link).1 = _
    rw [succeeded]
    exact setClass_eq (wellAgain s.link) cls _
  · rw [does, succeeded]
  · rw [does, if_pos active, succeeded, none]
    rfl

/-- The state after a failed attempt is counted (R183, R184). -/
def failed (s : State) : State := { s with link := countFailure s.now (attemptOver s.link) }

theorem suspect_iff (h : s.link.state = .active) : (failed s).link.state = .suspect ↔
    16 ≤ s.link.failures + 1 ∧ s.link.failures + 1 < 64 := by
  have ended := attemptOver_eq s.link
  have state : (attemptOver s.link).state = .active := by rw [ended]; exact h
  have failures : (attemptOver s.link).failures = s.link.failures := by rw [ended]
  obtain ⟨-, -, active, suspect, silent, -⟩ := countFailure_facts s.now (attemptOver s.link)
  rw [failures, state] at active suspect silent
  show (countFailure s.now (attemptOver s.link)).state = .suspect ↔ _
  constructor
  · intro h
    by_contra no
    rcases Nat.lt_or_ge (s.link.failures + 1) 16 with few | more
    · exact absurd ((active rfl few).symm.trans h) (by decide)
    · exact absurd ((silent (.inr (by omega))).1.symm.trans h) (by decide)
  · exact fun ⟨low, high⟩ => suspect (by decide) low high

/-- The suspicion told, where a failure brings it (R183). -/
def failureTold (s : State) : State :=
  if s.link.state = .active ∧ 16 ≤ s.link.failures + 1 ∧ s.link.failures + 1 < 64 then
    (failed s).raiseNotice 0x72 none .linkSuspect else failed s

theorem transmitFailure_eq (on : s.link.onWire = true) : exec .transmitFailure s = .next (failureTold s).judgeCurrent := by
  have told : (if s.link.state = .active ∧ (failed s).link.state = .suspect then (failed s).raiseNotice 0x72 none .linkSuspect
      else failed s) = failureTold s := by
    unfold failureTold
    refine if_congr ⟨fun h => ⟨h.1, (suspect_iff h.1).1 h.2⟩, fun h => ⟨h.1, (suspect_iff h.1).2 h.2⟩⟩ rfl rfl
  rw [← told]
  show execTransmitFailure s = _
  unfold execTransmitFailure
  rw [on]
  rfl

theorem failureTold_acts (s : State) : NoticeActs (failed s) (failureTold s) := by
  unfold failureTold
  exact reach_ite (raiseNotice_noticeActs _ _ _ _) .refl

theorem transmitFailure_facts (on : s.link.onWire = true) : ∃ t, exec .transmitFailure s = .next t
    ∧ t.link.failures = min 65535 (s.link.failures + 1)
    ∧ t.link.failedAttempts = min 65535 (s.link.failedAttempts + 1)
    ∧ (s.link.state = .active → s.link.failures + 1 < 16 → t.link.state = .active)
    ∧ (s.link.state ≠ .silent → 16 ≤ s.link.failures + 1 → s.link.failures + 1 < 64 → t.link.state = .suspect)
    ∧ ((s.link.state = .silent ∨ 64 ≤ s.link.failures + 1) → t.link.state = .silent
        ∧ t.link.silentHold = some (after s.now 1000) ∧ t.link.onWire = false)
    ∧ t = { s with stmReply := t.stmReply, rule := t.rule, svc := t.svc, ntc := t.ntc, snd := t.snd, link := t.link }
    ∧ ∃ v u : State, v = { s with link := v.link } ∧ v.link.onWire = false ∧ v.link.beside = none
      ∧ v.link.ageDiscards = s.link.ageDiscards
      ∧ (s.link.beside = none → ∀ c, classOf v.link c = classOf s.link c)
      ∧ (∀ x h, currentFrame s.link = some x → s.link.beside = some h →
          GivesPlace s.link v.link x.1 x.2 [{ h with current := true }])
      ∧ u = (if s.link.state = .active ∧ 16 ≤ s.link.failures + 1 ∧ s.link.failures + 1 < 64 then
          v.raiseNotice 0x72 none .linkSuspect else v)
      ∧ t = u.judgeCurrent := by
  obtain ⟨v, hv⟩ : ∃ v, v = failed s := ⟨_, rfl⟩
  obtain ⟨u, hu⟩ : ∃ u, u = failureTold s := ⟨_, rfl⟩
  have ended := attemptOver_eq s.link
  have state : (attemptOver s.link).state = s.link.state := by rw [ended]
  have failures : (attemptOver s.link).failures = s.link.failures := by rw [ended]
  have attempts : (attemptOver s.link).failedAttempts = s.link.failedAttempts := by rw [ended]
  obtain ⟨count, total, active, suspect, silent, frame⟩ := countFailure_facts s.now (attemptOver s.link)
  rw [failures] at count active suspect silent
  rw [attempts] at total
  rw [state] at active suspect silent
  have link : v.link = countFailure s.now (attemptOver s.link) := by rw [hv]; rfl
  rw [← link] at count total active suspect silent frame
  have acts : NoticeActs v u := by rw [hu, hv]; exact failureTold_acts s
  have health := noticeActs_health acts
  obtain ⟨judgedState, judgedFailures, judgedAttempts, judgedHold, judgedWire, -⟩ := judgeCurrent_link u
  have classes : ∀ c, classOf v.link c = classOf (attemptOver s.link) c := fun c => by rw [frame]; cases c <;> rfl
  have off : v.link.onWire = false := by rw [frame, ended]
  have touched : Touches outcomeBlocks s u.judgeCurrent := by
    have first : Touches outcomeBlocks s v := by rw [hv]; exact (withLink_touches s _).mono rfl
    have second : Touches outcomeBlocks v u := by
      rw [hu, hv]
      unfold failureTold
      exact .ite ((raiseNotice_touches _ _ _ _).mono rfl) (.refl _ _)
    exact (first.trans second).trans ((judgeCurrent_touches u).mono rfl)
  obtain ⟨alone, held, -, -⟩ := attemptOver_facts s.link
  refine ⟨u.judgeCurrent, by rw [transmitFailure_eq on, hu], (judgedFailures.trans health.failures).trans count,
    (judgedAttempts.trans health.failedAttempts).trans total, fun was few => (judgedState.trans health.state).trans (active was few),
    fun was low high => (judgedState.trans health.state).trans (suspect was low high), fun bad => ?_, framed_outcome touched,
    v, u, by rw [hv]; rfl, off, by rw [frame, ended], by rw [frame, ended], fun none c => (classes c).trans (alone none c),
    fun x h current beside => ?_, by rw [hu, hv]; rfl, rfl⟩
  · obtain ⟨quiet, hold⟩ := silent bad
    exact ⟨(judgedState.trans health.state).trans quiet, (judgedHold.trans health.silentHold).trans hold,
      (judgedWire.trans (noticeActs_onWire acts)).trans off⟩
  · obtain ⟨before, rest, e, free, placed, others⟩ := held x h current beside
    exact ⟨before, rest, e, free, (classes x.1).trans placed, fun c other => (classes c).trans (others c other)⟩

/-- The state after a lost arbitration, before its frame is judged (R182, R184). -/
def lost (s : State) : State := { s with link := { attemptOver s.link with probe := s.link.state == .silent } }

theorem arbitrationLost_eq (on : s.link.onWire = true) : exec .arbitrationLost s = .next (lost s).judgeCurrent := by
  have state : (attemptOver s.link).state = s.link.state := by rw [attemptOver_eq]
  show execArbitrationLost s = _
  unfold execArbitrationLost
  rw [on]
  rfl

theorem arbitrationLost_facts (on : s.link.onWire = true) : ∃ t, exec .arbitrationLost s = .next t
    ∧ t.link.failures = s.link.failures ∧ t.link.state = s.link.state ∧ t.link.failedAttempts = s.link.failedAttempts
    ∧ (s.link.state = .silent → t.link.probe = true)
    ∧ (∀ x h, currentFrame s.link = some x → s.link.beside = some h → elapsed s.now h.queued ≤ ageLimit x.1 →
        currentFrame t.link = some (x.1, { h with current := true }) ∧ t.link.beside = none)
    ∧ (∀ x, currentFrame s.link = some x → s.link.beside = none → elapsed s.now x.2.queued ≤ ageLimit x.1 →
        currentFrame t.link = some x ∧ t.link.ageDiscards = s.link.ageDiscards)
    ∧ t = { s with stmReply := t.stmReply, rule := t.rule, svc := t.svc, link := t.link }
    ∧ ∃ v : State, v = { s with link := v.link } ∧ v.link.onWire = false ∧ v.link.beside = none
      ∧ v.link.ageDiscards = s.link.ageDiscards
      ∧ (s.link.beside = none → ∀ c, classOf v.link c = classOf s.link c)
      ∧ (∀ x h, currentFrame s.link = some x → s.link.beside = some h →
          GivesPlace s.link v.link x.1 x.2 [{ h with current := true }])
      ∧ t = v.judgeCurrent := by
  obtain ⟨v, hv⟩ : ∃ v, v = lost s := ⟨_, rfl⟩
  have ended := attemptOver_eq s.link
  have link : v.link = { attemptOver s.link with probe := s.link.state == .silent } := by rw [hv]; rfl
  obtain ⟨judgedState, judgedFailures, judgedAttempts, -, -, judgedProbe⟩ := judgeCurrent_link v
  have classes : ∀ c, classOf v.link c = classOf (attemptOver s.link) c := fun c => by rw [link]; cases c <;> rfl
  have now : v.now = s.now := by rw [hv]; rfl
  have beside : v.link.beside = none := by rw [link, ended]
  have discards : v.link.ageDiscards = s.link.ageDiscards := by rw [link, ended]
  have current : currentFrame v.link = currentFrame (attemptOver s.link) := currentFrame_congr classes
  obtain ⟨alone, held, placed, stays⟩ := attemptOver_facts s.link
  refine ⟨v.judgeCurrent, by rw [arbitrationLost_eq on, hv], ?_, ?_, ?_, fun silent => ?_, fun x h some others young => ?_,
    fun x some none young => ?_, ?_, v, by rw [hv]; rfl, by rw [link, ended], beside, discards,
    fun none c => (classes c).trans (alone none c), fun x h some others => ?_, rfl⟩
  · rw [judgedFailures, link, ended]
  · rw [judgedState, link, ended]
  · rw [judgedAttempts, link, ended]
  · rw [judgedProbe, link, silent]
    rfl
  · have here := current.trans (placed x h some others)
    rw [judgeCurrent_young here (by rw [now]; exact young)]
    exact ⟨here, beside⟩
  · have here := current.trans (stays x some none)
    rw [judgeCurrent_young here (by rw [now]; exact young)]
    exact ⟨here, discards⟩
  · have touched : Touches replyBlocks s v.judgeCurrent := by
      rw [hv]
      exact (withLink_touches s _).trans (judgeCurrent_touches (lost s))
    exact framed touched
  · obtain ⟨before, rest, e, free, taken, kept⟩ := held x h some others
    exact ⟨before, rest, e, free, (classes x.1).trans taken, fun c other => (classes c).trans (kept c other)⟩

/-! ## The end of the hold in SILENT -/

/-- The state at the end of the hold, its probe due (R184). -/
def holdOver (s : State) (d : Ms) : State := { s.arriveAt d with link := { s.link with silentHold := none, probe := true } }

theorem silentHoldExpiry_eq {d : Ms} (h : s.link.silentHold = some d) :
    exec .silentHoldExpiry s = exec .transmitAttemptStart (holdOver s d).judgeCurrent := by
  have due : (s.arriveAt d).onLink (fun l => { l with silentHold := none, probe := true }) = holdOver s d := by
    unfold State.onLink
    rw [arriveAt_link]
    rfl
  show execSilentHoldExpiry s = _
  unfold execSilentHoldExpiry
  rw [h]
  dsimp only
  rw [due]
  rfl

theorem silentHoldExpiry_probes {d : Ms} {x : TxClass × TxFrame} (h : s.link.silentHold = some d)
    (node : attemptsIn s.cfg.node = true) (off : s.link.onWire = false) (current : currentFrame s.link = some x)
    (young : elapsed (s.arriveAt d).now x.2.queued ≤ ageLimit x.1) : exec .silentHoldExpiry s =
      .next { s.arriveAt d with link := { s.link with silentHold := none, onWire := true, probe := false } } := by
  have here : currentFrame (holdOver s d).link = some x := current
  have may : (holdOver s d).mayAttempt = true := by
    unfold State.mayAttempt
    show (attemptsIn (s.arriveAt d).cfg.node && !s.link.onWire && (s.link.state != .silent || true)) = true
    rw [arriveAt_cfg, node, off, Bool.or_true]
    rfl
  rw [silentHoldExpiry_eq h, judgeCurrent_young here young, transmitAttemptStart_may may,
    attempt_idle (.inl (by rw [here]; exact Option.some_ne_none x))]
  unfold startAttempt
  rw [here]
  rfl

/-- Settles O48: the start of an attempt, its three ends, and the end of the hold. -/
theorem transmitOutcomes : Obligations.TransmitOutcomes := by
  refine ⟨fun s may current => ?_, fun s may none nothing => ?_,
    fun s us ns bs n may idle some hu hn hb count => transmitAttemptStart_selects s us ns bs n may idle some hu hn hb count,
    fun s barred => ?_, mayAttempt_iff, anySelectable_iff, fun s on => transmitSuccess_facts on,
    fun s cls f on h => transmitSuccess_current on h, fun s on => transmitFailure_facts on, fun s on => arbitrationLost_facts on,
    judgeCurrent_facts, rfl, fun s d h => silentHoldExpiry_eq h,
    fun s d x h node off current young => silentHoldExpiry_probes h node off current young⟩
  · rw [transmitAttemptStart_may may, attempt_idle (.inl current)]
    unfold startAttempt
    rw [if_pos (Option.ne_none_iff_isSome.1 current)]
  · rw [transmitAttemptStart_may may, attempt_idle (.inr nothing), startAttempt_none none]
  · show execTransmitAttemptStart s = _
    unfold execTransmitAttemptStart
    rw [barred]
    rfl

end Sys2Proof.Laws
end

section
/-! What the blocks tell at the entry to RUN: the stream faults that hold and the service items (R39, R144, R154). -/

namespace Sys2Proof.Laws

open Sys2Proof.Machine Relation

-- Many short proofs at once would each hold a thread of the checking process.
set_option Elab.async false

variable {s t u : State} {e : Stream}

/-! ## The stream faults -/

/-- The notice of an entry whose fault condition holds (R35, R39). -/
def faultRaised (s : State) (e : Stream) : State :=
  e.faultCause.elim s fun c => s.raiseNotice (0x20 + e.number) none (.stream c)

theorem raiseFaults_eq (s : State) : s.raiseFaults = s.streams.foldl faultRaised s := by
  unfold State.raiseFaults
  refine congrArg (fun f => List.foldl f s s.streams) (funext fun u => funext fun e => ?_)
  unfold faultRaised
  cases e.faultCause <;> rfl

theorem faultRaised_touches (s : State) (e : Stream) : Touches noticeBlocks s (faultRaised s e) := by
  unfold faultRaised
  cases e.faultCause with
  | none => exact .refl _ s
  | some c => exact raiseNotice_touches s _ _ _

theorem faultRaised_acts (s : State) (e : Stream) : NoticeActs s (faultRaised s e) := by
  unfold faultRaised
  cases e.faultCause with
  | none => exact .refl
  | some c => exact raiseNotice_noticeActs s _ _ _

theorem raiseFaults_acts (s : State) : NoticeActs s s.raiseFaults := by
  rw [raiseFaults_eq]
  exact reach_foldl faultRaised_acts _ s

theorem faultRaised_ordered (h : Ordered s.ntc) (e : Stream) : Ordered (faultRaised s e).ntc := by
  unfold faultRaised
  cases e.faultCause with
  | none => exact h
  | some c => exact raiseNotice_ordered _ _ _ h

theorem faultRaised_others (h : Ordered s.ntc) {x : NoticeRecord} (other : x.id ≠ 0x20 + e.number) :
    x ∈ cores (faultRaised s e).ntc ↔ x ∈ cores s.ntc := by
  unfold faultRaised
  cases e.faultCause with
  | none => exact Iff.rfl
  | some c => exact raiseNotice_others h _ other

/-- A stream-fault id of an entry stands in the catalogue (R155). -/
theorem catalogue_stream (image : s.image.isSome = true) (mem : e ∈ s.streams) (low : e.number < 12) :
    ∃ c route, s.catalogue (0x20 + e.number) = some (c, route) := by
  have held : s.image.isNone = false := by rw [Option.isNone_eq_false_iff]; exact image
  have same : (e.number == 0x20 + e.number - 0x20) = true := by
    rw [Nat.add_sub_cancel_left]
    exact beq_self_eq_true _
  obtain ⟨x, found⟩ := Option.isSome_iff_exists.1
    (List.find?_isSome (p := fun x : Stream => x.number == 0x20 + e.number - 0x20) |>.2 ⟨e, mem, same⟩)
  unfold State.catalogue
  rw [held, if_neg (by decide), if_neg (by omega), if_pos (by omega), found]
  exact ⟨_, _, rfl⟩

/-- A notice of an id with a detail is held. -/
def NoticeHeld (n : Ntc) (id : Nat) (d : Detail) : Prop := ∃ r ∈ n.held, r.id = id ∧ r.detail = d

theorem NoticeHeld.congr {n m : Ntc} {id : Nat} {d : Detail} (h : NoticeHeld n id d)
    (same : ∀ x : NoticeRecord, x.id = id → (x ∈ cores m ↔ x ∈ cores n)) : NoticeHeld m id d := by
  obtain ⟨r, mem, sameId, detail⟩ := h
  obtain ⟨y, hy, c⟩ := mem_cores.1 ((same (core r) sameId).2 (mem_cores.2 ⟨r, mem, rfl⟩))
  obtain ⟨yId, -, -, yDetail, -⟩ := core_eq c
  exact ⟨y, hy, yId.trans sameId, yDetail.trans detail⟩

/-- Faults raised one after another: each is held, and every id that is none of theirs is as it was (R39). -/
theorem faultsRaised_held (es : List Stream) (run : s.cfg.node = .run) (image : s.image.isSome = true) (h : Ordered s.ntc)
    (known : ∀ e ∈ es, e ∈ s.streams) (once : (es.map (·.number)).Nodup) :
    (∀ x : NoticeRecord, (∀ e ∈ es, x.id ≠ 0x20 + e.number) → (x ∈ cores (es.foldl faultRaised s).ntc ↔ x ∈ cores s.ntc))
    ∧ ∀ e ∈ es, e.number < 12 → ∀ c, e.faultCause = some c →
        NoticeHeld (es.foldl faultRaised s).ntc (0x20 + e.number) (.stream c) := by
  induction es generalizing s with
  | nil => exact ⟨fun _ _ => Iff.rfl, fun _ mem => absurd mem List.not_mem_nil⟩
  | cons e es ih =>
    have touched := faultRaised_touches s e
    obtain ⟨fresh, rest⟩ := List.nodup_cons.1 once
    have others : ∀ x ∈ es, x.number ≠ e.number := fun x mem same => fresh (List.mem_map.2 ⟨x, mem, same⟩)
    obtain ⟨kept, held⟩ := ih (s := faultRaised s e) (by rw [touched.cfg rfl]; exact run) (by rw [touched.image rfl]; exact image)
      (faultRaised_ordered h e) (by rw [touched.streams rfl]; exact fun x mem => known x (List.mem_cons_of_mem e mem)) rest
    refine ⟨fun x absent => ?_, fun x mem low c cause => ?_⟩
    · rw [List.foldl_cons, kept x fun y mem => absent y (List.mem_cons_of_mem e mem)]
      exact faultRaised_others h (absent e List.mem_cons_self)
    · rw [List.foldl_cons]
      rcases List.mem_cons.1 mem with rfl | later
      · obtain ⟨sev, route, listed⟩ := catalogue_stream image (known x List.mem_cons_self) low
        obtain ⟨r, here, id, detail, -⟩ := raiseNotice_holds (sv := none) (d := .stream c) run listed h
        have now : NoticeHeld (faultRaised s x).ntc (0x20 + x.number) (.stream c) := by
          unfold faultRaised
          rw [cause]
          exact ⟨r, here, id, detail⟩
        exact now.congr fun y sameId => kept y fun z inside same => others z inside (by omega)
      · exact held x later low c cause

/-! ## The service items -/

theorem svcEnterRun_eq (s : State) : s.svcEnterRun = (s.svc.items.map (evaluated s.svc)).foldl State.raiseItem
    (itemsFormed s fun _ => true).formDerate := by
  have formed : (s.onSvc fun v => { v with items := v.items.map (evaluated v) }) = itemsFormed s fun _ => true := rfl
  have items : (itemsFormed s fun _ => true).formDerate.svc.items = s.svc.items.map (evaluated s.svc) := by
    rw [formDerate_svc]
    rfl
  unfold State.svcEnterRun
  dsimp only
  rw [formed, items]

theorem svcEnterRun_svc (s : State) : s.svcEnterRun.svc = { s.svc with
    items := s.svc.items.map (evaluated s.svc), derate := derateOf (s.svc.items.map (evaluated s.svc)) } := by
  rw [svcEnterRun_eq, (raiseItems_touches _ _).svc rfl, formDerate_svc]
  rfl

theorem svcEnterRun_still (same : s.svcEnterRun.svc.derate = s.svc.derate) : s.svcEnterRun =
    (s.svc.items.map (evaluated s.svc)).foldl State.raiseItem (itemsFormed s fun _ => true) := by
  have kept : (itemsFormed s fun _ => true).formDerate.svc.derate = (itemsFormed s fun _ => true).svc.derate := by
    rw [← (raiseItems_touches (s.svc.items.map (evaluated s.svc)) _).svc rfl, ← svcEnterRun_eq, same]
    rfl
  rw [svcEnterRun_eq, formDerate_still kept]

theorem svcEnterRun_frame (s : State) : s.svcEnterRun = { s with
    eco := s.svcEnterRun.eco, ntc := s.svcEnterRun.ntc, snd := s.svcEnterRun.snd, link := s.svcEnterRun.link
    svc := { s.svc with items := s.svcEnterRun.svc.items, derate := s.svcEnterRun.svc.derate } } := by
  have svc : ({ s.svc with items := s.svcEnterRun.svc.items, derate := s.svcEnterRun.svc.derate } : Svc) = s.svcEnterRun.svc := by
    rw [svcEnterRun_svc]
  rw [svc]
  exact framed (svcEnterRun_touches s)

theorem svcEnterRun_target (run : s.cfg.node = .run) (changed : s.svcEnterRun.svc.derate ≠ s.svc.derate) :
    s.svcEnterRun.eco.target = s.svcEnterRun.eco.formTarget s.img.economy s.svcEnterRun.svc.derate := by
  have raised := raiseItems_touches (s.svc.items.map (evaluated s.svc)) (itemsFormed s fun _ => true).formDerate
  rw [← svcEnterRun_eq] at raised
  have formed := formDerate_target (s := itemsFormed s fun _ => true) run (by rw [← raised.svc rfl]; exact changed)
  rw [← raised.svc rfl, ← raised.eco rfl] at formed
  exact formed

theorem svcEnterRun_told (run : s.cfg.node = .run) (image : s.image.isSome = true) (h : Ordered s.ntc)
    (once : (s.svc.items.map (·.config.number)).Nodup) :
    ItemsTold s.ntc s.svcEnterRun.ntc s.svc (s.svc.items.map (evaluated s.svc)) := by
  have numbers : ((s.svc.items.map (evaluated s.svc)).map (·.config.number)).Nodup := by
    rw [List.map_map]
    exact once
  have told := formDerate_raiseItems (s := itemsFormed s fun _ => true) (s.svc.items.map (evaluated s.svc)) run image h numbers
  rw [svcEnterRun_eq]
  exact told.congr (by rw [formDerate_svc]; rfl) (by rw [formDerate_svc]; rfl) (by rw [formDerate_svc]; rfl)

/-- The entry to RUN evaluates every item and tells of each that is not OK (R144, R154). -/
theorem svcEnterRun_itemsEvaluated (s : State) :
    ItemsEvaluated s s.svcEnterRun (fun _ => true) (fun _ _ => True) := by
  have svc := svcEnterRun_svc s
  refine ⟨svcEnterRun_frame s, by rw [svc]; rfl, by rw [svc]; exact derateOf_iff _, svcEnterRun_target, fun same => ?_, fun out => ?_,
    fun now e => ⟨fun same quiet => ?_, fun run image ordered once i mem low high v _ severity => ?_⟩⟩
  · rw [svcEnterRun_still same, (raiseItems_touches _ _).eco rfl]
    rfl
  · have outside : s.inRun = false := by rw [← Bool.not_eq_true, inRun_iff]; exact out
    rw [svc, svcEnterRun_eq, formDerate_out (s := itemsFormed s fun _ => true) outside]
    exact raiseItems_out _ outside
  · have none : ∀ i ∈ s.svc.items.map (evaluated s.svc), itemSeverity i.state = none := fun i mem => by
      obtain ⟨j, inside, made⟩ := List.mem_map.1 mem
      have state : i.state = now j := by rw [← made, e]; rfl
      rw [state, quiet j inside trivial]
      rfl
    rw [svcEnterRun_still same, raiseItems_quiet _ none]
    rfl
  · have state : now i = (evaluated s.svc i).state := by rw [e]; rfl
    rw [state] at severity ⊢
    obtain ⟨r, held, id, rank, detail, new⟩ := (svcEnterRun_told run image ((noticesOrdered_iff s).1 ordered) once).held _
      (List.mem_map_of_mem mem) low high v severity
    exact ⟨r, held, id, rank, detail, new⟩

end Sys2Proof.Laws
end

section
/-! The entry to RUN: what its events leave alone, the first key and winner, the first period of each channel, and the LIMIT
STATUS that follows (R62, R78, R106, R107, R188). -/

namespace Sys2Proof.Laws

open Sys2Proof.Machine Relation

-- Many short proofs at once would each hold a thread of the checking process.
set_option Elab.async false

variable {s t u v : State} {first : Bool} {k : Key} {c : Channel}

/-! ## What no event of the entry changes -/

/-- What the events of the entry to RUN leave alone. -/
structure EntryStands (s t : State) : Prop where
  cfg : t.cfg = s.cfg
  image : t.image = s.image
  pose : t.pose = s.pose
  streams : t.streams = s.streams
  hold : t.hold = s.hold
  stmReply : t.stmReply = s.stmReply
  set : t.lim.set = s.lim.set
  limStatus : t.lim.statusTimer = s.lim.statusTimer
  request : t.eco.requestTimer = s.eco.requestTimer
  second : t.eco.secondTimer = s.eco.secondTimer
  report : t.eco.reportTimer = s.eco.reportTimer
  svcSecond : t.svc.secondTimer = s.svc.secondTimer
  svcSummary : t.svc.summaryTimer = s.svc.summaryTimer
  summary : t.ntc.summaryTimer = s.ntc.summaryTimer

theorem EntryStands.refl (s : State) : EntryStands s s := ⟨rfl, rfl, rfl, rfl, rfl, rfl, rfl, rfl, rfl, rfl, rfl, rfl, rfl, rfl⟩

theorem EntryStands.trans (h : EntryStands s t) (k : EntryStands t u) : EntryStands s u :=
  ⟨k.cfg.trans h.cfg, k.image.trans h.image, k.pose.trans h.pose, k.streams.trans h.streams, k.hold.trans h.hold,
    k.stmReply.trans h.stmReply, k.set.trans h.set, k.limStatus.trans h.limStatus, k.request.trans h.request,
    k.second.trans h.second, k.report.trans h.report, k.svcSecond.trans h.svcSecond, k.svcSummary.trans h.svcSummary,
    k.summary.trans h.summary⟩

theorem EntryStands.ite {p : Prop} [Decidable p] (h : EntryStands s t) (k : EntryStands s u) :
    EntryStands s (if p then t else u) := by
  split
  · exact h
  · exact k

theorem agree_entryStands (h : AgreeOutsideLimits s t) (set : t.lim.set = s.lim.set) : EntryStands s t := by
  obtain ⟨frame, lim, -, -, eco, ntc, -, -⟩ := h
  constructor
  case set => exact set
  case limStatus => rw [lim]
  case request | second | report => rw [eco]
  case summary => rw [ntc]
  all_goals rw [frame]

theorem acts_entryStands {b : Blocks} (h : Acts s t) (touched : Touches b s t) (free : b.lim = false) : EntryStands s t :=
  agree_entryStands (acts_agree h) (by rw [touched.lim free])

theorem noticeActs_entryStands (h : NoticeActs s t) (touched : Touches noticeBlocks s t) : EntryStands s t :=
  agree_entryStands (noticeActs_agree h) (by rw [touched.lim rfl])

theorem rebuild_entryStands (s : State) : EntryStands s s.rebuild := acts_entryStands (rebuild_acts s) (rebuild_touches s) rfl

theorem writeLimitDemands_entryStands (s : State) : EntryStands s s.writeLimitDemands :=
  acts_entryStands (writeLimitDemands_acts s) (writeLimitDemands_touches s) rfl

theorem evaluateStates_entryStands (s : State) (p : Limit → Bool) : EntryStands s (s.evaluateStates p) :=
  agree_entryStands (acts_agree (evaluateStates_acts s p)) (by rw [evaluateStates_lim])

theorem beginPeriod_entryStands (s : State) (c : Channel) : EntryStands s (s.beginPeriod c) := by
  rw [beginPeriod_eq]
  exact ⟨rfl, rfl, rfl, rfl, rfl, rfl, rfl, rfl, rfl, rfl, rfl, rfl, rfl, rfl⟩

theorem eco_entryStands (s : State) (f : Eco → Eco) (request : (f s.eco).requestTimer = s.eco.requestTimer)
    (second : (f s.eco).secondTimer = s.eco.secondTimer) (report : (f s.eco).reportTimer = s.eco.reportTimer) :
    EntryStands s (s.onEco f) :=
  ⟨rfl, rfl, rfl, rfl, rfl, rfl, rfl, rfl, request, second, report, rfl, rfl, rfl⟩

theorem setConditions_entryStands (s : State) (f : Ntc → Ntc) (summary : (f s.ntc).summaryTimer = s.ntc.summaryTimer) :
    EntryStands s (s.setConditions f) := by
  have formed : EntryStands s (s.onNtc f) := ⟨rfl, rfl, rfl, rfl, rfl, rfl, rfl, rfl, rfl, rfl, rfl, rfl, rfl, summary⟩
  unfold State.setConditions
  exact .ite formed (formed.trans (noticeActs_entryStands (conditionsChanged_noticeActs _) (conditionsChanged_touches _)))

theorem takeTimestamp_entryStands (s : State) : EntryStands s s.takeTimestamp := by
  unfold State.takeTimestamp
  refine .ite (.refl s) ?_
  split
  · exact setConditions_entryStands s _ rfl
  · exact .ite (setConditions_entryStands s _ rfl) (setConditions_entryStands s _ rfl)

theorem formNtc_entryStands (s : State) : EntryStands s s.formNtc :=
  (takeTimestamp_entryStands s).trans (setConditions_entryStands _ _ rfl)

theorem formNeutral_entryStands (s : State) (d : Ms) : EntryStands s (s.formNeutral d) := by
  unfold State.formNeutral
  exact .ite (eco_entryStands s _ rfl rfl rfl) ((eco_entryStands s _ rfl rfl rfl).trans (takeTimestamp_entryStands _))

theorem engineCondition_entryStands (s : State) : EntryStands s s.engineCondition := by
  have formed := eco_entryStands s (fun e => { e with running := s.engineRunning }) rfl rfl rfl
  unfold State.engineCondition
  exact .ite
    (.ite (formed.trans (acts_entryStands (enterWork_acts _) (enterWork_touches _) rfl)) formed)
    (.ite formed (formed.trans (acts_entryStands (enterEco_acts _ _) (enterEco_touches _ _) rfl)))

theorem ecoEnterRun_entryStands (s : State) : EntryStands s s.ecoEnterRun :=
  ((formNeutral_entryStands s _).trans (acts_entryStands (reform_acts _) (reform_touches _) rfl)).trans
    (engineCondition_entryStands _)

theorem svcEnterRun_entryStands (s : State) : EntryStands s s.svcEnterRun := by
  obtain ⟨w, hw⟩ : ∃ w, w = itemsFormed s fun _ => true := ⟨_, rfl⟩
  have items : EntryStands s w := by
    rw [hw]
    exact ⟨rfl, rfl, rfl, rfl, rfl, rfl, rfl, rfl, rfl, rfl, rfl, rfl, rfl, rfl⟩
  have flagged : EntryStands w { w with svc := { w.svc with derate := derateOf w.svc.items } } :=
    ⟨rfl, rfl, rfl, rfl, rfl, rfl, rfl, rfl, rfl, rfl, rfl, rfl, rfl, rfl⟩
  have formed : EntryStands w w.formDerate :=
    flagged.trans (agree_entryStands (formDerate_agrees w) (by rw [(formDerate_touches w).lim rfl]))
  rw [svcEnterRun_eq, ← hw]
  exact (items.trans formed).trans (acts_entryStands (reach_foldl raiseItem_acts _ _) (raiseItems_touches _ _) rfl)

theorem raiseClash_entryStands (s : State) : EntryStands s s.raiseClash := by
  unfold State.raiseClash
  split
  · exact .refl s
  · exact EntryStands.trans (t := s.onLink fun l => { l with clashMark := none })
      ⟨rfl, rfl, rfl, rfl, rfl, rfl, rfl, rfl, rfl, rfl, rfl, rfl, rfl, rfl⟩
      (noticeActs_entryStands (raiseNotice_noticeActs _ _ _ _) (raiseNotice_touches _ _ _ _))

theorem raiseLost_entryStands (s : State) : EntryStands s s.raiseLost := by
  unfold State.raiseLost
  split
  · exact .refl s
  · exact noticeActs_entryStands (raiseNotice_noticeActs _ _ _ _) (raiseNotice_touches _ _ _ _)

theorem runThreads_stand : ∀ thread ∈ runThreads first, ∀ event ∈ thread, ∀ t, EntryStands t (event t) := by
  have limits : ∀ event ∈ limitThread first, ∀ t, EntryStands t (event t) := by
    intro event h t
    rcases mem_limitThread h with rfl | rfl | rfl
    · exact evaluateStates_entryStands t _
    · exact rebuild_entryStands t
    · exact writeLimitDemands_entryStands t
  simp only [runThreads, List.mem_cons, List.not_mem_nil, or_false, forall_eq_or_imp, forall_eq]
  exact ⟨fun t => noticeActs_entryStands (raiseFaults_acts t) (raiseFaults_touches t), limits, fun t => beginPeriod_entryStands t _,
    fun t => beginPeriod_entryStands t _, fun t => beginPeriod_entryStands t _, fun t => beginPeriod_entryStands t _,
    fun t => beginPeriod_entryStands t _, fun t => beginPeriod_entryStands t _, ecoEnterRun_entryStands, svcEnterRun_entryStands,
    formNtc_entryStands, raiseClash_entryStands, raiseLost_entryStands⟩

/-- What every event of the entry keeps, the whole of it keeps. -/
theorem entry_keeps {P : State → Prop} (free : ∀ s n, P s → P { s with freeCount := n })
    (keeps : ∀ thread ∈ runThreads first, ∀ event ∈ thread, ∀ t, EntryStands v t → P t → P (event t)) (h : P v) :
    P (anyOrder (runThreads first) v) :=
  (anyOrder_keeps (P := fun t => EntryStands v t ∧ P t)
    (fun t n ⟨stands, kept⟩ => ⟨stands.trans ⟨rfl, rfl, rfl, rfl, rfl, rfl, rfl, rfl, rfl, rfl, rfl, rfl, rfl, rfl⟩, free t n kept⟩) _ v
    (fun thread mem event inside t ⟨stands, kept⟩ =>
      ⟨stands.trans (runThreads_stand thread mem event inside t), keeps thread mem event inside t stands kept⟩) ⟨.refl v, h⟩).2

theorem entry_stands (v : State) (first : Bool) : EntryStands v (anyOrder (runThreads first) v) :=
  entry_keeps (P := EntryStands v)
    (fun _ _ stands => stands.trans ⟨rfl, rfl, rfl, rfl, rfl, rfl, rfl, rfl, rfl, rfl, rfl, rfl, rfl, rfl⟩)
    (fun thread mem event inside t stands _ => stands.trans (runThreads_stand thread mem event inside t)) (.refl v)

/-! ## The channels -/

/-- What VCH keeps of a channel while blocks write their demands. -/
structure ChannelStands (r r' : ChannelRecord) : Prop where
  counter : r'.counter = r.counter
  subCount : r'.subCount = r.subCount
  pin : r'.pin = r.pin
  duty : r'.duty = r.duty
  state : r'.state = r.state

theorem ChannelStands.refl (r : ChannelRecord) : ChannelStands r r := ⟨rfl, rfl, rfl, rfl, rfl⟩

theorem agree_channel (h : AgreeOutsideLimits s t) (c : Channel) : ChannelStands (s.vch.get c) (t.vch.get c) := by
  obtain ⟨-, -, -, vch, -⟩ := h
  rw [vch c]
  exact ⟨rfl, rfl, rfl, rfl, rfl⟩

theorem touches_channel {b : Blocks} (h : Touches b s t) (free : b.vch = false) (c : Channel) :
    ChannelStands (s.vch.get c) (t.vch.get c) := by
  rw [h.vch free]
  exact .refl _

/-- An event of the entry starts a channel's period, or leaves every channel running as it was. -/
theorem runThreads_channels : ∀ thread ∈ runThreads first, ∀ event ∈ thread, (∃ c : Channel, event = fun s => s.beginPeriod c)
    ∨ ∀ t c, ChannelStands (t.vch.get c) ((event t).vch.get c) := by
  have limits : ∀ event ∈ limitThread first, (∃ c : Channel, event = fun s => s.beginPeriod c)
      ∨ ∀ t c, ChannelStands (t.vch.get c) ((event t).vch.get c) := by
    intro event h
    rcases mem_limitThread h with rfl | rfl | rfl
    · exact .inr fun t => agree_channel (acts_agree (evaluateStates_acts t _))
    · exact .inr fun t => agree_channel (acts_agree (rebuild_acts t))
    · exact .inr fun t => agree_channel (acts_agree (writeLimitDemands_acts t))
  simp only [runThreads, List.mem_cons, List.not_mem_nil, or_false, forall_eq_or_imp, forall_eq]
  exact ⟨.inr fun t => touches_channel (raiseFaults_touches t) rfl, limits, .inl ⟨_, rfl⟩, .inl ⟨_, rfl⟩, .inl ⟨_, rfl⟩,
    .inl ⟨_, rfl⟩, .inl ⟨_, rfl⟩, .inl ⟨_, rfl⟩, .inr fun t => touches_channel (ecoEnterRun_touches t) rfl,
    .inr fun t => touches_channel (svcEnterRun_touches t) rfl, .inr fun t => touches_channel (formNtc_touches t) rfl,
    .inr fun t => touches_channel (raiseClash_touches t) rfl, .inr fun t => touches_channel (raiseLost_touches t) rfl⟩

/-- A channel at the start of a period (R97). -/
def PeriodBegun (r : ChannelRecord) : Prop := r.counter = 0 ∧ r.subCount = 0 ∧ r.pin = decide (0 < r.duty)

theorem PeriodBegun.stands {r r' : ChannelRecord} (h : PeriodBegun r) (k : ChannelStands r r') : PeriodBegun r' := by
  obtain ⟨counter, subCount, pin⟩ := h
  exact ⟨k.counter.trans counter, k.subCount.trans subCount, by rw [k.pin, k.duty]; exact pin⟩

theorem beginPeriod_begun (run : t.inRun = true) (used : (t.img.channels.get c).used = true) :
    PeriodBegun ((t.beginPeriod c).vch.get c) := by
  rw [beginPeriod_get, if_pos ⟨run, used, rfl⟩]
  exact ⟨rfl, rfl, rfl⟩

theorem beginPeriod_unused {c' : Channel} (unused : (t.img.channels.get c).used = false) :
    (t.beginPeriod c').vch.get c = t.vch.get c := by
  rw [beginPeriod_get, if_neg]
  rintro ⟨-, used, rfl⟩
  exact absurd (used.symm.trans unused) (by decide)

theorem beginPeriod_mem (first : Bool) (c : Channel) :
    ∃ thread ∈ runThreads first, (fun s : State => s.beginPeriod c) ∈ thread := by
  refine ⟨[fun s => s.beginPeriod c], ?_, List.mem_singleton_self _⟩
  unfold runThreads
  cases c <;> simp

theorem stands_img (h : EntryStands s t) : t.img = s.img := by
  unfold State.img
  rw [h.image]

theorem stands_run (h : EntryStands s t) (run : s.inRun = true) : t.inRun = true := by
  unfold State.inRun
  rw [h.cfg]
  exact run

/-- Every used channel has its first period at the entry (R107). -/
theorem entry_begins (run : v.inRun = true) (used : (v.img.channels.get c).used = true) :
    PeriodBegun ((anyOrder (runThreads first) v).vch.get c) := by
  refine anyOrder_reaches (P := EntryStands v) (Q := fun t => PeriodBegun (t.vch.get c)) (e := fun s => s.beginPeriod c)
    (fun _ _ h => h.trans ⟨rfl, rfl, rfl, rfl, rfl, rfl, rfl, rfl, rfl, rfl, rfl, rfl, rfl, rfl⟩)
    (fun _ _ h => ⟨h.1.trans ⟨rfl, rfl, rfl, rfl, rfl, rfl, rfl, rfl, rfl, rfl, rfl, rfl, rfl, rfl⟩, h.2⟩)
    (fun t h => beginPeriod_begun (stands_run h run) (by rw [stands_img h]; exact used)) _ v (beginPeriod_mem first c)
    (fun thread mem event inside t h => h.trans (runThreads_stand thread mem event inside t))
    (fun thread mem event inside t h begun => ?_) (.refl v)
  rcases runThreads_channels thread mem event inside with ⟨c', rfl⟩ | stands
  · by_cases same : c' = c
    · rw [same]
      exact beginPeriod_begun (stands_run h run) (by rw [stands_img h]; exact used)
    · show PeriodBegun ((t.beginPeriod c').vch.get c)
      rw [beginPeriod_get, if_neg fun h => same h.2.2.symm]
      exact begun
  · exact begun.stands (stands t c)

/-- An unused channel runs no counter (R97, R109). -/
theorem entry_unused (unused : (v.img.channels.get c).used = false) :
    ChannelStands (v.vch.get c) ((anyOrder (runThreads first) v).vch.get c) := by
  refine entry_keeps (P := fun t => ChannelStands (v.vch.get c) (t.vch.get c)) (fun _ _ h => h)
    (fun thread mem event inside t h kept => ?_) (.refl _)
  rcases runThreads_channels thread mem event inside with ⟨c', rfl⟩ | stands
  · show ChannelStands _ ((t.beginPeriod c').vch.get c)
    rw [beginPeriod_unused (by rw [stands_img h]; exact unused)]
    exact kept
  · have next := stands t c
    exact ⟨next.counter.trans kept.counter, next.subCount.trans kept.subCount, next.pin.trans kept.pin,
      next.duty.trans kept.duty, next.state.trans kept.state⟩

/-! ## The first key -/

/-- A held key has its winner (R78). -/
def KeySelects (s : State) : Prop := ∀ k, s.rule.key = some k → s.rule.winner = some (lookup s.img.rules k)

theorem changeWinner_rule (s : State) (w : Nat) (k : Key) : (s.changeWinner w k).rule.key = s.rule.key
    ∧ (s.changeWinner w k).rule.winner = some w := by
  unfold State.changeWinner
  dsimp only
  rw [(raiseRuleNotice_touches _ _ _).rule rfl, (clearRuleNotice_touches _ _).rule rfl, (ruleSound_touches _ _ _).rule rfl,
    (writeCaps_touches _ _).rule rfl, State.writeCuts, (writeDemands_touches _ _).rule rfl]
  exact ⟨rfl, rfl⟩

theorem lookupKey_selects (key : s.rule.key = some k) : (s.lookupKey k).rule.key = some k
    ∧ (s.lookupKey k).rule.winner = some (lookup s.img.rules k) := by
  unfold State.lookupKey
  dsimp only
  split
  · exact ⟨key, ‹_›⟩
  · obtain ⟨same, winner⟩ := changeWinner_rule s (lookup s.img.rules k) k
    exact ⟨same.trans key, winner⟩

theorem rebuild_selects (h : KeySelects s) : KeySelects s.rebuild := by
  have img : s.rebuild.img = s.img := by
    unfold State.img
    rw [(rebuild_touches s).image rfl]
  intro k' held
  rw [img]
  unfold State.rebuild at held ⊢
  dsimp only at held ⊢
  split at held
  · rename_i run
    rw [if_pos run]
    split at held
    · rename_i same
      rw [if_pos same]
      exact h k' held
    · rename_i other
      rw [if_neg other]
      obtain ⟨key, winner⟩ := lookupKey_selects (s := s.onRule fun u => { u with key := some s.zoneKey }) (k := s.zoneKey) rfl
      rw [key] at held
      rw [winner, ← Option.some.inj held]
      rfl
  · rename_i out
    rw [if_neg out]
    exact h k' held

theorem touches_selects {b : Blocks} (h : Touches b s t) (rule : b.rule = false) (image : b.image = false) (k : KeySelects s) :
    KeySelects t := by
  unfold KeySelects State.img
  rw [h.rule rule, h.image image]
  exact k

/-- Every event of the entry keeps a held key with its winner. -/
theorem runThreads_selects : ∀ thread ∈ runThreads first, ∀ event ∈ thread, ∀ t, KeySelects t → KeySelects (event t) := by
  have limits : ∀ event ∈ limitThread first, ∀ t, KeySelects t → KeySelects (event t) := by
    intro event h t
    rcases mem_limitThread h with rfl | rfl | rfl
    · exact touches_selects (evaluateStates_touches t _) rfl rfl
    · exact rebuild_selects
    · exact touches_selects (writeLimitDemands_touches t) rfl rfl
  simp only [runThreads, List.mem_cons, List.not_mem_nil, or_false, forall_eq_or_imp, forall_eq]
  exact ⟨fun t => touches_selects (raiseFaults_touches t) rfl rfl, limits, fun t => touches_selects (beginPeriod_touches t _) rfl rfl,
    fun t => touches_selects (beginPeriod_touches t _) rfl rfl, fun t => touches_selects (beginPeriod_touches t _) rfl rfl,
    fun t => touches_selects (beginPeriod_touches t _) rfl rfl, fun t => touches_selects (beginPeriod_touches t _) rfl rfl,
    fun t => touches_selects (beginPeriod_touches t _) rfl rfl, fun t => touches_selects (ecoEnterRun_touches t) rfl rfl,
    fun t => touches_selects (svcEnterRun_touches t) rfl rfl, fun t => touches_selects (formNtc_touches t) rfl rfl,
    fun t => touches_selects (raiseClash_touches t) rfl rfl, fun t => touches_selects (raiseLost_touches t) rfl rfl⟩

theorem entry_selects (h : KeySelects v) : KeySelects (anyOrder (runThreads first) v) :=
  entry_keeps (P := KeySelects) (fun _ _ h => h) (fun thread mem event inside t _ => runThreads_selects thread mem event inside t) h

/-! ## The LIMIT STATUS frames -/

theorem statusChanges_last {α : Type} : ∀ (cs : List α) {s : State}, s.cfg.node = .run →
    (cs ≠ [] ∨ LastUrgent s.link .limitStatus 0xFF (limitStatusData s true)) →
    LastUrgent (cs.foldl (fun (t : State) _ => t.offerStatusChange) s).link .limitStatus 0xFF (limitStatusData s true)
  | [], s, _, h => h.resolve_left fun no => no rfl
  | _ :: cs, s, run, _ => by
    have next := statusChanges_last cs (s := s.offerStatusChange) run (.inr ?_)
    · rw [offerStatusChange_data] at next
      exact next
    · rw [offerStatusChange_data]
      exact offerStatusChange_last (takesOffer_run run)

theorem statesDiffer_iff (a b : PerLimit LimitRecord) :
    statesDiffer a b = true ↔ ∃ l : Limit, (b.get l).state ≠ (a.get l).state := by
  unfold statesDiffer
  rw [List.any_eq_true]
  constructor
  · rintro ⟨l, -, other⟩
    exact ⟨l, fun same => bne_iff_ne.1 other same.symm⟩
  · rintro ⟨l, other⟩
    exact ⟨l, by cases l <;> decide, bne_iff_ne.2 fun same => other same.symm⟩

/-- The frames of the entry carry the states at its end (R61, R106). -/
theorem reportEntry_last (run : s.cfg.node = .run) (changed : (∃ l : Limit, (s.lim.records.get l).state ≠ (u.lim.records.get l).state)
      ∨ ∃ c : Channel, (s.vch.get c).state ≠ (u.vch.get c).state) :
    LastUrgent (s.reportEntry u).link .limitStatus 0xFF (limitStatusData (s.reportEntry u) true) := by
  have touched := reportEntry_touches s u
  have data : limitStatusData (s.reportEntry u) true = limitStatusData s true :=
    limitStatusData_congr (by rw [touched.lim rfl]) (touched.vch rfl) true
  obtain ⟨w, hw⟩ : ∃ w, w = if statesDiffer u.lim.records s.lim.records then s.offerStatusChange else s := ⟨_, rfl⟩
  have node : w.cfg.node = .run := by
    rw [hw]
    split <;> exact run
  have told : limitStatusData w true = limitStatusData s true := by
    rw [hw]
    split
    · exact offerStatusChange_data s
    · rfl
  have last := statusChanges_last (Channel.all.filter fun c => (s.vch.get c).state != (u.vch.get c).state) (s := w) node ?_
  · rw [data, ← told]
    unfold State.reportEntry
    dsimp only
    rw [← hw]
    exact last
  rcases changed with limit | ⟨c, other⟩
  · refine .inr ?_
    rw [told, hw, if_pos ((statesDiffer_iff _ _).2 limit)]
    exact offerStatusChange_last (takesOffer_run run)
  · refine .inl (List.ne_nil_of_mem (List.mem_filter.2 ⟨?_, bne_iff_ne.2 other⟩))
    cases c <;> decide

/-! ## The entry -/

theorem startRun_eq (s : State) : s.startRun = { s with
    cfg := { s.cfg with node := .run, joinTimer := none, statusTimer := some (after s.now 1000) }
    pose := { s.pose with timer := some (after s.now 20) }
    streams := s.streams.map fun e =>
      if e.state = .neverSeen then { e with absence := some (after s.now (e.staleMult * e.period)) } else e
    lim := { s.lim with statusTimer := some (after s.now 100) }
    hold := { s.hold with quantumTimer := some (after s.now 10) }
    eco := { s.eco with requestTimer := some (after s.now 100), secondTimer := some (after s.now 1000)
                        reportTimer := some (after s.now 10000), fuelMark := none }
    svc := { s.svc with secondTimer := some (after s.now 1000), summaryTimer := some (after s.now 10000)
                        items := s.svc.items.map fun i => { i with remind := none } }
    ntc := { s.ntc with summaryTimer := some (after s.now 1000) } } := rfl

theorem pick_eq (s : State) (n : Nat) : ∃ m, (s.pick n).2 = { s with freeCount := m } := by
  unfold State.pick
  split
  · exact ⟨s.freeCount, rfl⟩
  · exact ⟨_, rfl⟩

theorem joinTimerExpiry_eq {d : Ms} (h : s.cfg.joinTimer = some d) : exec .joinTimerExpiry s = .next (s.arriveAt d).enterRun := by
  show execJoinTimerExpiry s = _
  unfold execJoinTimerExpiry
  rw [h]

/-- The entry by its threads: a free choice of the order of LIM and RULE, then any interleaving (log 6). -/
theorem enterRun_threads (s : State) : ∃ (first : Bool) (v : State), v = { s.startRun with freeCount := v.freeCount }
    ∧ s.enterRun = (anyOrder (runThreads first) v).reportEntry s := by
  obtain ⟨m, picked⟩ := pick_eq s.startRun 2
  exact ⟨(s.startRun.pick 2).1 == 1, (s.startRun.pick 2).2, by rw [picked], rfl⟩

/-- What the entry leaves: the timers of RUN, the first period of each used channel, and the frames (R188). -/
theorem enterRun_facts {b t : State} (ht : t = b.enterRun) :
    t.cfg.node = .run ∧ t.cfg.joinTimer = none ∧ t.cfg.statusTimer = some (after b.now 1000)
    ∧ t.pose.timer = some (after b.now 20) ∧ t.pose.record = b.pose.record
    ∧ t.lim.statusTimer = some (after b.now 100) ∧ t.lim.set = b.lim.set
    ∧ t.hold.quantumTimer = some (after b.now 10) ∧ t.hold.entries = b.hold.entries
    ∧ t.eco.requestTimer = some (after b.now 100) ∧ t.eco.secondTimer = some (after b.now 1000)
    ∧ t.eco.reportTimer = some (after b.now 10000)
    ∧ t.svc.secondTimer = some (after b.now 1000) ∧ t.svc.summaryTimer = some (after b.now 10000)
    ∧ t.ntc.summaryTimer = some (after b.now 1000)
    ∧ (∀ e ∈ t.streams, e.state = .neverSeen → e.absence = some (after b.now (e.staleMult * e.period)))
    ∧ (b.rule.key = none → ∃ k, t.rule.key = some k ∧ t.rule.winner = some (lookup b.img.rules k))
    ∧ (∀ c : Channel, (b.img.channels.get c).used = true → PeriodBegun (t.vch.get c))
    ∧ (∀ c : Channel, (b.img.channels.get c).used = false → ChannelStands (b.vch.get c) (t.vch.get c))
    ∧ (((∃ l : Limit, (t.lim.records.get l).state ≠ (b.lim.records.get l).state)
          ∨ ∃ c : Channel, (t.vch.get c).state ≠ (b.vch.get c).state) →
        LastUrgent t.link .limitStatus 0xFF (limitStatusData t true))
    ∧ t.image = b.image ∧ t.stmReply = b.stmReply := by
  obtain ⟨first, v, hv, entered⟩ := enterRun_threads b
  obtain ⟨w, hw⟩ : ∃ w, w = anyOrder (runThreads first) v := ⟨_, rfl⟩
  rw [← hw] at entered
  have stands : EntryStands v w := by rw [hw]; exact entry_stands v first
  have reported : Touches { link := true } w t := by rw [ht, entered]; exact reportEntry_touches w b
  have frame : t = { w with link := t.link } := framed reported
  have started : v = { b.startRun with freeCount := v.freeCount } := hv
  rw [startRun_eq] at started
  have vImg : v.img = b.img := by rw [started]; rfl
  have run : v.inRun = true := by rw [started]; rfl
  have vch : t.vch = w.vch := reported.vch rfl
  have node : w.cfg.node = .run := (inRun_iff w).1 (stands_run stands run)
  refine ⟨?_, ?_, ?_, ?_, ?_, ?_, ?_, ?_, ?_, ?_, ?_, ?_, ?_, ?_, ?_, fun e mem never => ?_, fun none => ?_, fun c used => ?_,
    fun c unused => ?_, fun changed => ?_, ?_, ?_⟩
  · rw [reported.cfg rfl]
    exact node
  · rw [reported.cfg rfl, stands.cfg, started]
  · rw [reported.cfg rfl, stands.cfg, started]
  · rw [reported.pose rfl, stands.pose, started]
  · rw [reported.pose rfl, stands.pose, started]
  · rw [reported.lim rfl, stands.limStatus, started]
  · rw [reported.lim rfl, stands.set, started]
  · rw [reported.hold rfl, stands.hold, started]
  · rw [reported.hold rfl, stands.hold, started]
  · rw [reported.eco rfl, stands.request, started]
  · rw [reported.eco rfl, stands.second, started]
  · rw [reported.eco rfl, stands.report, started]
  · rw [reported.svc rfl, stands.svcSecond, started]
  · rw [reported.svc rfl, stands.svcSummary, started]
  · rw [reported.ntc rfl, stands.summary, started]
  · rw [reported.streams rfl, stands.streams, started] at mem
    obtain ⟨x, -, made⟩ := List.mem_map.1 mem
    rw [← made] at never ⊢
    split at never
    · rename_i new
      rw [if_pos new]
    · rename_i seen
      exact absurd never seen
  · have empty : KeySelects v := fun k held => by
      have key : v.rule.key = Option.none := by rw [started]; exact none
      rw [key] at held
      cases held
    have selects : KeySelects w := by rw [hw]; exact entry_selects empty
    have held := enterRun_keyHeld b
    rw [← ht] at held
    obtain ⟨k, key⟩ := Option.isSome_iff_exists.1 (held (by rw [reported.cfg rfl]; exact node))
    refine ⟨k, key, ?_⟩
    rw [reported.rule rfl] at key ⊢
    rw [selects k key, stands_img stands, vImg]
  · rw [vch, hw]
    exact entry_begins run (by rw [vImg]; exact used)
  · rw [vch, hw]
    have rests := entry_unused (v := v) (first := first) (c := c) (by rw [vImg]; exact unused)
    rw [show v.vch = b.vch by rw [started]] at rests
    exact rests
  · rw [reported.lim rfl, vch] at changed
    rw [ht, entered]
    exact reportEntry_last node changed
  · rw [reported.image rfl, stands.image, started]
  · rw [reported.stmReply rfl, stands.stmReply, started]

theorem catalogue_lost (image : s.image.isSome = true) : s.catalogue 0x70 = some (.warning, .display) := by
  unfold State.catalogue
  rw [Option.isNone_eq_false_iff.2 image]
  rfl

theorem raiseClash_facts (s : State) : (s.link.clashMark = none → s.raiseClash = s)
    ∧ ∀ m, s.link.clashMark = some m → s.raiseClash =
      State.raiseNotice { s with link := { s.link with clashMark := none } } 0x71 none (.clash m.1 m.2 s.link.clashes) := by
  unfold State.raiseClash
  exact ⟨fun none => by rw [none], fun m marked => by rw [marked]; rfl⟩

theorem raiseLost_facts (s : State) : (s.cfg.recordLost = none → s.raiseLost = s)
    ∧ ∀ c, s.cfg.recordLost = some c → s.raiseLost = s.raiseNotice 0x70 none (.record c) := by
  unfold State.raiseLost
  exact ⟨fun none => by rw [none], fun c lost => by rw [lost]⟩

theorem formNtc_eq (s : State) : s.formNtc =
    s.takeTimestamp.setConditions fun n => { n with displayAvailable := (s.streamState .display).heard } := by
  have heard : s.takeTimestamp.displayHeard = (s.streamState .display).heard := by
    unfold State.displayHeard State.streamState State.stream
    rw [(takeTimestamp_touches s).streams rfl]
  unfold State.formNtc State.takeDisplay
  rw [heard]

/-- Settles O10: the entry by its threads, and each thread by what its block does. -/
theorem joinTimerEntersRun : Obligations.JoinTimerEntersRun := by
  refine ⟨fun s d h => ?_, fun s d h => ?_, startRun_eq, fun first => rfl, raiseFaults_eq, fun s u run image ordered once hu => ?_,
    fun s => rfl, fun s u hu => ?_, formNtc_eq, raiseClash_facts, raiseLost_facts,
    fun s image => ⟨catalogue_lost image, catalogue_clash image⟩, fun s c => ⟨s.periodStart c, rfl, by rw [periodStart_vch]; exact beginPeriod_eq s c⟩⟩
  · obtain ⟨t, ht⟩ : ∃ t, t = (s.arriveAt d).enterRun := ⟨_, rfl⟩
    have facts := enterRun_facts ht
    rw [arriveAt_pose, arriveAt_lim, arriveAt_hold, arriveAt_rule, arriveAt_img, arriveAt_vch, arriveAt_image,
      arriveAt_stmReply] at facts
    obtain ⟨node, join, status, pose, record, limStatus, set, quantum, entries, request, second, report, svcSecond, svcSummary,
      summary, absence, winner, begun, rests, frames, image, reply⟩ := facts
    exact ⟨t, by rw [joinTimerExpiry_eq h, ht], node, join, status, pose, record, limStatus, set, quantum, entries, request, second,
      report, svcSecond, svcSummary, summary, absence, winner, begun,
      fun c unused => ⟨(rests c unused).state, (rests c unused).duty, (rests c unused).pin⟩, frames, image, reply⟩
  · obtain ⟨first, v, hv, entered⟩ := enterRun_threads (s.arriveAt d)
    exact ⟨first, v, hv, by rw [joinTimerExpiry_eq h, entered]⟩
  · obtain ⟨-, held⟩ := faultsRaised_held s.streams run image ((noticesOrdered_iff s).1 ordered) (fun _ mem => mem) once
    intro e mem low c cause
    rw [hu, raiseFaults_eq]
    exact held e mem low c cause
  · rw [hu]
    exact svcEnterRun_itemsEvaluated s

end Sys2Proof.Laws
end
